-- ==== Sys2Proof/Word.lean ====
section
/-!
DEFINITION. The word types of the module (R3, R4): bytes, 32-bit register words, 64-bit words, 64-byte blocks.
-/

namespace Sys2Proof

/-- A byte of memory. -/
abbrev Byte := BitVec 8
/-- A register word (R4), an accumulator value, a vector lane. -/
abbrev Word := BitVec 32
/-- A scalar register, a counter, a tile instruction. -/
abbrev Dword := BitVec 64
/-- A mailbox value: up to eight 32-bit words (R47). -/
abbrev Wide := BitVec 256

end Sys2Proof
end

