-- ==== Sys2Proof/Syntax.lean ====
section
/-!
DEFINITION. The commands of the block: one constructor per row of the operation table, and the types of what a
command carries. The operation table gives its rows no operand fields, so the operands are the model's reading of
the rule that each row cites (log 2).
-/

namespace Sys2Proof

/-- Global core number, 304·d + c. -/
abbrev CoreId := Fin 1216
/-- Worker die W0 to W3. -/
abbrev DieId := Fin 4
/-- Ward 8·d + w. -/
abbrev WardId := Fin 32
/-- Optical port P0 to P15. -/
abbrev PortId := Fin 16
/-- Global LPDDR channel 8·package + channel. -/
abbrev ChanId := Fin 128
/-- Matrix array A0 to A3. -/
abbrev ArrayId := Fin 4
/-- Flash die of the checkpoint store. -/
abbrev FlashDie := Fin 64
/-- Manager core MC0 to MC17. -/
abbrev MgrCore := Fin 18

/-- Master classes of R11: classes S, K and U name the manager core that issues the access, class C the core whose tile
program makes it. -/
inductive Master where
  | s (mc : MgrCore)
  | k (mc : MgrCore)
  | u (mc : MgrCore)
  | x
  | c (core : CoreId)
  deriving DecidableEq, Repr

/-- A packet as R279 lays it out; `payload` holds the payload bytes that arrived. -/
structure Packet where
  dst : BitVec 16
  src : BitVec 16
  kind : BitVec 6
  ttl : BitVec 8
  len : BitVec 9
  epoch : BitVec 16
  ctx : BitVec 16
  msgId : BitVec 32
  addr : BitVec 64
  aux : BitVec 32
  rsvdZero : Bool
  payload : List (BitVec 8)
  deriving DecidableEq, Repr

/-- What nine physical lanes carry for the length of one codeword: per lane its symbols in order (R252, R259). -/
abbrev LaneWord := List (List (BitVec 10))

/-- A direction of a port, seen from this module. -/
inductive LinkDir where
  | tx | rx
  deriving DecidableEq, Repr

/-- What a PARAM exchange reports of the partner (R261). -/
structure Partner where
  id : BitVec 16
  port : BitVec 4
  shares : List (BitVec 6)
  seqBase : BitVec 12
  deriving DecidableEq, Repr

/-- One lane's corrected-symbol figures over a window: symbols received and symbols corrected (R264). -/
structure LaneRatio where
  symbols : Nat
  corrected : Nat
  deriving DecidableEq, Repr

/-- A stored byte found flipped: global channel, slot, byte offset in the slot (R217) and the flipped bits. -/
structure Upset where
  chan : ChanId
  slot : Nat
  byte : Nat
  flips : BitVec 8
  deriving DecidableEq, Repr

/-- A copy of the time counter (R201): a ward's or a dispatcher's. -/
inductive TimeCopy where
  | ward (w : WardId)
  | dispatcher (d : DieId)
  deriving DecidableEq, Repr

/-- A flipped bit of a value that a core corrects when it next reads it: an instruction of the buffer, a scalar register, a lane
of a vector register (R137), an 8-byte word of the operand cache (R173), a value of an accumulator (R117). -/
inductive SoftError where
  | code (index : Fin 8192)
  | scalar (r : Fin 32)
  | vector (r : Fin 32) (lane : Fin 64)
  | cache (word : Fin 196608)
  | acc (a : ArrayId) (slot : Fin 64) (row lane : Fin 32)
  deriving DecidableEq, Repr

/-- Who met a double-bit operand-cache error (R173): the running tile, or a master that read the cache's window. -/
inductive OcReader where
  | tile
  | window (m : Master)
  deriving DecidableEq, Repr

/-- Why a flash block is refreshed (R367). -/
inductive RefreshCause where
  | age (days : Nat)
  | corrected (bits : Nat)
  deriving DecidableEq, Repr

/-- Why a flash block is retired (R368). -/
inductive RetireCause where
  | programOrErase
  | corrected (bits : Nat)
  | eraseCount
  deriving DecidableEq, Repr

/-- A domain with replica paths (R405): a ward or the fabric of a die. -/
inductive MarginDomain where
  | ward (w : WardId)
  | fabric (d : DieId)
  deriving DecidableEq, Repr

/-- What a re-plan step measured (R409): for a ward step the factory slack at the group frequency, the least reading,
both in units of 0.5 %, and the ward's sensitivity in millivolts per 1 %; for a fabric step the least reading. -/
structure ReplanReading where
  factorySlack : Nat
  leastReading : Nat
  sensitivity : Nat
  deriving DecidableEq, Repr

/-- What a PMBus poll of a rail returns (R420, R421). -/
structure RailTelemetry where
  millivolts : Nat
  deciamps : Nat
  deciCelsius : BitVec 16
  phaseFault : Bool
  railFault : Bool
  deriving DecidableEq, Repr

/-- A thermistor conversion (R433): resistance out of range, or a temperature in 0.1 °C. -/
inductive ThermReading where
  | fault
  | tenths (t : Int)
  deriving DecidableEq, Repr

/-- A bound peer: IP address (IPv6, or IPv4-mapped) and UDP port. -/
structure Peer where
  ip : BitVec 128
  port : BitVec 16
  deriving DecidableEq, Repr

/-- The header of a management message that passed R473 and R474. -/
structure MsgHdr where
  peer : Peer
  session : BitVec 32
  seq : BitVec 32
  ack : BitVec 32
  chan : BitVec 8
  deriving DecidableEq, Repr

/-- An OPEN (R476): sender, payload length and first event SEQ. -/
structure OpenMsg where
  peer : Peer
  chan : BitVec 8
  len : Nat
  firstEvent : BitVec 64
  deriving DecidableEq, Repr

/-- A COMMAND message (R477): header, payload length, the bytes 2 and 3, the tag and the argument bytes. -/
structure CmdMsg where
  hdr : MsgHdr
  payloadLen : Nat
  zero : BitVec 16
  tag : BitVec 32
  args : List (BitVec 8)
  deriving DecidableEq, Repr

/-- A frame with a bad FCS (R472), or a datagram that breaks R472 to R474 or R534; a sequenced message on a wrong channel
keeps its header (R534). -/
inductive BadDatagram where
  | fcs
  | udp
  | header
  | badType
  | moduleType
  | openLength
  | channelSequenced (h : MsgHdr)
  | channelUnsequenced
  deriving DecidableEq, Repr

/-- Levels of the live inputs at one sample of the always-on domain (R529, R523). -/
structure PinLevels where
  powerLimitLow : Bool
  btnLow : Bool
  losHigh : Bool
  jumper : Bool
  sealOhms : Nat
  straps : BitVec 12
  deriving DecidableEq, Repr

/-- An ARP, neighbour-discovery or echo request on the management port (R472). -/
inductive EchoReq where
  | arp (target : BitVec 32)
  | neighbour (target : BitVec 128)
  | echo4 (src : BitVec 32) (data : List (BitVec 8))
  | echo6 (src : BitVec 128) (data : List (BitVec 8))
  deriving DecidableEq, Repr

/-- The commands of the block: one constructor per row of the operation table. -/
inductive Instr where
  /-- REGISTER_WRITE (R7): A write to a register field that has no row of its own stores the value per its access code, refusing reserved codes and guarded or presence-guarded fields as stated. -/
  | registerWrite (m : Master) (addr : BitVec 44) (width : Nat) (value : BitVec 32)
  /-- RC_READ (R8): A read of an RC register, EVENT included, returns the sticky bits or counter and clears only what it returned. -/
  | rcRead (m : Master) (addr : BitVec 44) (width : Nat)
  /-- VOTE_SCAN (R60): Every 1,000,000 ticks each block re-votes all its triplicated fields. -/
  | voteScan (page : BitVec 12)
  /-- MAILBOX_READ (R50): An MBX_SEL write with WRITE = 0 snapshots the selected wide value into the data words and sets VALID. -/
  | mailboxRead (m : Master) (page : BitVec 12) (vid : BitVec 16) (part : Bool)
  /-- MAILBOX_WRITE (R51): An MBX_SEL write with WRITE = 1 and PART = 0 takes the whole wide value from the data words in one cycle. -/
  | mailboxWrite (m : Master) (page : BitVec 12) (vid : BitVec 16)
  /-- MAILBOX_STAGE (R51): An MBX_SEL write with WRITE = 1 and PART = 1 stages words 6 and 7 without changing the value. -/
  | mailboxStage (m : Master) (page : BitVec 12) (vid : BitVec 16)
  /-- EVENT_NOTIFY (R46): Fethaum reads EVENT on an asserted interrupt source and turns each bit read into an event notification. -/
  | eventNotify (page : BitVec 12)
  /-- ACCESS_TIMEOUT (R55): An access not completed within 50 us completes with a bus error and raises ACCESS_TIMEOUT. The last operand is the session's register command whose access it was, if it was one. -/
  | accessTimeout (m : Master) (addr : BitVec 44) (write : Option (BitVec 32)) (applied : Bool) (cmd : Option CmdMsg)
  /-- PASS (R100): Starts the pass whose descriptor lies at the operand-cache address, checking and queuing it on its array. -/
  | pass (g : CoreId)
  /-- PASS_START (R105): A queued or idle-array pass reaches its cycle 0 behind the moving weight front and feeds its input rows. -/
  | passStart (g : CoreId) (a : ArrayId)
  /-- PASS_COMPLETE (R104): A pass writes its last accumulator row and completes, releasing PWAIT and stalled starts. -/
  | passComplete (g : CoreId) (a : ArrayId)
  /-- ACC_INV (R131): A write of ACC_INV requests clearing of the accumulator valid bits of the named arrays. -/
  | accInv (m : Master) (g : CoreId) (arrays : BitVec 4)
  /-- ACC_INV_DONE (R131): The ACC_INV action runs once the array's running or queued pass has completed, clearing the valid bits. -/
  | accInvDone (g : CoreId) (a : ArrayId)
  /-- ACC_UE (R117): A double-bit accumulator error is found on read and abandons the running tile. -/
  | accUe (g : CoreId) (a : ArrayId) (slot : Fin 64) (row : Fin 32)
  /-- REG_UE (R137): A double-bit error in the instruction buffer or register files abandons the tile. -/
  | regUe (g : CoreId)
  /-- OC_UE (R173): A double-bit operand-cache error abandons the reading tile or ends a manager access with a bus error. -/
  | ocUe (g : CoreId) (offset : BitVec 21) (reader : OcReader)
  /-- PREEMPT_DECISION (R188): A PREEMPT task that has waited PREEMPT_DELAY pre-empts the admitting core with the lowest-priority tile, withdrawing its queued passes. -/
  | preemptDecision (d : DieId)
  /-- TILE_SUSPEND (R156): Once the running passes, VQUANT or COMMIT complete, the tile's state moves to the shadow and the pre-empting tile starts. -/
  | tileSuspend (g : CoreId)
  /-- TILE_RESUME (R156): When the pre-empting tile ends, the suspended tile's image, shadow and withdrawn passes are restored and it continues. -/
  | tileResume (g : CoreId)
  /-- SUSPENDED_TILE_FAIL (R531): A failed asynchronous operation of a suspended tile ends that tile with bus-error completion at once. -/
  | suspendedTileFail (g : CoreId) (op : Nat)
  /-- TILE_START (R133): A core takes a task, latches RNG_STEP, clears its slot window, initialises registers and sets the PC, loading the image if not resident. -/
  | tileStart (g : CoreId)
  /-- IMAGE_LOAD_DONE (R134): The code image load from bulk memory completes and the first instruction issues, or the tile ends with CODE_LOAD. -/
  | imageLoadDone (g : CoreId)
  /-- NOP (R142): Does nothing. -/
  | nop (g : CoreId)
  /-- JMP (R142): Sets the PC to the target. -/
  | jmp (g : CoreId)
  /-- BR (R143): Branches to the target when the FN compare of two scalars holds. -/
  | br (g : CoreId)
  /-- LOOP (R146): Pushes a loop entry and runs the body a counted number of times. -/
  | loop (g : CoreId)
  /-- CALL (R146): Pushes the return PC and jumps to the target. -/
  | call (g : CoreId)
  /-- RET (R146): Pops the return PC. -/
  | ret (g : CoreId)
  /-- ABORT (R142): Ends the tile with bus-error completion, cause ABORT, carrying a code. -/
  | abort (g : CoreId)
  /-- COMMIT (R152): Begins the end of the tile by waiting for its asynchronous operations and passes. -/
  | commit (g : CoreId)
  /-- COMMIT_PERFORM (R152): Once the tile's operations are complete, COMMIT performs the staged entries in staging order. -/
  | commitPerform (g : CoreId)
  /-- COMMIT_COMPLETE (R152): Once every write is accepted or acknowledged, the window is cleared, staging entries removed and normal completion reported. -/
  | commitComplete (g : CoreId)
  /-- LI (R142): Loads a sign-extended immediate into a scalar register. -/
  | li (g : CoreId)
  /-- ADDI (R142): Adds a sign-extended immediate to a scalar register. -/
  | addi (g : CoreId)
  /-- LIH (R142): Loads the high 24 bits of a scalar register. -/
  | lih (g : CoreId)
  /-- SOP (R143): Performs the scalar operation that FN selects. `flips` names bits of the core that have flipped since its last command. -/
  | sop (g : CoreId) (flips : List SoftError)
  /-- SLD (R143): Loads a scalar from the operand cache at the FN width. -/
  | sld (g : CoreId)
  /-- SST (R143): Stores the low bits of a scalar to the operand cache. -/
  | sst (g : CoreId)
  /-- RDREG (R142): Reads a 32-bit register of the own core, dispatcher or time-base page. -/
  | rdreg (g : CoreId)
  /-- WRREG (R142): Writes a 32-bit register of the own core, dispatcher or time-base page. -/
  | wrreg (g : CoreId)
  /-- TIME (R142): Reads the ward's copy of the time counter into a scalar. -/
  | time (g : CoreId)
  /-- DMA (R142): Starts an asynchronous tagged copy into the operand cache. -/
  | dma (g : CoreId)
  /-- DMA_DONE (R149): An asynchronous DMA completes and its tag is no longer outstanding. -/
  | dmaDone (g : CoreId) (op : Nat)
  /-- ASYNC_FAIL (R149): A failed asynchronous operation ends the running tile with bus-error completion when detected. -/
  | asyncFail (g : CoreId) (op : Nat)
  /-- PUT (R151): Stages a write to bulk memory in the staging list. -/
  | put (g : CoreId)
  /-- FPUT (R151): Stages a write to another module's bulk memory. -/
  | fput (g : CoreId)
  /-- DWAIT (R142): Holds the sequencer until no operation with a tag in the mask is outstanding. -/
  | dwait (g : CoreId)
  /-- PWAIT (R142): Holds the sequencer until every pass on the named arrays has completed. -/
  | pwait (g : CoreId)
  /-- ACCRD (R145): Reads two accumulator tile rows into a vector register, optionally clearing them, after their writes land. `flips` as at SOP. -/
  | accrd (g : CoreId) (flips : List SoftError)
  /-- ACCWR (R145): Writes two accumulator tile rows from a vector register and sets their valid bits. -/
  | accwr (g : CoreId)
  /-- VOP (R164): Performs the lane operation that FN selects under the mask. -/
  | vop (g : CoreId)
  /-- VCMP (R143): Compares lanes into a mask register. -/
  | vcmp (g : CoreId)
  /-- VSEL (R142): Selects lanes from two vectors by the mask. -/
  | vsel (g : CoreId)
  /-- VCURVE (R168): Evaluates a correctly rounded curve function on 64 lanes at quarter rate. -/
  | vcurve (g : CoreId)
  /-- VLD (R142): Loads 256 B from the operand cache into a vector register. `flips` as at SOP. -/
  | vld (g : CoreId) (flips : List SoftError)
  /-- VST (R142): Stores 256 B of a vector register to the operand cache under the mask. -/
  | vst (g : CoreId)
  /-- VBCAST (R142): Broadcasts a scalar to every lane. -/
  | vbcast (g : CoreId)
  /-- VEXT (R142): Extracts one lane into a scalar. -/
  | vext (g : CoreId)
  /-- VRED (R166): Reduces the selected lanes in a fixed tree into a scalar. -/
  | vred (g : CoreId)
  /-- VCVT (R143): Converts lane formats as FN selects. -/
  | vcvt (g : CoreId)
  /-- VQUANT (R147): Quantises or dequantises one row under a quantisation descriptor after its ordered checks. -/
  | vquant (g : CoreId)
  /-- MOP (R143): Performs the mask operation that FN selects. -/
  | mop (g : CoreId)
  /-- GATHER (R144): Starts an asynchronous indexed load into the operand cache. -/
  | gather (g : CoreId)
  /-- GATHER_DONE (R177): Every element of a GATHER has been written to the operand cache and the operation completes. -/
  | gatherDone (g : CoreId) (op : Nat)
  /-- SCATTER (R151): Stages an indexed store for COMMIT. -/
  | scatter (g : CoreId)
  /-- ATOM (R150): Starts asynchronous memory-side updates of indexed elements. -/
  | atom (g : CoreId)
  /-- ATOM_DONE (R180): Every ATOM update has been accepted by its memory controller. -/
  | atomDone (g : CoreId) (op : Nat)
  /-- WAITC (R148): Reads a bulk-memory counter and holds until its FN condition holds. -/
  | waitc (g : CoreId)
  /-- WAITC_POLL (R148): The waiting counter is re-read within 200 ns and the wait ends when the condition holds. -/
  | waitcPoll (g : CoreId)
  /-- WAIT_TIMEOUT (R148): A wait exceeds its limit, ends with its timeout code and raises WAIT_TIMEOUT. -/
  | waitTimeout (g : CoreId)
  /-- WAITT (R148): Holds the core until the time counter reaches a target. -/
  | waitt (g : CoreId)
  /-- WAITT_RELEASE (R148): The time counter reaches the WAITT target and the core is released. -/
  | waittRelease (g : CoreId)
  /-- TIME_LIMIT (R155): A tile running longer than TILE_TIME_LIMIT ends with cause TIME_LIMIT. -/
  | timeLimit (g : CoreId)
  /-- CODE_FLUSH (R159): Marks the resident image not resident from the next tile start or resume. -/
  | codeFlush (m : Master) (g : CoreId)
  /-- TASK_REQUEST (R186): An idle core asks its dispatcher, which gives the oldest pullable task of the highest priority. -/
  | taskRequest (g : CoreId)
  /-- TASK_ASK_RETRY (R186): Eight cycles after an empty answer the core asks again. -/
  | taskAskRetry (g : CoreId)
  /-- LIST_FETCH (R196): A dispatcher fetches a forwarded list into its store, checking each descriptor, and sends a barrier arrival when done. -/
  | listFetch (d : DieId)
  /-- STORE_ROOM_FETCH (R196): As store entries free up, the remainder of an overflowed list is fetched and becomes pullable on arrival. -/
  | storeRoomFetch (d : DieId)
  /-- TASK_DONE (R189): A normal completion report makes the dispatcher add one at the done counter and free the store entry. -/
  | taskDone (d : DieId)
  /-- DONE_ADD_ERROR (R189): A done-counter add that completes with a bus error records failure DONE_ERR. -/
  | doneAddError (d : DieId)
  /-- ABANDON_REPORT (R190): The dispatcher handles an abandoned tile by re-queueing it or recording its failure. -/
  | abandonReport (d : DieId)
  /-- TASK_FAIL_REPORT (R190): A bus-error completion report raises TASK_FAIL and records failure TASK_FAILED. -/
  | taskFailReport (d : DieId)
  /-- FAIL_POP (R208): Removes the oldest failure entry. -/
  | failPop (m : Master) (d : DieId)
  /-- WATCH_ARM (R192): A WATCH_ARM write arms a watch on a counter, firing at once if already at target. -/
  | watchArm (m : Master) (d : DieId) (counter target record reserved : BitVec 64)
  /-- SUBMIT (R210): A SUBMIT write releases the release record at the written address. -/
  | submit (m : Master) (d : DieId) (record : BitVec 64)
  /-- RELEASE_RECORD (R194): A release record read completes, sets the bell by its mode and forwards each die's list. -/
  | releaseRecord (d : DieId)
  /-- BELL_RING (R198): A ward's time copy reaches its ramp time and its pending tasks become pullable. -/
  | bellRing (w : WardId)
  /-- TIME_CORRECTION (R201): Once per microsecond each time copy is corrected from the time base. -/
  | timeCorrection (c : TimeCopy)
  /-- REFCLK_LOST (R203): On REFCLK failure the time base switches to the oscillator, sets HOLDOVER and raises REF_LOST. -/
  | refclkLost
  /-- REFCLK_RESTORED (R203): After REFCLK has run in range for 1 ms the time base returns to it. -/
  | refclkRestored
  /-- BARRIER_ARRIVE (R294): The group manager records a member's arrival and sends the bell once every working rank has arrived. -/
  | barrierArrive (pk : Packet)
  /-- BARRIER_BELL (R294): A member receives the bell of a barrier and fixes its release bell. -/
  | barrierBell (pk : Packet)
  /-- BARRIER_RESEND (R294): An unanswered arrival is resent every 100 us. -/
  | barrierResend (barrier : BitVec 16)
  /-- MEMORY_READ (R220): A read request is served at its channel with word and page correction or poisoning. -/
  | memoryRead (addr : BitVec 44) (len : Nat) (upsets : List Upset)
  /-- MEMORY_WRITE (R221): A write request is performed as a checked read-modify-write with page-code update. -/
  | memoryWrite (addr : BitVec 44) (data : List (BitVec 8)) (upsets : List Upset)
  /-- SCRUB_SLOT (R225): Scrub reads and checks one slot, writing back corrections and poisoning what it cannot correct. -/
  | scrubSlot (ch : ChanId) (upsets : List Upset)
  /-- ROW_REMAP (R228): A candidate row at the head of the queue is copied to a spare row and its remap entry installed. -/
  | rowRemap (spareFails : Bool)
  /-- PAGE_RETIRE (R229): A page is copied into a pool slot and redirected, or marked unbacked when the pool is empty. -/
  | pageRetire
  /-- CHANNEL_FAIL (R234): A channel failed in service gives bus errors for all its requests and records a pending re-plan. -/
  | channelFail (ch : ChanId)
  /-- MEMORY_ADDER_UPDATE (R236): A memory-side adder performs one indivisible update of an element and compares it with watches. -/
  | memoryAdderUpdate (fn : Fin 6) (addr : BitVec 44) (value : BitVec 64)
  /-- ADDR_PROBE (R248): A write of ADDR_PROBE decodes an address to channel, page, slot and bank. -/
  | addrProbe (m : Master) (probe : BitVec 64)
  /-- MR4_READ (R213): Every 32 ms MR4 is read to set the refresh rate. -/
  | mr4Read (ch : ChanId) (mr4 : BitVec 5)
  /-- CHANNEL_TRAINING (R214): Channel training ends at the first passing rate, or the channel is failed. -/
  | channelTraining (ch : ChanId) (rate : Option (Fin 3))
  /-- FILL_COMPLETE (R223): Every trained channel has been filled with zero data and matching codes. -/
  | fillComplete
  /-- SYSTEM_AREA_PERSIST (R365): A pending class P change is written to three channels of the system area within 100 ms. -/
  | systemAreaPersist
  /-- DATA_FRAME (R258): A received DATA frame is delivered in SEQ order or triggers NAK, and its header's ACK, credits and lane command are used. -/
  | dataFrame (p : PortId) (w : LaneWord)
  /-- IDLE_FRAME (R254): A received IDLE frame carries only header acknowledgement, credit and lane fields. -/
  | idleFrame (p : PortId) (w : LaneWord)
  /-- TIME_FRAME (R272): A received TIME frame yields a delay and offset measurement handed to the time base when upstream. -/
  | timeFrame (p : PortId) (w : LaneWord) (arrival : BitVec 64)
  /-- FRAME_DISCARD (R255): A frame with a bad codeword, marker, CRC or fields is discarded and counted. -/
  | frameDiscard (p : PortId) (w : LaneWord)
  /-- TIME_FRAME_TX (R272): Every TS_INTERVAL a port sends a TIME frame ahead of DATA. -/
  | timeFrameTx (p : PortId)
  /-- REPLAY_TIMEOUT (R258): With frames unacknowledged and no DATA sent for 8 us, the transmitter resends from ACK + 1. -/
  | replayTimeout (p : PortId)
  /-- SWAP (R260): A lane command replacing a map lane by a spare, answered with CMD_ACK. -/
  | swap (p : PortId) (lane : BitVec 4)
  /-- NARROW (R260): A lane command removing a lane from the map. -/
  | narrow (p : PortId) (lane : BitVec 4)
  /-- WIDEN (R260): A lane command appending a lane to the map. -/
  | widen (p : PortId) (lane : BitVec 4)
  /-- CMD_ACK (R260): The partner's acceptance of a lane command, fixing the boundary of the map change. -/
  | cmdAck (p : PortId)
  /-- LANE_MAP_CHANGE (R260): At the 16th codeword boundary after CMD_ACK the lane map changes. -/
  | laneMapChange (p : PortId) (dir : LinkDir)
  /-- PORT_ENABLE (R261): Writing ENABLE of a port starts training from LASER_CHECK or sends the port to OFF. -/
  | portEnable (m : Master) (p : PortId) (on : Bool)
  /-- LASER_CHECK_PASS (R261): Laser power at or above 15.0 dBm for 1 ms moves the port to LANE_TRAIN. -/
  | laserCheckPass (p : PortId)
  /-- LASER_RECHECK (R261): With laser power low, LASER_LOW is raised and the check repeats every 1 s. -/
  | laserRecheck (p : PortId)
  /-- LANE_TRAIN_DONE (R261): Lanes have locked and adapted, and the port moves to ALIGN. -/
  | laneTrainDone (p : PortId) (txGood rxGood : BitVec 9)
  /-- ALIGN_DONE (R261): Lanes are deskewed and the maps chosen, and the port moves to PARAM. -/
  | alignDone (p : PortId) (partnerMap : List (BitVec 4))
  /-- PARAM_FRAME (R261): A PARAM exchange frame gives partner identity, shares and SEQ base, moving to TIME_CAL or holding on a self link. -/
  | paramFrame (p : PortId) (partner : Partner)
  /-- DOWN_RETRY (R261): One second after entering DOWN with ENABLE = 1 the port returns to LASER_CHECK. -/
  | downRetry (p : PortId)
  /-- TRAIN_STATE_TIMEOUT (R269): A training state held beyond its limit sends the port to DOWN. -/
  | trainStateTimeout (p : PortId)
  /-- RETRAIN (R262): A write of RETRAIN retrains an ACTIVE port keeping replay buffer and SEQ. -/
  | retrain (m : Master) (p : PortId)
  /-- PORT_RESET (R274): A port reset returns frames, resets V fields and restarts per ENABLE. -/
  | portReset (m : Master) (p : PortId)
  /-- PORT_REPLAN (R267): Starts a margin re-plan of the port, retuning each lane through the spare position. -/
  | portReplan (m : Master) (p : PortId)
  /-- LANE_WINDOW (R264): At the end of each 1 ms window lane error ratios are judged and degraded lanes queued for SWAP. -/
  | laneWindow (p : PortId) (ratios : List LaneRatio)
  /-- LANE_HARD_FAIL (R264): Loss of signal or lock narrows the lane out at once and marks it dead. -/
  | laneHardFail (p : PortId) (lane : Fin 9)
  /-- LANE_BRING_IN (R265): A queued SWAP or WIDEN reaches the head of the class queue and runs. -/
  | laneBringIn
  /-- LASER_LOSS (R268): Laser input below 15.0 dBm in ACTIVE fails every lane and sends the port to DOWN. -/
  | laserLoss (p : PortId)
  /-- LASER_PWR_SAMPLE (R250): Every 10 us the port measures its laser input power. -/
  | laserPwrSample (p : PortId) (power : BitVec 16)
  /-- RD_REQ (R283): A remote read request is served from bulk memory or refused with ERR_RESP. -/
  | rdReq (pk : Packet)
  /-- WR_REQ (R283): A remote write is applied once per MSG_ID and acknowledged after acceptance. -/
  | wrReq (pk : Packet)
  /-- RD_RESP (R284): Read data completes the source's outstanding read. -/
  | rdResp (pk : Packet)
  /-- WR_ACK (R284): A write acknowledgement completes the source's outstanding write. -/
  | wrAck (pk : Packet)
  /-- ERR_RESP (R283): A refusal ends the source access with a bus error. -/
  | errResp (pk : Packet)
  /-- PACKET_FORWARD (R287): A transit module routes a packet by partner, primary or alternate port and decrements TTL. -/
  | packetForward (pk : Packet)
  /-- MSG_TIMEOUT (R284): A message without response within MSG_TIMEOUT is resent, or fails after RETRY resends or 8 ms. -/
  | msgTimeout (die : DieId) (msgId : BitVec 32)
  /-- COLL_ARM (R297): A COLL_ARM write makes the fabric unit read, check and arm a collective descriptor. -/
  | collArm (m : Master) (desc : BitVec 64)
  /-- COLL_START (R298): A collective whose start counter reached its target starts in arming order and sends COLL_READY. -/
  | collStart
  /-- COLL_READY (R298): A peer's handshake, grant or abort notice is compared by digest and lets data flow or ends the collective. -/
  | collReady (pk : Packet)
  /-- COLL_DATA (R303): Collective stream bytes are reduced or written once at the receiver and acknowledged. -/
  | collData (pk : Packet)
  /-- COLL_ACK (R304): Acknowledges a COLL_DATA at the sender. -/
  | collAck (pk : Packet)
  /-- COLL_END (R302): A member's part ends: the status record is written and, on DONE only, the done counter is added. -/
  | collEnd (coll : BitVec 16)
  /-- COLL_ABORT (R312): Ends every armed and running collective with ABORTED_CMD. -/
  | collAbort (m : Master)
  /-- EXCH_COUNT (R306): Route counts from a source are taken and, once all are in, admission is decided. -/
  | exchCount (pk : Packet)
  /-- EXCH_ADMIT (R306): Admitted counts let the source send admitted rows and mark the rest in DROP. -/
  | exchAdmit (pk : Packet)
  /-- EXCH_DATA (R307): Exchange rows are packed densely by expert at the receiver. -/
  | exchData (pk : Packet)
  /-- EXCH_RETURN (R308): Returned rows are placed or gate-weighted into the token's output. -/
  | exchReturn (pk : Packet)
  /-- JOIN (R291): Starts a join by sending JOIN_REQ toward the group manager. -/
  | join (m : Master)
  /-- JOIN_RETRY (R291): An unanswered JOIN_REQ is repeated every 10 ms. -/
  | joinRetry
  /-- JOIN_REQ (R291): The group manager accepts or refuses a join, or a member forwards it. -/
  | joinReq (pk : Packet)
  /-- JOIN_RESP (R291): A joining module takes its rank or records a refusal. -/
  | joinResp (pk : Packet)
  /-- JOIN_OPEN (R290): Setting JOIN_OPEN on the group manager accepts joins, setting the epoch to 1 the first time. -/
  | joinOpen (m : Master) (on : Bool)
  /-- MEMBER_UPDATE (R293): A membership update is assembled and scheduled for its bell, or MEMBER_SYNC is sent on an epoch gap. -/
  | memberUpdate (pk : Packet)
  /-- MEMBER_SYNC (R293): The group manager answers with a full MEMBER_UPDATE. -/
  | memberSync (pk : Packet)
  /-- EPOCH_APPLY (R293): At the update bell the new epoch takes effect and affected collectives abort. -/
  | epochApply
  /-- HEARTBEAT (R292): A heartbeat is received, carrying port reports after link changes. -/
  | heartbeat (pk : Packet)
  /-- HEARTBEAT_TX (R292): Every HB_INTERVAL a heartbeat is sent. -/
  | heartbeatTx
  /-- MEMBER_LOST (R292): HB_MISS intervals without a member's heartbeat mark it FAILED at the next epoch. -/
  | memberLost (rank : Fin 16640)
  /-- GM_LOST (R292): HB_MISS intervals without the group manager's heartbeat raise GM_LOST. -/
  | gmLost
  /-- ROUTE (R313): A ROUTE write sets a route entry in all four tables or selects one. -/
  | route (m : Master) (word0 word1 : BitVec 32)
  /-- RANKSET (R316): A RANKSET write defines a rank set from a list in bulk memory. -/
  | rankset (m : Master) (word0 word1 word2 word3 : BitVec 32)
  /-- LEDGER_ARM (R327): A LEDGER_ARM write reads, checks and arms a ledger check. -/
  | ledgerArm (m : Master) (d : DieId) (record : BitVec 64)
  /-- LEDGER_CHECK_RUN (R328): When the start condition holds the check compares ledgers, writes its result and adds to the gate on MATCH. -/
  | ledgerCheckRun (d : DieId)
  /-- GATE_ADD (R337): A GATE_ADD write applies an INT64 add of +1 at the address through the adder. -/
  | gateAdd (m : Master) (d : DieId) (gate : BitVec 64)
  /-- UPD_ARM (R343): An UPD_ARM write reads and checks an update descriptor and state record and arms the update. -/
  | updArm (m : Master) (d : DieId) (desc : BitVec 64)
  /-- UPDATE_PREPARE (R347): The oldest armed update whose start counter is reached runs its prepare phase. -/
  | updatePrepare (d : DieId)
  /-- SUBSHARD_COMMIT (R351): A sub-shard image is computed, committed by three record copies and copied home. -/
  | subshardCommit (d : DieId)
  /-- OWED_RECHECK (R353): Every 10 us a commit waiting on an owed shard re-reads OWED_CLUTCH and STREAMED_CLUTCH. -/
  | owedRecheck (d : DieId)
  /-- UPD_ABORT (R357): Ends armed updates ABORTED and the running one at its next sub-shard boundary. -/
  | updAbort (m : Master) (d : DieId)
  /-- UPD_RESUME (R356): Restarts the journal and continues a held update from its logged sub-shard. -/
  | updResume (m : Master) (d : DieId)
  /-- UPD_DISCARD (R356): Drops the log of a held update, leaving the shard mixed. -/
  | updDiscard (m : Master) (d : DieId)
  /-- TRIGGER (R371): Requests a clutch at the next step boundary on the group manager. -/
  | trigger (m : Master)
  /-- CLUTCH_PERIOD_EXPIRY (R371): CLUTCH_PERIOD seconds after the last capture bell a clutch is requested. -/
  | clutchPeriodExpiry
  /-- RISK (R371): A member's risk report may start a clutch or is counted as denied. -/
  | risk (pk : Packet)
  /-- CLUTCH_START (R377): A member takes the clutch number, k, stride, capture barrier and later U. -/
  | clutchStart (pk : Packet)
  /-- CAPTURE_BELL (R372): At the capture bell OWED_CLUTCH is written on every shard and UNIT_COUNT is sent. -/
  | captureBell
  /-- SHARD_STREAM (R372): A shard's planes are read out whole into the clutch stream and STREAMED_CLUTCH is written. -/
  | shardStream
  /-- UNIT_P (R375): A P contribution is added into the holder's accumulator and the parity unit written when complete. -/
  | unitP (pk : Packet)
  /-- UNIT_Q (R375): A Q contribution is added into the holder's accumulator and the parity unit written when complete. -/
  | unitQ (pk : Packet)
  /-- UNIT_COUNT (R377): The group manager fixes U from unit counts or aborts on NO_ROOM. -/
  | unitCount (pk : Packet)
  /-- SECURED (R376): The group manager records a member secured and sends CLUTCH_COMMIT when all have reported. -/
  | secured (pk : Packet)
  /-- CLUTCH_COMMIT (R376): A member marks the clutch SECURED or DEGRADED and releases the oldest retained clutch. -/
  | clutchCommit (pk : Packet)
  /-- CLUTCH_ABORT (R379): A member ends the clutch FAILED with its reason and frees its units. -/
  | clutchAbort (pk : Packet)
  /-- CAPTURE_ABORT (R379): Ends the capturing clutch as for a lost member. -/
  | captureAbort (m : Master)
  /-- RESTORE (R382): On the group manager starts a restore by sending RESTORE_START. -/
  | restore (m : Master)
  /-- RESTORE_START (R382): A member takes the clutch, bell and rebuild assignments of a restore. -/
  | restoreStart (pk : Packet)
  /-- RESTORE_BELL (R382): At the restore bell a member quiesces, resets its dies, restores state and tables and sets the generator. -/
  | restoreBell
  /-- REBUILD_REQ (R385): A contributor takes its coefficient and chain place for a rebuilt unit. -/
  | rebuildReq (pk : Packet)
  /-- REBUILD_PART (R385): A running sum is scaled, added and passed along the chain to the new holder. -/
  | rebuildPart (pk : Packet)
  /-- RESTORE_DONE (R382): The group manager collects restore results and arms the next step barrier when all are DONE. -/
  | restoreDone (pk : Packet)
  /-- RESTORE_ABORT (R394): Ends the restore ABORTED. -/
  | restoreAbort (m : Master)
  /-- REPROTECT (R386): After a takeover the new holder rebuilds the lost rank's units in the background until clutches return to SECURED. -/
  | reprotect
  /-- GM_WAIT_EXPIRY (R388): GM_WAIT seconds after GM_LOST Fethaum ends the job and waits for JOIN. -/
  | gmWaitExpiry
  /-- EXPORT (R390): Sends this member's clutch stream over the management session. -/
  | exportClutch (m : Master)
  /-- IMPORT (R391): Takes an exported stream and writes its records as a restore. -/
  | importClutch (m : Master)
  /-- XFER_ABORT (R394): Ends the export or import with XFER_FAILED. -/
  | xferAbort (m : Master)
  /-- FLASH_REFRESH (R367): A block that is old or needed many corrections is rewritten. -/
  | flashRefresh (die : FlashDie) (block : Fin 9936) (why : RefreshCause)
  /-- WEAR_LEVEL (R366): In idle time the least-erased block's data move to the most-erased free block. -/
  | wearLevel (die : FlashDie)
  /-- BLOCK_RETIRE (R368): A failing flash block is copied to a spare and retired, or the store goes read-only. -/
  | blockRetire (die : FlashDie) (block : Fin 9936) (why : RetireCause) (readable : Bool)
  /-- FLASH_DIE_FAIL (R369): A flash die, bus or channel that stops answering is failed and its units lost. -/
  | flashDieFail (die : FlashDie)
  /-- FREQ_STEP (R399): At a frequency bell every ward's generator changes period to the new group frequency. -/
  | freqStep
  /-- DROOP_TRIP (R400): A supply droop detector trip stretches the current period or takes the droop request. -/
  | droopTrip (w : WardId)
  /-- DROOP_REQUEST (R400): Eight consecutive stretched cycles make the skipper take a droop request of 8/16. -/
  | droopRequest (w : WardId)
  /-- DROOP_RELEASE (R400): After 1 us above the trip level the droop request is withdrawn. -/
  | droopRelease (w : WardId)
  /-- MARGIN_WINDOW (R405): Every 1 ms the replica paths are swept and the margin reading judged. -/
  | marginWindow (dom : MarginDomain) (readings : List (Option (BitVec 8)))
  /-- PLL_LOCK_LOSS (R398): A PLL losing lock stops its domain as a domain failure. -/
  | pllLockLoss (dom : Fin 74)
  /-- REPLAN (R418): Requests a margin re-plan of the worker die. -/
  | replan (m : Master) (d : DieId)
  /-- REPLAN_TIMER (R409): REPLAN_DAYS after the last re-plan, or 10 s after power-on or module reset, a re-plan starts. -/
  | replanTimer (d : DieId)
  /-- REPLAN_STEP_DONE (R409): A re-plan measurement or retraining step completes and the next begins. -/
  | replanStepDone (d : DieId) (r : ReplanReading)
  /-- PMBUS_POLL (R420): Every 10 ms each rail's PMBus telemetry and status are polled. -/
  | pmbusPoll (rail : Fin 38) (t : RailTelemetry)
  /-- PHASE_BRING_IN (R421): A spare phase is brought in when the class is free. -/
  | phaseBringIn
  /-- POWER_MEASURE (R423): Every 10 us input power is compared with P_LIM and the cap request set or lowered. -/
  | powerMeasure (watts : Nat)
  /-- CAP_RAISE (R423): Every 100 us under 0.95 x P_LIM the cap request rises by 1/16. -/
  | capRaise
  /-- POWER_LIMIT_ASSERT (R424): POWER_LIMIT_L falling puts PL_DUTY in force and raises CAP_LOCAL. -/
  | powerLimitAssert
  /-- POWER_LIMIT_RELEASE (R424): POWER_LIMIT_L rising withdraws the PL_DUTY request. -/
  | powerLimitRelease
  /-- F_ALLOW_UPDATE (R425): Every 1 ms F_ALLOW is recomputed and a POWER packet sent on change. -/
  | fAllowUpdate
  /-- ALLOW (R426): The group manager takes a member's F_ALLOW and lowers the group frequency at once if it is the new least. -/
  | allow (pk : Packet)
  /-- CAP (R426): The group manager takes a capped member's F_ALLOW as for ALLOW. -/
  | cap (pk : Packet)
  /-- FREQ_RAISE_HOLD (R426): The least F_ALLOW held above the current code for FREQ_HOLD sends a raising FREQ_SET. -/
  | freqRaiseHold
  /-- FREQ_SET (R427): A member schedules the new group code at its bell, raising the rail first when stepping up. -/
  | freqSet (pk : Packet)
  /-- VOLT_LATE (R427): A rail not confirmed 100 us before the bell keeps its die at the old code and raises VOLT_LATE. -/
  | voltLate (d : DieId)
  /-- SUPPLY_DIP (R430): The input falling below 42 V imposes 4/16 duty and raises SUPPLY_WARN. -/
  | supplyDip (decivolts : Nat)
  /-- SUPPLY_RESET (R430): The input falling below 36 V asserts a module reset. -/
  | supplyReset
  /-- SUPPLY_RECOVER (R431): After 1 ms above 44 V the warning ends and SUPPLY_OK is raised. -/
  | supplyRecover
  /-- SUPPLY_HIGH (R431): An input above 60 V raises SUPPLY_HIGH. -/
  | supplyHigh (decivolts : Nat)
  /-- THERMISTOR_READ (R433): Every 100 ms the inlet and outlet thermistors are read. -/
  | thermistorRead (inlet outlet : ThermReading)
  /-- FLOW_AVERAGE (R434): Each second the flow is formed from averaged pulse periods. -/
  | flowAverage (milliHz : Nat)
  /-- INLET_HOT_TIMEOUT (R432): Inlet at 55 C or above for 10 s puts the module in standby. -/
  | inletHotTimeout
  /-- FLOW_LOW_TIMEOUT (R432): Flow below 1.0 L/min for 5 s raises FLOW_LOW. -/
  | flowLowTimeout
  /-- FLOW_PULSE_TIMEOUT (R432): No flow pulse for 2 s raises FLOW_LOST and sets the flow term to 400 W. -/
  | flowPulseTimeout
  /-- FLOW_RESTORED (R432): Flow at or above 1.0 L/min for 10 s ends FLOW_LOST. -/
  | flowRestored
  /-- HEAT_BALANCE_CHECK (R435): Every 10 s coolant heat is compared with input power. -/
  | heatBalanceCheck (watts : Nat)
  /-- SENSOR_PASS (R436): Every 10 us each ward takes its hottest junction sensor and judges throttle and trip. -/
  | sensorPass (w : WardId) (temps : List Int)
  /-- THERMAL_LOWER (R436): Every 100 us at or above T_THROTTLE the thermal request falls by 1/16. -/
  | thermalLower (w : WardId)
  /-- THERMAL_RAISE (R436): Every 1 ms below T_THROTTLE - 3 C the thermal request rises by 1/16. -/
  | thermalRaise (w : WardId)
  /-- TRIP_SLEEP (R437): Within 10 ms of a trip the manager puts the die into die sleep. -/
  | tripSleep (d : DieId)
  /-- TRIP_WAKE (R437): One second after a trip the die wakes at 1/16, unless held after three trips. -/
  | tripWake (d : DieId) (lost : List (Nat × Nat))
  /-- BACKSTOP_CUT (R437): At 110 C or a late sleep the die's core and fabric rails are cut. -/
  | backstopCut (d : DieId) (hot : Bool)
  /-- TRIP_CLEAR (R445): Wakes the dies held after three trips. -/
  | tripClear (m : Master)
  /-- ROTATION_ADVANCE (R438): Each ROT_PERIOD the throttled ward pair advances and hot rotations lower the die. -/
  | rotationAdvance (d : DieId)
  /-- THERMAL_F_LOWER (R439): Each 100 ms of sustained throttling lowers F_ALLOW by one code. -/
  | thermalFLower
  /-- THERMAL_F_RETURN (R439): Each second without throttling returns one code to F_ALLOW. -/
  | thermalFReturn
  /-- FENCE (R467): A FENCE write fences a core with cause COMMAND or returns it through self-test. -/
  | fence (m : Master) (word0 word1 : BitVec 32)
  /-- CORE_BRING_IN (R452): A queued core request chooses a spare and starts its self-test. -/
  | coreBringIn
  /-- SELF_TEST_DONE (R535): A core self-test ends, putting it in service or spare, or fencing it and trying the next spare. -/
  | selfTestDone (g : CoreId) (passed : Bool)
  /-- ROW_SPARE_REPLACE (R454): After the tile ends, a candidate SRAM row is copied to a spare and redirected. -/
  | rowSpareReplace (g : CoreId)
  /-- MGR_WATCHDOG (R455): A missed 100 ms watchdog fences a manager core and raises MGR_CORE_LOST. -/
  | mgrWatchdog (mc : MgrCore)
  /-- MGR_SPARE_START (R455): A spare manager core is started and placed in service. -/
  | mgrSpareStart
  /-- HEALTH_TICK (R458): Every second input scores decay and add events and the risk estimate is updated. -/
  | healthTick
  /-- DOWNTIME_PERSIST (R464): Every 60 s the downtime counts are persisted. -/
  | downtimePersist
  /-- OPEN (R476): An OPEN binds a new session or is refused BUSY. -/
  | openSession (o : OpenMsg)
  /-- CLOSE (R476): A CLOSE ends the session. -/
  | closeSession (h : MsgHdr) (payload : List (BitVec 8))
  /-- KEEPALIVE (R475): A KEEPALIVE carries an acknowledgement and keeps the session alive. -/
  | keepalive (h : MsgHdr)
  /-- DATA (R479): A DATA message is taken on its channel for upload, ingest or import. -/
  | dataMsg (h : MsgHdr) (payload : List (BitVec 8))
  /-- DATAGRAM_BAD (R474): A malformed or misdirected message is dropped or discarded, counted and raises MSG_BAD. -/
  | datagramBad (b : BadDatagram)
  /-- COMMAND_UNKNOWN (R477): A COMMAND with a reserved opcode is answered UNKNOWN. -/
  | commandUnknown (c : CmdMsg) (opcode : BitVec 16)
  /-- GET_INFO (R532): Returns module state, straps, identifier, version and image slot. -/
  | getInfo (c : CmdMsg)
  /-- REG_READ (R478): Reads a register in class X. -/
  | regRead (c : CmdMsg)
  /-- REG_WRITE (R478): Writes a register in class X. -/
  | regWrite (c : CmdMsg)
  /-- MBX_READ (R532): Reads a mailbox value in class X. -/
  | mbxRead (c : CmdMsg)
  /-- MBX_WRITE (R532): Writes a mailbox value in class X. -/
  | mbxWrite (c : CmdMsg)
  /-- REG_READ_K (R470): Reads a register in class K. -/
  | regReadK (c : CmdMsg)
  /-- REG_WRITE_K (R470): Writes a register in class K, refusing GP fields while the window is closed. -/
  | regWriteK (c : CmdMsg)
  /-- MBX_READ_K (R470): Reads a mailbox value in class K. -/
  | mbxReadK (c : CmdMsg)
  /-- MBX_WRITE_K (R470): Writes a mailbox value in class K. -/
  | mbxWriteK (c : CmdMsg)
  /-- JOB_LOAD (R480): Opens a bundle upload of the given length and CRC on channel 1. -/
  | jobLoad (c : CmdMsg)
  /-- BUNDLE_COMPLETE (R480): A fully received bundle is checked and loaded or refused. -/
  | bundleComplete
  /-- JOB_START (R480): Starts the loaded job, writing REGS and running the plan. -/
  | jobStart (c : CmdMsg)
  /-- JOB_STOP (R478): Ends the plan, aborts collectives and updates and disables the dispatchers. -/
  | jobStop (c : CmdMsg)
  /-- PLAN_STEP (R483): When STEP_CTR reaches its target Fethaum writes RNG_STEP and performs the step's actions. -/
  | planStep
  /-- NET_CONFIG (R532): Sets UDP port, IP flags, address, prefix and idle time after the response. -/
  | netConfig (c : CmdMsg)
  /-- TELEMETRY_SET (R478): Sets or stops the telemetry period. -/
  | telemetrySet (c : CmdMsg)
  /-- TELEMETRY_TX (R485): Each telemetry period a TELEMETRY record is sent. -/
  | telemetryTx
  /-- INGEST_OPEN (R484): Names the ingest ring and counters for the channel 2 stream. -/
  | ingestOpen (c : CmdMsg)
  /-- EVENTS_FROM (R486): Restarts event notifications from a given SEQ. -/
  | eventsFrom (c : CmdMsg)
  /-- SESSION_RESEND (R475): Unacknowledged messages are resent 50 ms after the last send, ending the session after 20. -/
  | sessionResend
  /-- ACK_KEEPALIVE (R475): A delivered message not otherwise acknowledged within 10 ms gets a KEEPALIVE. -/
  | ackKeepalive
  /-- KEEPALIVE_TX (R476): The module sends a KEEPALIVE every 1 s while idle. -/
  | keepaliveTx
  /-- SESSION_IDLE_TIMEOUT (R476): SESSION_IDLE seconds without a peer message end the session with CLOSE. -/
  | sessionIdleTimeout
  /-- DIE_SLEEP_CMD (R478): Puts the masked worker dies into die sleep. -/
  | dieSleepCmd (c : CmdMsg)
  /-- DIE_WAKE_CMD (R478): Wakes the masked worker dies. -/
  | dieWakeCmd (c : CmdMsg) (lost : List (Nat × Nat))
  /-- STANDBY_CMD (R478): Enters module standby. -/
  | standbyCmd (c : CmdMsg)
  /-- WAKE_CMD (R478): Leaves module standby. -/
  | wakeCmd (c : CmdMsg) (lost : List (Nat × Nat))
  /-- RESET (R491): Performs a warm or module reset after the response. -/
  | reset (c : CmdMsg)
  /-- EXPORT_CMD (R390): Starts export of a clutch stream on channel 3. -/
  | exportCmd (c : CmdMsg)
  /-- IMPORT_CMD (R391): Starts import of a clutch stream on channel 4. -/
  | importCmd (c : CmdMsg)
  /-- CLUTCH (R478): Triggers, aborts or restores clutches on the group manager. -/
  | clutch (c : CmdMsg)
  /-- ATTEST (R506): Starts building a signed quote over a nonce. -/
  | attest (c : CmdMsg)
  /-- QUOTE_READY (R506): The signature of the quote completes and the quote becomes readable. -/
  | quoteReady
  /-- QUOTE_READ (R510): Returns up to 1,024 B of the latest quote. -/
  | quoteRead (c : CmdMsg)
  /-- CERT_READ (R510): Returns up to 1,024 B of a certificate. -/
  | certRead (c : CmdMsg)
  /-- IMAGE_BEGIN (R504): Marks a slot WRITING and opens an image upload. -/
  | imageBegin (c : CmdMsg)
  /-- IMAGE_COMMIT (R501): Verifies the uploaded image and marks the slot VALID or INVALID. -/
  | imageCommit (c : CmdMsg)
  /-- IMAGE_ERASE (R504): Erases an image slot. -/
  | imageErase (c : CmdMsg)
  /-- SVN_COMMIT_CMD (R503): Raises SVN_FUSE to the running SVN by command. -/
  | svnCommitCmd (c : CmdMsg)
  /-- PRESENCE_STATUS (R510): Returns the seconds left in the presence window and the jumper state. -/
  | presenceStatus (c : CmdMsg)
  /-- DEBUG_ACCESS (R509): Halts, resumes, reads or writes a manager core through the debug module when debug is enabled. -/
  | debugAccess (c : CmdMsg)
  /-- SVN_COMMIT (R503): Blows fuses to set SVN_FUSE to SVN_RUNNING and invalidates older slots. -/
  | svnCommit (m : Master)
  /-- ERASE_A (R504): Erases image slot A. -/
  | eraseA (m : Master)
  /-- ERASE_B (R504): Erases image slot B. -/
  | eraseB (m : Master)
  /-- PRESENCE_CLOSE (R508): Ends a presence window opened by the button. -/
  | presenceClose (m : Master)
  /-- PRESENCE_PRESS (R508): A PRESENCE_BTN low for 50 ms opens or restarts the 300 s window. -/
  | presencePress
  /-- PRESENCE_EXPIRY (R508): 300 s after the last press the window closes and PRESENCE_CLOSED is raised. -/
  | presenceExpiry
  /-- PIN_SAMPLE (R529): Every 10 ms the always-on domain samples live pins, jumper and seal. -/
  | pinSample (pins : PinLevels)
  /-- SEAL_BREAK (R509): A seal loop open for 10 ms or at power-on blows SEAL_BROKEN and enables debug. -/
  | sealBreak
  /-- SMBUS_READ (R487): A sideband read transaction returns a snapshot value, NACKing writes and undefined codes. -/
  | smbusRead (code : BitVec 8) (write : Bool) (pec : Bool)
  /-- SMBUS_REFRESH (R487): Every 100 ms the sideband values are refreshed. -/
  | smbusRefresh
  /-- POWER_ON (R490): After 1 ms above 44 V the module samples straps, boots, loads the system area, powers and trains the dies. -/
  | powerOn (straps : BitVec 12)
  /-- CORE_RELEASE (R490): After fill and calibration, cores are self-tested and released and MODULE_STATE becomes READY. -/
  | coreRelease (failed : List (Fin 1216))
  /-- RESET_L_LOW (R491): RESET_L held low for 1 us or more holds the module in module reset. -/
  | resetLLow (ns : Nat)
  /-- MODULE_RESET (R491): Starts a module reset. -/
  | moduleReset (m : Master)
  /-- WARM_RESET (R491): Starts a warm reset keeping bulk memory and applying a pending re-plan. -/
  | warmReset (m : Master)
  /-- DIE_SLEEP (R492): Puts a worker die into die sleep, saving its W-class state and abandoning tiles. -/
  | dieSleep (m : Master) (d : DieId)
  /-- DIE_WAKE (R493): Wakes a die, recalibrating time, restoring W state, re-arming watches and re-running the journal. `lost` names what its restore fails for: a page with a register offset, or with 0x1000 + VALUE_ID of a mailbox value (R14). -/
  | dieWake (m : Master) (d : DieId) (lost : List (Nat × Nat))
  /-- STANDBY (R492): Enters module standby with all dies in die sleep. -/
  | standby (m : Master)
  /-- WAKE (R492): Leaves module standby, waking every die in order. -/
  | wake (m : Master) (lost : List (Nat × Nat))
  /-- WARD_NAP (R492): A ward idle for NAP_DELAY enters ward nap. -/
  | wardNap (w : WardId)
  /-- WARD_WAKE (R492): A napping ward is woken for a pullable task or 2 us before a ramp time. -/
  | wardWake (w : WardId)
  /-- MGMT_LOS (R518): MGMT_LOS held high for 100 us takes the management link down. -/
  | mgmtLos
  /-- RESET_L_RELEASE (R491): RESET_L rising after a module reset ends the reset and restarts boot. -/
  | resetLRelease (straps : BitVec 12)
  /-- PCS_BLOCK_LOCK (R497): The management port's PCS gains or loses block lock, raising LINK_UP or LINK_DOWN on page 0x010. -/
  | pcsBlockLock (locked : Bool)
  /-- RAIL_CONFIRMED (R427): An AVS rail slewing to a new V_op is confirmed, letting a die held at the old code after VOLT_LATE step to the group frequency. -/
  | railConfirmed (d : DieId)
  /-- UNIT_WRITTEN (R376): The programming of a member's own clutch units and held parity units to flash completes, and the member sends SECURED. -/
  | unitWritten (lost : List (Nat × Nat))
  /-- MGR_CACHE_UE (R455): An uncorrectable error in a manager core's caches or register file fences that core and raises MGR_CORE_LOST. -/
  | mgrCacheUe (mc : MgrCore)
  /-- CORE_HANG (R451): A core not idle 1 ms after an abandonment is fenced with cause HANG. -/
  | coreHang (g : CoreId)
  /-- MANAGER_DIE_TRIP (R437): A manager-die junction sensor at 105 C or more puts the module into module standby. -/
  | managerDieTrip (celsius : Int)
  /-- ICMP_ECHO (R472): An ARP, IPv6 neighbour-discovery or ICMP echo request arrives on the management port and is answered. -/
  | icmpEcho (q : EchoReq)
  /-- DHCPV4 (R472): A DHCPv4 reply arrives and assigns or renews the module's IPv4 address when IP4_DHCP = 1. -/
  | dhcpv4 (lease : BitVec 32) (prefixLen : BitVec 6)
  deriving DecidableEq, Repr

end Sys2Proof
end

