-- ==== Sys2Proof/Decode.lean ====
section
/-!
DEFINITION. Decoding. The operation table gives no row any bits, so no word spells a command (log 1). The module's own
tile instructions do have an encoding (R140 to R144): their decoder, its encoder and the check of R141 stand here.
-/

namespace Sys2Proof

/-- No row of the operation table has bits, so no word spells a command (log 1). -/
def decodeTableWord (_nbits _w : Nat) : Option Instr := none

/-- A tile instruction split into the fields of format A or format L (R140). -/
inductive TileWord where
  | fmtA (op : BitVec 8) (d a b c : BitVec 5) (mk : BitVec 3) (mz : BitVec 1) (fn : BitVec 8) (imm : BitVec 24)
  | fmtL (op : BitVec 8) (d a : BitVec 5) (fn : BitVec 6) (imm : BitVec 40)
  deriving DecidableEq, Repr

/-- Whether an opcode uses format L (R142). -/
def opIsL (op : BitVec 8) : Bool :=
  op == 0x10 || op == 0x11 || op == 0x12 || op == 0x14 || op == 0x15

/-- The opcode of a tile instruction. -/
def TileWord.op : TileWord → BitVec 8
  | .fmtA op _ _ _ _ _ _ _ _ => op
  | .fmtL op _ _ _ _ => op

/-- Split a 64-bit tile instruction (R140). -/
def decodeTile (w : Dword) : TileWord :=
  let op := w.extractLsb' 56 8
  if opIsL op then .fmtL op (w.extractLsb' 51 5) (w.extractLsb' 46 5) (w.extractLsb' 40 6) (w.extractLsb' 0 40)
  else .fmtA op (w.extractLsb' 51 5) (w.extractLsb' 46 5) (w.extractLsb' 41 5) (w.extractLsb' 36 5)
    (w.extractLsb' 33 3) (w.extractLsb' 32 1) (w.extractLsb' 24 8) (w.extractLsb' 0 24)

/-- Join the fields of a tile instruction (R140). -/
def encodeTile : TileWord → Dword
  | .fmtA op d a b c mk mz fn imm => op ++ d ++ a ++ b ++ c ++ mk ++ mz ++ fn ++ imm
  | .fmtL op d a fn imm => op ++ d ++ a ++ fn ++ imm

/-- The format of a split word is its opcode's. -/
def TileWord.formatOk : TileWord → Bool
  | .fmtA op _ _ _ _ _ _ _ _ => !(opIsL op)
  | .fmtL op _ _ _ _ => opIsL op

/-- Opcodes that R142 lists. -/
def tileOpListed (op : BitVec 8) : Bool :=
  let n := op.toNat
  decide (n ≤ 0x07) || (decide (0x10 ≤ n) && decide (n ≤ 0x18)) || (decide (0x20 ≤ n) && decide (n ≤ 0x23))
    || (decide (0x30 ≤ n) && decide (n ≤ 0x33)) || (decide (0x40 ≤ n) && decide (n ≤ 0x4B))
    || (decide (0x50 ≤ n) && decide (n ≤ 0x52)) || decide (n = 0x60) || decide (n = 0x61)

/-- How a register field may be used: unused (must be zero), any of 32 registers, a mask register 0 to 7, or the
first of a scalar pair S(c), S(c + 1) with c from 1 to 30 (R140, R143). -/
inductive RegUse where
  | none | any | mask | pair
  deriving DecidableEq, Repr

/-- Whether a field value obeys its use. -/
def RegUse.ok (u : RegUse) (r : BitVec 5) : Bool :=
  match u with
  | .none => r == 0
  | .any => true
  | .mask => decide (r.toNat ≤ 7)
  | .pair => decide (1 ≤ r.toNat) && decide (r.toNat ≤ 30)

/-- What a format-A instruction with its FN allows in its fields: D, A, B, C, whether MK and MZ have a use, and the
bits of IMM it uses (R140, R142 to R144, R163). -/
structure FormA where
  d : RegUse
  a : RegUse
  b : RegUse
  c : RegUse
  useMk : Bool
  useMz : Bool
  imm : BitVec 24
  deriving DecidableEq, Repr

/-- A form without masks. -/
def formPlain (d a b c : RegUse) (imm : BitVec 24) : FormA := ⟨d, a, b, c, false, false, imm⟩

/-- The form of a VOP code; none where the code is reserved (R143). -/
def formVop (fn : Nat) : Option FormA :=
  if fn = 3 then some ⟨.any, .any, .any, .any, true, true, 0⟩
  else if fn = 6 || fn = 7 || fn = 32 then some ⟨.any, .any, .none, .none, true, true, 0⟩
  else if fn = 33 then some ⟨.any, .none, .none, .none, true, true, 0⟩
  else if fn < 6 || (16 ≤ fn && fn ≤ 28) || fn = 34 then some ⟨.any, .any, .any, .none, true, true, 0⟩
  else none

/-- The form of a VCVT code (R143). -/
def formVcvt (fn : Nat) : Option FormA :=
  if fn = 0 then some (formPlain .any .any .any .none 0)
  else if fn ≤ 6 then some (formPlain .any .any .none .none 0)
  else if fn = 128 then some (formPlain .any .any .any .pair 0)
  else if fn = 131 || fn = 132 then some (formPlain .any .any .none .pair 0)
  else none

/-- The form of a MOP code (R143). -/
def formMop (fn : Nat) : Option FormA :=
  if fn ≤ 3 then some (formPlain .mask .mask .mask .none 0)
  else if fn = 4 then some (formPlain .mask .mask .none .none 0)
  else if fn = 5 then some (formPlain .mask .any .none .none 0)
  else if fn ≤ 7 then some (formPlain .any .mask .none .none 0)
  else none

/-- A form allowed for FN up to a limit. -/
def upTo (fn limit : Nat) (f : FormA) : Option FormA := if fn ≤ limit then some f else none

/-- The form of a format-A opcode and FN; none where FN is reserved or the opcode is not listed (R142, R143). -/
def formA (op : BitVec 8) (fn : Nat) : Option FormA :=
  match op.toNat with
  | 0x00 => upTo fn 0 (formPlain .none .none .none .none 0)
  | 0x01 => upTo fn 0 (formPlain .none .none .none .none 0x1FFF)
  | 0x02 => upTo fn 5 (formPlain .none .any .any .none 0x1FFF)
  | 0x03 => upTo fn 0 (formPlain .any .any .none .none 0x1FFF)
  | 0x04 => upTo fn 0 (formPlain .none .none .none .none 0x1FFF)
  | 0x05 => upTo fn 0 (formPlain .none .none .none .none 0)
  | 0x06 => upTo fn 0 (formPlain .none .none .none .none 0xFFFF)
  | 0x07 => upTo fn 0 (formPlain .none .none .none .none 0)
  | 0x13 => upTo fn 17 (formPlain .any .any .any .none 0)
  | 0x16 => upTo fn 2 (formPlain .any .any .none .none 0xFFF)
  | 0x17 => upTo fn 2 (formPlain .none .any .any .none 0xFFF)
  | 0x18 => upTo fn 0 (formPlain .any .none .none .none 0)
  | 0x20 => upTo fn 2 (formPlain .none .any .any .any 0xF)
  | 0x21 => upTo fn 0 (formPlain .none .any .any .any 0)
  | 0x22 => upTo fn 0 (formPlain .none .any .any .any 0)
  | 0x23 => upTo fn 0 (formPlain .none .none .none .none 0xFFFF)
  | 0x30 => upTo fn 0 (formPlain .none .any .none .none 0x1FFFFF)
  | 0x31 => upTo fn 0 (formPlain .none .none .none .none 0xF)
  | 0x32 => upTo fn 1 (formPlain .any .any .none .none 0x1FFF)
  | 0x33 => upTo fn 0 (formPlain .any .any .none .none 0x1FFF)
  | 0x40 => formVop fn
  | 0x41 => upTo fn 6 ⟨.mask, .any, .any, .none, true, true, 0⟩
  | 0x42 => upTo fn 0 ⟨.any, .any, .any, .none, true, false, 0⟩
  | 0x43 => upTo fn 3 ⟨.any, .any, .none, .none, true, true, 0⟩
  | 0x44 => upTo fn 0 ⟨.any, .any, .none, .none, true, true, 0x1FFFFF⟩
  | 0x45 => upTo fn 0 ⟨.any, .any, .none, .none, true, false, 0x1FFFFF⟩
  | 0x46 => upTo fn 0 ⟨.any, .any, .none, .none, true, true, 0⟩
  | 0x47 => upTo fn 0 (formPlain .any .any .any .none 0)
  | 0x48 => upTo fn 4 ⟨.any, .any, .none, .none, true, false, 0⟩
  | 0x49 => formVcvt fn
  | 0x4A => upTo fn 5 (formPlain .none .any .any .any 0)
  | 0x4B => formMop fn
  | 0x50 => upTo fn 1 (formPlain .none .any .any .any 0x0FFFFF)
  | 0x51 => upTo fn 0 (formPlain .none .any .any .any 0x0FFFFF)
  | 0x52 => upTo fn 5 (formPlain .none .any .any .any 0x0FFF8F)
  | 0x60 => upTo fn 1 (formPlain .any .any .any .any 0)
  | 0x61 => upTo fn 0 (formPlain .any .any .none .none 0)
  | _ => none

/-- Whether a split word obeys R140 to R144; where it does not, the instruction is ILLEGAL (R141). -/
def TileWord.legal : TileWord → Bool
  | .fmtA op d a b c mk mz fn imm =>
    !(opIsL op) &&
    match formA op fn.toNat with
    | none => false
    | some f =>
      f.d.ok d && f.a.ok a && f.b.ok b && f.c.ok c && (f.useMk || mk == 0) && (f.useMz || mz == 0)
        && (imm &&& ~~~f.imm) == 0
  | .fmtL op _d a fn imm =>
    match op.toNat with
    | 0x10 => a == 0 && fn == 0
    | 0x11 => fn == 0
    | 0x12 => a == 0 && fn == 0 && decide (imm.toNat < 2 ^ 24)
    | 0x14 => decide (fn.toNat ≤ 6)
    | 0x15 => decide (fn.toNat ≤ 3)
    | _ => false

end Sys2Proof
end

