-- ==== Sys2Proof/Config.lean ====
section
/-!
DEFINITION. What one machine fixes and the manual leaves open: the free values. Each is a constant without a body,
applied to the counter `freeCount` of State, so that nothing in Lean can evaluate one (log 5).
-/

namespace Sys2Proof.Config

/-- A byte the manual leaves open: an operand byte written under an accepted pass (R99), a destination of a collective
that did not end DONE (R302). -/
opaque freeByte : Nat → BitVec 8

/-- A 32-bit value the manual leaves open. -/
opaque freeWord : Nat → BitVec 32

/-- A 64-bit value the manual leaves open. -/
opaque freeDword : Nat → BitVec 64

/-- A yes or no the manual leaves open: which of two permitted outcomes happens. -/
opaque freeBool : Nat → Bool

/-- Which term comes next when an update unit adds up the squares of a Frobenius norm: the manual does not give the order of these
additions (R342). -/
opaque sumPick : List (BitVec 32) → Nat → Nat

/-- TAG_STEP of another module's shard, by module, own TAG_STEP and the shard's identifier (R301, R324). -/
opaque peerStep : BitVec 16 → BitVec 32 → BitVec 32 → BitVec 32

/-- A byte of a frame's payload field beyond the units in use (R254). -/
opaque linePad : Nat → BitVec 8

/-- A byte of the signature that the identity key makes: index, body and place (R505, R506). -/
opaque signatureByte : Nat → List (BitVec 8) → Nat → BitVec 8

/-- A byte of a certificate: index and place (R505: factory content). -/
opaque certByte : Nat → Nat → BitVec 8

/-- BODY_HASH of the recovery image, which the manual does not give (R502, R506, R513). -/
opaque recoveryHash : BitVec 256

/-- A rail's current limit on a number of phases, in 0.1 A, which the manual does not give (R421). -/
opaque railLimit : Nat → Nat → Nat

end Sys2Proof.Config
end

