-- ==== Sys2Proof/Machine/Num.lean ====
section
/-!
DEFINITION. Number formats of 03_formats.md: exact values, the encodings of R64 to R68, rounding (R76 to R78), the
noise generator (R81, R82) and the arithmetic that rounds once (R73, R75).
-/

namespace Sys2Proof.Machine

/-- A value read from any format: NaN, an infinity, or (-1)^neg * mant * 2^exp exactly. -/
inductive Num where
  | nan
  | inf (neg : Bool)
  | fin (neg : Bool) (mant : Nat) (exp : Int)
  deriving DecidableEq, Repr

/-- A binary format: precision in bits, exponent of the least subnormal, largest finite magnitude code, code written
on overflow, canonical NaN code, position of the sign bit (R64 to R67). -/
structure Fmt where
  prec : Nat
  qmin : Int
  maxCode : Nat
  overCode : Nat
  nanCode : Nat
  signBit : Nat
  deriving DecidableEq, Repr

/-- FP32 (R67). -/
def fmtFp32 : Fmt := ⟨24, -149, 0x7F7FFFFF, 0x7F800000, 0x7FC00000, 31⟩
/-- BF16 (R67). -/
def fmtBf16 : Fmt := ⟨8, -133, 0x7F7F, 0x7F80, 0x7FC0, 15⟩
/-- FP8 E5M2 (R67). -/
def fmtE5m2 : Fmt := ⟨3, -16, 0x7B, 0x7C, 0x7E, 7⟩
/-- FP8 E4M3: clamps at 448 (R66, R77, R88). -/
def fmtE4m3 : Fmt := ⟨4, -9, 0x7E, 0x7E, 0x7F, 7⟩
/-- E2M1: clamps at 6 (R64). -/
def fmtE2m1 : Fmt := ⟨2, -1, 7, 7, 0, 3⟩

/-- A rounding mode: to nearest even, stochastic with its 24-bit draw, or away from zero for the scale choice of R79. -/
inductive Rnd where
  | rne
  | sr (draw : Nat)
  | up
  deriving DecidableEq, Repr

/-- 2 to an integer power as numerator and denominator. -/
def pow2Num (e : Int) : Nat := 2 ^ e.toNat
/-- See `pow2Num`. -/
def pow2Den (e : Int) : Nat := 2 ^ (-e).toNat

/-- floor(log2(n/d)) for positive n and d. -/
def floorLog2 (n d : Nat) : Int :=
  let l : Int := (n.log2 : Int) - (d.log2 : Int)
  if n * pow2Den l ≥ d * pow2Num l then l else l - 1

/-- floor(n/d * 2^s) and whether the rest of the division rounds up under the mode (R76, R77). -/
def roundQuot (m : Rnd) (num den : Nat) : Nat :=
  let t := num / den
  let r := num % den
  let up := match m with
    | .rne => decide (2 * r > den) || (decide (2 * r = den) && decide (t % 2 = 1))
    | .sr draw => decide (draw < r * 2 ^ 24 / den)
    | .up => decide (r ≠ 0)
  if up then t + 1 else t

/-- The magnitude code of n/d * 2^e in a format, before the overflow check. -/
def magCode (f : Fmt) (m : Rnd) (n d : Nat) (e : Int) : Nat :=
  if n = 0 then 0 else
  let q := max (floorLog2 n d + e - (f.prec - 1 : Nat)) f.qmin
  let s := e - q
  (q - f.qmin).toNat * 2 ^ (f.prec - 1) + roundQuot m (n * pow2Num s) (d * pow2Den s)

/-- Code of a rounded magnitude, clamped or made infinite past the largest finite value (R75, R77, R88). -/
def limitCode (f : Fmt) (c : Nat) : Nat := if c > f.maxCode then f.overCode else c

/-- Add the sign bit to a magnitude code. -/
def withSign (f : Fmt) (neg : Bool) (c : Nat) : Nat := if neg then c + 2 ^ f.signBit else c

/-- Round n/d * 2^e with a sign into a format. -/
def roundRatio (f : Fmt) (m : Rnd) (neg : Bool) (n d : Nat) (e : Int) : Nat :=
  withSign f neg (limitCode f (magCode f m n d e))

/-- Round a value into a format. An infinity gives the format's overflow code; E4M3 gives NaN for it (R88). -/
def roundNum (f : Fmt) (m : Rnd) : Num → Nat
  | .nan => f.nanCode
  | .inf neg => if f.overCode = f.maxCode then f.nanCode else withSign f neg f.overCode
  | .fin neg n e => roundRatio f m neg n 1 e

/-- Whether rounding a finite value into a format clamps it (R88). -/
def saturates (f : Fmt) (m : Rnd) (n d : Nat) (e : Int) : Bool := decide (magCode f m n d e > f.maxCode)

/-- Read a magnitude code and a sign. -/
def decodeMag (f : Fmt) (neg : Bool) (c : Nat) : Num :=
  let h := 2 ^ (f.prec - 1)
  if c < h then .fin neg c f.qmin
  else .fin neg (c % h + h) (f.qmin + (c / h : Nat) - 1)

/-- FP32 (R67, R68). -/
def decodeFp32 (w : Word) : Num :=
  let c := w.toNat % 2 ^ 31
  let neg := w.getLsbD 31
  if c > 0x7F800000 then .nan else if c = 0x7F800000 then .inf neg else decodeMag fmtFp32 neg c

/-- BF16 (R67, R68). -/
def decodeBf16 (w : BitVec 16) : Num := decodeFp32 (w ++ (0 : BitVec 16))

/-- FP8 E4M3 element (R66). -/
def decodeE4m3 (b : Byte) : Num :=
  let c := b.toNat % 128
  if c = 0x7F then .nan else decodeMag fmtE4m3 (b.getLsbD 7) c

/-- FP8 E5M2 element (R67). -/
def decodeE5m2 (b : Byte) : Num :=
  let c := b.toNat % 128
  if c > 0x7C then .nan else if c = 0x7C then .inf (b.getLsbD 7) else decodeMag fmtE5m2 (b.getLsbD 7) c

/-- E2M1 element: 0x8 decodes as +0 (R64). -/
def decodeE2m1 (b : BitVec 4) : Num :=
  let c := b.toNat % 8
  if c = 0 then .fin false 0 0 else decodeMag fmtE2m1 (b.getLsbD 3) c

/-- BI4 element (R65). -/
def decodeBi4 (b : BitVec 4) : Num := .fin (b.getLsbD 3) b.toInt.natAbs 0

/-- MX scale E8M0 (R67). -/
def decodeE8m0 (b : Byte) : Num := if b = 0xFF then .nan else .fin false 1 ((b.toNat : Int) - 127)

/-- Whether a value is a NaN or an infinity. -/
def Num.nonFinite : Num → Bool
  | .nan => true
  | .inf _ => true
  | .fin _ _ _ => false

/-- Whether a value is a zero of either sign. -/
def Num.isZero : Num → Bool
  | .fin _ 0 _ => true
  | _ => false

/-- The other sign. -/
def Num.negate : Num → Num
  | .nan => .nan
  | .inf n => .inf (!n)
  | .fin n m e => .fin (!n) m e

/-- The exact product; infinity times zero is NaN (R75). -/
def Num.mul : Num → Num → Num
  | .nan, _ => .nan
  | _, .nan => .nan
  | .inf a, .inf b => .inf (a != b)
  | .inf a, .fin b m _ => if m = 0 then .nan else .inf (a != b)
  | .fin a m _, .inf b => if m = 0 then .nan else .inf (a != b)
  | .fin a m e, .fin b n f => .fin (a != b) (m * n) (e + f)

/-- A signed integer count of 2^lo for a finite value whose exponent is at least `lo`. -/
def scaledInt (neg : Bool) (m : Nat) (e lo : Int) : Int :=
  let v : Int := (m * 2 ^ (e - lo).toNat : Nat)
  if neg then -v else v

/-- The exact sum; infinity minus infinity is NaN; an exact zero of operands of unlike sign is +0 (R75). -/
def Num.add : Num → Num → Num
  | .nan, _ => .nan
  | _, .nan => .nan
  | .inf a, .inf b => if a = b then .inf a else .nan
  | .inf a, .fin _ _ _ => .inf a
  | .fin _ _ _, .inf b => .inf b
  | .fin a m e, .fin b n f =>
    let lo := min e f
    let s := scaledInt a m e lo + scaledInt b n f lo
    .fin (if s = 0 then (a && b) else decide (s < 0)) s.natAbs lo

/-- Compare two values that are no NaN: -1, 0, 1 by order; zeros are equal. -/
def Num.order (x y : Num) : Int :=
  match x, y with
  | .inf a, .inf b => if a = b then 0 else if a then -1 else 1
  | .inf a, _ => if a then -1 else 1
  | _, .inf b => if b then 1 else -1
  | .fin a m e, .fin b n f =>
    let lo := min e f
    let s := scaledInt a m e lo - scaledInt b n f lo
    if s < 0 then -1 else if s = 0 then 0 else 1
  | _, _ => 0

/-- FP32 word of a value under a mode. -/
def toFp32 (m : Rnd) (x : Num) : Word := BitVec.ofNat 32 (roundNum fmtFp32 m x)

/-- FP32 sum with one rounding (R75). -/
def addFp32 (m : Rnd) (a b : Word) : Word := toFp32 m (Num.add (decodeFp32 a) (decodeFp32 b))

/-- FP32 product with one rounding. -/
def mulFp32 (m : Rnd) (a b : Word) : Word := toFp32 m (Num.mul (decodeFp32 a) (decodeFp32 b))

/-- FP32 a * b + c with one rounding. -/
def fmaFp32 (m : Rnd) (a b c : Word) : Word :=
  toFp32 m (Num.add (Num.mul (decodeFp32 a) (decodeFp32 b)) (decodeFp32 c))

/-- The exact sum of a list of values, left to right. -/
def Num.sum (l : List Num) : Num := l.foldl Num.add (.fin false 0 0)

/-- A half whose tree of pairwise FP32 additions is balanced (R73, BF16 column). -/
def treeAdd : Nat → List Word → Word
  | 0, l => l.headD 0
  | k + 1, l =>
    let h := 2 ^ k
    addFp32 .rne (treeAdd k (l.take h)) (treeAdd k (l.drop h))

/-! ### The rounding noise generator -/

/-- 32-bit left rotation. -/
def rotl (x : Word) (n : Nat) : Word := x.rotateLeft n

/-- The four words of a generator state. -/
structure NoiseWords where
  x0 : Word
  x1 : Word
  x2 : Word
  x3 : Word
  deriving DecidableEq, Repr

/-- One round of R81 without the key injection. -/
def noiseRound (ra rb : Nat) (x : NoiseWords) : NoiseWords :=
  let a0 := x.x0 + x.x1
  let a1 := rotl x.x1 ra ^^^ a0
  let a2 := x.x2 + x.x3
  let a3 := rotl x.x3 rb ^^^ a2
  ⟨a0, a3, a2, a1⟩

/-- The injection after an odd round, with the key rotated by j (R81). -/
def noiseInject (j : Nat) (k x : NoiseWords) : NoiseWords :=
  match j with
  | 1 => ⟨x.x0 + k.x1, x.x1 + k.x2, x.x2 + k.x3, x.x3 + k.x0 + 1⟩
  | 2 => ⟨x.x0 + k.x2, x.x1 + k.x3, x.x2 + k.x0, x.x3 + k.x1 + 2⟩
  | _ => ⟨x.x0 + k.x3, x.x1 + k.x0, x.x2 + k.x1, x.x3 + k.x2 + 3⟩

/-- The generator of R81: key and counter to four output words. -/
def noiseWords (k c : NoiseWords) : NoiseWords :=
  let x := NoiseWords.mk (c.x0 + k.x0) (c.x1 + k.x1) (c.x2 + k.x2) (c.x3 + k.x3)
  let x := noiseInject 1 k (noiseRound 26 6 (noiseRound 13 15 x))
  let x := noiseInject 2 k (noiseRound 16 24 (noiseRound 17 29 x))
  noiseInject 3 k (noiseRound 26 6 (noiseRound 13 15 x))

/-- What a rounding site draws with: the job key, the latched step and the stream id (R82). -/
structure NoiseSite where
  key : NoiseWords
  step : Word
  stream : Word
  deriving DecidableEq, Repr

/-- The four 32-bit words of a 128-bit key (R86). -/
def keyWords (k : BitVec 128) : NoiseWords :=
  ⟨k.extractLsb' 0 32, k.extractLsb' 32 32, k.extractLsb' 64 32, k.extractLsb' 96 32⟩

/-- The 24-bit draw of an element index (R82). -/
def noiseDraw (n : NoiseSite) (e : Nat) : Nat :=
  let i := e % 2 ^ 64 / 4
  let w := noiseWords n.key ⟨BitVec.ofNat 32 i, BitVec.ofNat 32 (i / 2 ^ 32), n.stream, n.step⟩
  let v := match e % 4 with
    | 0 => w.x0
    | 1 => w.x1
    | 2 => w.x2
    | _ => w.x3
  v.toNat / 256

/-- The rounding of a site: SR with its draw where the site's control selects it, else RNE (R78). -/
def siteRnd (stoch : Bool) (n : NoiseSite) (e : Nat) : Rnd := if stoch then .sr (noiseDraw n e) else .rne

/-! ### Block scales, tensor scales and the counts that formats keep -/

/-- What a block-scale code means (R66). -/
inductive BlockScale where
  | zero | reserved | nan
  | used (mant : Nat) (exp : Int)
  deriving DecidableEq, Repr

/-- Read a block-scale code (R66). -/
def blockScale (b : Byte) : BlockScale :=
  if b = 0 then .zero else if b = 0x7F then .nan else if b.getLsbD 7 then .reserved
  else match decodeMag fmtE4m3 false b.toNat with
    | .fin _ m e => .used m e
    | _ => .nan

/-- A tensor scale must be positive, finite and normal (R70). -/
def tensorScaleOk (w : Word) : Bool := decide (0x00800000 ≤ w.toNat) && decide (w.toNat < 0x7F800000)

/-- Counts a unit adds to its format counters (R89, R90). -/
structure FmtCounts where
  inf : Nat := 0
  nan : Nat := 0
  spill : Nat := 0
  satBlock : Nat := 0
  zeroBlock : Nat := 0
  rsvdScale : Nat := 0
  satValue : Nat := 0
  qdescBad : Bool := false
  deriving DecidableEq, Repr

/-- Both counts together. -/
def FmtCounts.add (a b : FmtCounts) : FmtCounts :=
  ⟨a.inf + b.inf, a.nan + b.nan, a.spill + b.spill, a.satBlock + b.satBlock, a.zeroBlock + b.zeroBlock,
    a.rsvdScale + b.rsvdScale, a.satValue + b.satValue, a.qdescBad || b.qdescBad⟩

/-- The non-finite count of one FP32 result (R75). -/
def countFp32 (w : Word) : FmtCounts :=
  let c := w.toNat % 2 ^ 31
  if c = 0x7F800000 then ({ inf := 1 } : FmtCounts) else if c > 0x7F800000 then { nan := 1 } else {}

/-- The non-finite count of one BF16 result. -/
def countBf16 (w : BitVec 16) : FmtCounts := countFp32 (w ++ (0 : BitVec 16))

/-- The non-finite count of a list of FP32 results. -/
def countFp32s (l : List Word) : FmtCounts := l.foldl (fun c w => c.add (countFp32 w)) {}

end Sys2Proof.Machine
end

