-- ==== Sys2Proof/Machine/Quant.lean ====
section
/-!
DEFINITION. The quantiser and the format conversions of 03_formats.md (R69 to R71, R79, R80, R88).
-/

namespace Sys2Proof.Machine

/-! ### Bytes and words -/

/-- The little-endian number of a list of bytes (R3). -/
def leNat : List Byte → Nat
  | [] => 0
  | b :: r => b.toNat + 256 * leNat r

/-- `n` little-endian bytes of a number (R3). -/
def leBytes : Nat → Nat → List Byte
  | 0, _ => []
  | n + 1, v => BitVec.ofNat 8 v :: leBytes n (v / 256)

/-- Cut a list into pieces of `n`; the first argument bounds their count. -/
def pieces {α : Type} (n : Nat) : Nat → List α → List (List α)
  | 0, _ => []
  | k + 1, l => if l.isEmpty then [] else l.take n :: pieces n k (l.drop n)

/-- Bits [hi:lo] of a number. -/
def bitsOf (v lo width : Nat) : Nat := v / 2 ^ lo % 2 ^ width

/-! ### The quantisation descriptor -/

/-- The fields of a good quantisation descriptor (R79). -/
structure QDesc where
  tscale : Word
  theta : Word
  bi4 : Bool
  stoch : Bool
  cap : Nat
  stream : Word
  indexBase : Nat
  deriving DecidableEq, Repr

/-- Read a quantisation descriptor from its 32 bytes; none when it is bad (R79, R70). -/
def parseQDesc (bytes : List Byte) : Option QDesc :=
  let v := leNat bytes
  let ts : Word := BitVec.ofNat 32 v
  let th : Word := BitVec.ofNat 32 (v / 2 ^ 32)
  let ctl := bitsOf v 64 32
  let thMag := th.toNat % 2 ^ 31
  let thOk := decide (thMag ≤ 0x7F800000) && (!(th.getLsbD 31) || decide (thMag = 0))
  if tensorScaleOk ts && thOk && decide (ctl % 4 < 2) && decide (bitsOf ctl 3 6 ≤ 32)
      && decide (ctl / 2 ^ 9 = 0) && decide (v / 2 ^ 192 = 0) then
    some ⟨ts, th, decide (ctl % 4 = 1), decide (bitsOf ctl 2 1 = 1), bitsOf ctl 3 6,
      BitVec.ofNat 32 (v / 2 ^ 96), bitsOf v 128 64⟩
  else none

/-! ### Quantisation of one row -/

/-- Magnitude bits of an FP32 word: finite magnitudes compare as these do. -/
def magBits (w : Word) : Nat := w.toNat % 2 ^ 31

/-- Whether an FP32 word is a NaN or an infinity. -/
def nonFinite32 (w : Word) : Bool := decide (0x7F800000 ≤ magBits w)

/-- Whether candidate `p` comes before candidate `q` in the extraction order (R79, R80). -/
def candBefore (p q : Nat × Word) : Bool :=
  match nonFinite32 p.2, nonFinite32 q.2 with
  | true, true => decide (p.1 < q.1)
  | true, false => true
  | false, true => false
  | false, false =>
    decide (magBits q.2 < magBits p.2) || (decide (magBits p.2 = magBits q.2) && decide (p.1 < q.1))

/-- Insert a candidate in extraction order. -/
def insertCand (p : Nat × Word) : List (Nat × Word) → List (Nat × Word)
  | [] => [p]
  | q :: r => if candBefore p q then p :: q :: r else q :: insertCand p r

/-- FP32 to BF16 with its rounding (R88). -/
def toBf16 (m : Rnd) (w : Word) : BitVec 16 := BitVec.ofNat 16 (roundNum fmtBf16 m (decodeFp32 w))

/-- One span after extraction: its elements, its side-list words, its counts. -/
structure SpanOut where
  elems : List Word
  side : List Word
  counts : FmtCounts
  deriving DecidableEq, Repr

/-- A side-list entry (R71). -/
def sideEntry (p : Nat × Word) : Word :=
  BitVec.ofNat 32 ((toBf16 .rne p.2).toNat + 2 ^ 16 * p.1 + 2 ^ 24)

/-- Extraction of one span of up to 256 elements (R79). -/
def extractSpan (q : QDesc) (xs : List Word) : SpanOut :=
  let th := magBits q.theta
  let cand := (xs.zipIdx.map (fun e => (e.2, e.1))).filter
    (fun e => nonFinite32 e.2 || decide (th < magBits e.2))
  let sorted := cand.foldr insertCand []
  let taken := sorted.take q.cap
  let pos := taken.map (·.1)
  let counts := taken.foldl (fun c e => c.add (countBf16 (toBf16 .rne e.2))) ({} : FmtCounts)
  ⟨xs.zipIdx.map (fun e => if pos.contains e.2 then 0 else e.1),
   (taken.map sideEntry) ++ List.replicate (q.cap - taken.length) 0,
   { counts with spill := counts.spill + (sorted.length - taken.length) }⟩

/-- A quantised block: its 4-bit codes, its scale byte, its counts. -/
structure BlockOut where
  codes : List (BitVec 4)
  scale : Byte
  counts : FmtCounts
  deriving DecidableEq, Repr

/-- Integer grid of BI4: rounding to units, clamped to 7 (R65, R76). -/
def fmtInt4 : Fmt := ⟨64, 0, 7, 7, 0, 3⟩

/-- One element rounded to its 4-bit code, clamped to 6 or 7, +0 for a zero result (R79). -/
def quantElem (q : QDesc) (rnd : Rnd) (scaleMant : Nat) (scaleExp : Int) (x : Word) : BitVec 4 :=
  match decodeFp32 x, decodeFp32 q.tscale with
  | .fin neg m e, .fin _ mt et =>
    let f := if q.bi4 then fmtInt4 else fmtE2m1
    let c := limitCode f (magCode f rnd m (scaleMant * mt) (e - scaleExp - et))
    if c = 0 then 0 else if q.bi4 then BitVec.ofNat 4 (if neg then 16 - c else c)
    else BitVec.ofNat 4 (if neg then 8 + c else c)
  | _, _ => 0

/-- Quantise one block of 16 elements whose first element has row position `j0` (R79). -/
def quantBlock (q : QDesc) (site : NoiseSite) (j0 : Nat) (xs : List Word) : BlockOut :=
  if xs.any nonFinite32 then ⟨List.replicate 16 0, 0x7F, { nan := 1 }⟩ else
  let amax := xs.foldl (fun a x => max a (magBits x)) 0
  match decodeMag fmtFp32 false amax, decodeFp32 q.tscale with
  | .fin _ m e, .fin _ mt et =>
    let g := if q.bi4 then 7 else 6
    let c := magCode fmtE4m3 .up m (g * mt) (e - et)
    let sat := decide (c > fmtE4m3.maxCode)
    let sc := limitCode fmtE4m3 c
    match decodeMag fmtE4m3 false sc with
    | .fin _ ms es =>
      let codes := xs.zipIdx.map (fun x =>
        quantElem q (siteRnd q.stoch site (q.indexBase + j0 + x.2)) ms es x.1)
      ⟨codes, if codes.all (· == 0) then 0 else BitVec.ofNat 8 sc, if sat then { satBlock := 1 } else {}⟩
    | _ => ⟨List.replicate 16 0, 0, {}⟩
  | _, _ => ⟨List.replicate 16 0, 0, {}⟩

/-- What quantising one row writes: value plane, scale plane, side list, counts (R69, R71, R79). -/
structure RowOut where
  values : List Byte
  scales : List Byte
  side : List Word
  counts : FmtCounts
  deriving DecidableEq, Repr

/-- Two 4-bit codes to a byte, even element low (R69). -/
def packNibbles : List (BitVec 4) → List Byte
  | [] => []
  | [a] => [(0 : BitVec 4) ++ a]
  | a :: b :: r => (b ++ a) :: packNibbles r

/-- Quantise one row of FP32 values along K (R79, R80). -/
def quantRow (q : QDesc) (key : NoiseWords) (step : Word) (xs : List Word) : RowOut :=
  let n := xs.length
  let spans := (pieces 256 n xs).map (extractSpan q)
  let elems := spans.flatMap (·.elems)
  let padded := elems ++ List.replicate ((n + 31) / 32 * 32 - n) 0
  let site : NoiseSite := ⟨key, step, q.stream⟩
  let blocks := (pieces 16 (padded.length) padded).zipIdx.map (fun b => quantBlock q site (16 * b.2) b.1)
  ⟨packNibbles (blocks.flatMap (·.codes)), blocks.map (·.scale), spans.flatMap (·.side),
   (blocks.map (·.counts)).foldl FmtCounts.add ((spans.map (·.counts)).foldl FmtCounts.add {})⟩

/-! ### Dequantisation -/

/-- A 4-bit element of either format (R64, R65). -/
def decodeElem (bi4 : Bool) (c : BitVec 4) : Num := if bi4 then decodeBi4 c else decodeE2m1 c

/-- Element times block scale times tensor scale, exactly (R69); a zero or reserved scale gives zero, 0x7F NaN (R88). -/
def dequantElem (bi4 : Bool) (ts : Word) (scale : Byte) (c : BitVec 4) : Num :=
  match blockScale scale with
  | .zero => .fin false 0 0
  | .reserved => .fin false 0 0
  | .nan => .nan
  | .used m e => Num.mul (Num.mul (decodeElem bi4 c) (.fin false m e)) (decodeFp32 ts)

/-- Element `j` of a value plane (R69). -/
def planeElem (values : List Byte) (j : Nat) : BitVec 4 :=
  let b := values.getD (j / 2) 0
  if j % 2 = 0 then b.extractLsb' 0 4 else b.extractLsb' 4 4

/-- Side-list values of a row, by position: entries with VALID set and a position inside their span (R71). -/
def sideValues (cap n : Nat) (side : List Word) : List (Nat × BitVec 16) :=
  (side.zipIdx.map (fun e =>
    let span := e.2 / cap
    let pos := bitsOf e.1.toNat 16 8
    (256 * span + pos, e.1))).filterMap (fun e =>
      if e.2.getLsbD 24 && decide (e.1 < n) then some (e.1, e.2.extractLsb' 0 16) else none)

/-- Dequantise a row of `n` elements to exact values, side-list values at their positions (R88, R147). -/
def dequantRow (q : QDesc) (n : Nat) (values scales : List Byte) (side : List Word) : List Num :=
  let sv := sideValues q.cap n side
  (List.range n).map (fun j =>
    match (sv.filter (fun e => e.1 == j)).getLast? with
    | some e => decodeBf16 e.2
    | none => dequantElem q.bi4 q.tscale (scales.getD (j / 16) 0) (planeElem values j))

/-- Reserved scale codes among the blocks of a row of `n` elements (R66, R88). -/
def reservedScales (n : Nat) (scales : List Byte) : Nat :=
  ((scales.take ((n + 15) / 16)).filter (fun b => b.getLsbD 7)).length

/-! ### FP8 and microscaling conversions -/

/-- FP8 element times ts, exactly (R88). -/
def fromFp8 (e5m2 : Bool) (ts : Word) (b : Byte) : Num :=
  Num.mul (if e5m2 then decodeE5m2 b else decodeE4m3 b) (decodeFp32 ts)

/-- An MXFP4 block of 32 elements and its E8M0 scale to two BX4 blocks: the scale 2^(c - 127) / ts exactly where it
is a block scale of normal or subnormal range, else through FP32 and the quantiser with C = 0 and RNE (R88). -/
def mxfp4ToBx4 (ts : Word) (scale : Byte) (codes : List (BitVec 4)) : List BlockOut :=
  if scale = 0xFF then
    [⟨codes.take 16, 0x7F, { nan := 1 }⟩, ⟨codes.drop 16, 0x7F, { nan := 1 }⟩]
  else match decodeFp32 ts with
    | .fin _ mt et =>
      let e : Int := (scale.toNat : Int) - 127 - et - (mt.log2 : Int)
      if mt = 2 ^ mt.log2 && decide (-9 ≤ e) && decide (e ≤ 8) then
        let s := BitVec.ofNat 8 (magCode fmtE4m3 .rne 1 1 e)
        [⟨codes.take 16, s, {}⟩, ⟨codes.drop 16, s, {}⟩]
      else
        let xs := codes.map (fun c => toFp32 .rne (Num.mul (decodeE2m1 c) (decodeE8m0 scale)))
        let q : QDesc := ⟨ts, 0x7F800000, false, false, 0, 0, 0⟩
        (pieces 16 2 xs).map (quantBlock q ⟨⟨0, 0, 0, 0⟩, 0, 0⟩ 0)
    | _ => []

/-- An exact number divided by `mt * 2^et` to an FP8 code: clamp or overflow per format, and the counts (R88). -/
def narrowFp8 (f : Fmt) (m : Rnd) (x : Num) (mt : Nat) (et : Int) : Byte × FmtCounts :=
  match x with
  | .fin neg n e =>
    let clamped := saturates f m n mt (e - et)
    (BitVec.ofNat 8 (roundRatio f m neg n mt (e - et)),
      if !clamped then {} else if f.overCode = f.maxCode then { satValue := 1 } else { inf := 1 })
  | x =>
    let code := roundNum f m x
    (BitVec.ofNat 8 code, if code = f.nanCode then { nan := 1 } else { inf := 1 })

/-- FP32 to an FP8 code: round v / ts (R88). -/
def toFp8 (f : Fmt) (m : Rnd) (ts : Word) (w : Word) : Byte × FmtCounts :=
  match decodeFp32 ts with
  | .fin _ mt et => narrowFp8 f m (decodeFp32 w) mt et
  | _ => narrowFp8 f m .nan 1 0

/-- MXFP8 element to FP8: element * 2^(c - 127) / ts rounded (R88). -/
def mxfp8ToFp8 (e5m2 : Bool) (ts : Word) (scale b : Byte) : Byte × FmtCounts :=
  let x := Num.mul (if e5m2 then decodeE5m2 b else decodeE4m3 b) (decodeE8m0 scale)
  match decodeFp32 ts with
  | .fin _ mt et => narrowFp8 (if e5m2 then fmtE5m2 else fmtE4m3) .rne x mt et
  | _ => narrowFp8 (if e5m2 then fmtE5m2 else fmtE4m3) .rne .nan 1 0

/-- floor(log2) of the greatest magnitude of a block, less `less`, clamped to -127..127 (R88). -/
def mxExponent (less : Int) (xs : List Word) : Option Int :=
  let amax := xs.foldl (fun a x => max a (magBits x)) 0
  if amax = 0 then none else
  match decodeMag fmtFp32 false amax with
  | .fin _ m e => some (max (-127) (min 127 ((m.log2 : Int) + e - less)))
  | _ => none

/-- 32 FP32 values to an MX block: E8M0 code, element codes clamped to the greatest finite element, and the counts of those
clamped and of a block that holds a non-finite value (R88). -/
def toMxBlock (f : Fmt) (less : Int) (xs : List Word) : Byte × List Nat × FmtCounts :=
  if xs.any nonFinite32 then (0xFF, xs.map (fun _ => 0), { nan := 1 }) else
  match mxExponent less xs with
  | none => (0x7F, xs.map (fun _ => 0), {})
  | some x =>
    let g : Fmt := { f with overCode := f.maxCode }
    let rs := xs.map (fun w => match decodeFp32 w with
      | .fin neg m e => (roundRatio g .rne neg m 1 (e - x), saturates g .rne m 1 (e - x))
      | _ => (0, false))
    (BitVec.ofInt 8 (x + 127), rs.map (·.1), { satValue := (rs.filter (·.2)).length })

end Sys2Proof.Machine
end

