-- ==== Sys2Proof/Machine/RegTable.lean ====
section
/-!
DEFINITION. The register tables and mailbox tables of the manual as data: every field of every page with its
offset, bits, access code, guard suffix, reset value, retention class and permitted range.
-/

namespace Sys2Proof.Machine

/-- Access codes of R7. -/
inductive AccessCode where
  | rw | ro | rc | wo | wa
  deriving DecidableEq, Repr

/-- Guard suffixes of R7, R12: none, G, GP. -/
inductive GuardKind where
  | open | guarded | presence
  deriving DecidableEq, Repr

/-- Retention classes of R13. -/
inductive Hold where
  | p | a | m | w | v
  deriving DecidableEq, Repr

/-- One field of a register table: offset, lowest bit, width, access, guard, reset, retention class and the range
of values a write may give it (R6, R61). -/
structure FieldDef where
  off : Nat
  lo : Nat
  width : Nat
  acc : AccessCode
  grd : GuardKind
  reset : Nat
  hold : Hold
  minV : Nat
  maxV : Nat
  deriving DecidableEq, Repr

/-- One mailbox value: VALUE_ID, width in 32-bit words, access, guard, reset, retention class (R47 to R53). -/
structure WideDef where
  vid : Nat
  words : Nat
  acc : AccessCode
  grd : GuardKind
  reset : Nat
  hold : Hold
  deriving DecidableEq, Repr

/-- An EVENT bit is a sticky RC bit that resets to 0 (R44). -/
def eventField (bit : Nat) (h : Hold) : FieldDef := ⟨0x24, bit, 1, .rc, .open, 0, h, 0, 1⟩

/-- One point of a voltage-frequency table: code in [6:0], millivolts in [25:16] (R416). -/
def vfPoint (code mv : Nat) : Nat := code + mv * 2 ^ 16

/-- The typical V_char table of R406 as the mailbox value of R416. -/
def vfTable : Nat :=
  vfPoint 0 460 + vfPoint 8 480 * 2 ^ 32 + vfPoint 16 495 * 2 ^ 64 + vfPoint 24 510 * 2 ^ 96
    + vfPoint 32 550 * 2 ^ 128 + vfPoint 40 590 * 2 ^ 160 + vfPoint 48 640 * 2 ^ 192 + vfPoint 58 710 * 2 ^ 224

/-! ### common -/

/-- TYPE (R40). -/
def fCommonType : FieldDef := ⟨0x0, 0, 16, .ro, .open, 0, .p, 0, 65535⟩
/-- INSTANCE (R40). -/
def fCommonInstance : FieldDef := ⟨0x0, 16, 16, .ro, .open, 0, .p, 0, 65535⟩
/-- MINOR (R41). -/
def fCommonMinor : FieldDef := ⟨0x4, 0, 8, .ro, .open, 0, .p, 0, 255⟩
/-- MAJOR (R41). -/
def fCommonMajor : FieldDef := ⟨0x4, 8, 8, .ro, .open, 1, .p, 0, 255⟩
/-- BLOCK_CAPS (R42). -/
def fCommonBlockCaps : FieldDef := ⟨0x8, 0, 31, .ro, .open, 0, .p, 0, 2147483647⟩
/-- MBX (R42). -/
def fCommonMbx : FieldDef := ⟨0x8, 31, 1, .ro, .open, 0, .p, 0, 1⟩
/-- READY (R43). -/
def stCommonReady : FieldDef := ⟨0x20, 0, 1, .ro, .open, 0, .v, 0, 1⟩
/-- ACTION (R43). -/
def stCommonAction : FieldDef := ⟨0x20, 1, 1, .ro, .open, 0, .v, 0, 1⟩
/-- VOTE_FIX bit of EVENT (R44). -/
def evCommonVoteFix : Nat := 0
/-- VOTE_FAIL bit of EVENT (R44). -/
def evCommonVoteFail : Nat := 1
/-- GUARD_DENIED bit of EVENT (R44). -/
def evCommonGuardDenied : Nat := 2
/-- DEFAULTS_RESTORED bit of EVENT (R44). -/
def evCommonDefaultsRestored : Nat := 3
/-- ACTION_BUSY bit of EVENT (R44). -/
def evCommonActionBusy : Nat := 4
/-- MBX_BAD bit of EVENT (R44). -/
def evCommonMbxBad : Nat := 5
/-- EN_COMMON (R45). -/
def fCommonEnCommon : FieldDef := ⟨0x28, 0, 6, .rw, .open, 63, .w, 0, 63⟩
/-- EN_BLOCK (R45). -/
def fCommonEnBlock : FieldDef := ⟨0x28, 8, 24, .rw, .open, 16777215, .w, 0, 16777215⟩
/-- VALUE_ID (R47). -/
def fCommonValueId : FieldDef := ⟨0xe0, 0, 16, .rw, .open, 0, .v, 0, 65535⟩
/-- PART (R47). -/
def fCommonPart : FieldDef := ⟨0xe0, 16, 1, .rw, .open, 0, .v, 0, 1⟩
/-- WRITE (R47). -/
def fCommonWrite : FieldDef := ⟨0xe0, 31, 1, .wa, .open, 0, .v, 0, 1⟩
/-- VALID (R48). -/
def fCommonValid : FieldDef := ⟨0xe4, 0, 1, .ro, .open, 0, .v, 0, 1⟩
/-- ERR (R48). -/
def fCommonErr : FieldDef := ⟨0xe4, 1, 1, .ro, .open, 0, .v, 0, 1⟩
/-- SEQ (R48). -/
def fCommonSeq : FieldDef := ⟨0xe4, 4, 4, .ro, .open, 0, .v, 0, 15⟩
/-- WORDS (R48). -/
def fCommonWords : FieldDef := ⟨0xe4, 8, 8, .ro, .open, 0, .v, 0, 255⟩
/-- VALUE_ID (R48). -/
def fCommonValueIdStat : FieldDef := ⟨0xe4, 16, 16, .ro, .open, 0, .v, 0, 65535⟩

/-- MBX_DATA0 to MBX_DATA5 (R49). -/
def fCommonMbxData (i : Nat) : FieldDef := ⟨0xe8 + 4 * i, 0, 32, .rw, .open, 0, .v, 0, 4294967295⟩

/-! ### manager -/

/-- MODULE_STATE (R495). -/
def stManagerModuleState : FieldDef := ⟨0x20, 8, 4, .ro, .open, 0, .a, 0, 15⟩
/-- JOB_LOADED (R495). -/
def stManagerJobLoaded : FieldDef := ⟨0x20, 12, 1, .ro, .open, 0, .m, 0, 1⟩
/-- JOB_RUNNING (R495). -/
def stManagerJobRunning : FieldDef := ⟨0x20, 13, 1, .ro, .open, 0, .m, 0, 1⟩
/-- ACCESS_TIMEOUT bit of EVENT (R495). -/
def evManagerAccessTimeout : Nat := 8
/-- WAKE_FAILED bit of EVENT (R495). -/
def evManagerWakeFailed : Nat := 9
/-- PLAN_STOPPED bit of EVENT (R495). -/
def evManagerPlanStopped : Nat := 10
/-- CTRL_BAD bit of EVENT (R495). -/
def evManagerCtrlBad : Nat := 11
/-- DIE_SLEEP (R496). -/
def fManagerDieSleep : FieldDef := ⟨0x100, 0, 4, .wa, .guarded, 0, .v, 0, 15⟩
/-- DIE_WAKE (R496). -/
def fManagerDieWake : FieldDef := ⟨0x100, 4, 4, .wa, .guarded, 0, .v, 0, 15⟩
/-- STANDBY (R496). -/
def fManagerStandby : FieldDef := ⟨0x100, 8, 1, .wa, .guarded, 0, .v, 0, 1⟩
/-- WAKE (R496). -/
def fManagerWake : FieldDef := ⟨0x100, 9, 1, .wa, .guarded, 0, .v, 0, 1⟩
/-- WARM_RESET (R496). -/
def fManagerWarmReset : FieldDef := ⟨0x100, 10, 1, .wa, .guarded, 0, .v, 0, 1⟩
/-- MODULE_RESET (R496). -/
def fManagerModuleReset : FieldDef := ⟨0x100, 11, 1, .wa, .guarded, 0, .v, 0, 1⟩
/-- NAP_DELAY (R496). -/
def fManagerNapDelay : FieldDef := ⟨0x104, 0, 10, .rw, .guarded, 10, .m, 1, 1000⟩
/-- RESET_CAUSE (R496). -/
def fManagerResetCause : FieldDef := ⟨0x108, 0, 8, .ro, .open, 1, .a, 0, 255⟩
/-- AWAKE (R496). -/
def fManagerAwake : FieldDef := ⟨0x10c, 0, 4, .ro, .open, 0, .v, 0, 15⟩
/-- ASLEEP (R496). -/
def fManagerAsleep : FieldDef := ⟨0x10c, 4, 4, .ro, .open, 0, .v, 0, 15⟩

/-! ### straps -/

/-- ROLE (R489). -/
def fStrapsRole : FieldDef := ⟨0x100, 0, 2, .ro, .open, 0, .m, 0, 3⟩
/-- BOOT (R489). -/
def fStrapsBoot : FieldDef := ⟨0x100, 2, 2, .ro, .open, 0, .m, 0, 3⟩
/-- MGMT_MODE (R489). -/
def fStrapsMgmtMode : FieldDef := ⟨0x100, 4, 1, .ro, .open, 0, .m, 0, 1⟩
/-- THERM_MODE (R489). -/
def fStrapsThermMode : FieldDef := ⟨0x100, 5, 1, .ro, .open, 0, .m, 0, 1⟩
/-- PWR_CLASS (R489). -/
def fStrapsPwrClass : FieldDef := ⟨0x100, 6, 2, .ro, .open, 0, .m, 0, 3⟩
/-- FLOW_SCALE (R489). -/
def fStrapsFlowScale : FieldDef := ⟨0x100, 8, 2, .ro, .open, 0, .m, 0, 3⟩
/-- REFCLK_SRC (R489). -/
def fStrapsRefclkSrc : FieldDef := ⟨0x100, 10, 1, .ro, .open, 0, .m, 0, 1⟩
/-- PRESENCE_J (R489). -/
def fStrapsPresenceJ : FieldDef := ⟨0x100, 11, 1, .ro, .open, 0, .m, 0, 1⟩
/-- PL_LOW (R529). -/
def fStrapsPlLow : FieldDef := ⟨0x104, 0, 1, .ro, .open, 0, .a, 0, 1⟩
/-- BTN_LOW (R529). -/
def fStrapsBtnLow : FieldDef := ⟨0x104, 1, 1, .ro, .open, 0, .a, 0, 1⟩
/-- LOS_HIGH (R529). -/
def fStrapsLosHigh : FieldDef := ⟨0x104, 2, 1, .ro, .open, 0, .a, 0, 1⟩
/-- TXDIS_HIGH (R529). -/
def fStrapsTxdisHigh : FieldDef := ⟨0x104, 3, 1, .ro, .open, 0, .a, 0, 1⟩
/-- ALERT_LOW (R529). -/
def fStrapsAlertLow : FieldDef := ⟨0x104, 4, 1, .ro, .open, 0, .a, 0, 1⟩
/-- SEAL_OPEN_NOW (R529). -/
def fStrapsSealOpenNow : FieldDef := ⟨0x104, 5, 1, .ro, .open, 0, .a, 0, 1⟩
/-- SEAL_MARGINAL_NOW (R529). -/
def fStrapsSealMarginalNow : FieldDef := ⟨0x104, 6, 1, .ro, .open, 0, .a, 0, 1⟩
/-- STRAPS_LIVE (R529). -/
def fStrapsStrapsLive : FieldDef := ⟨0x104, 8, 12, .ro, .open, 0, .a, 0, 4095⟩

/-! ### security -/

/-- PRESENCE (R511). -/
def stSecurityPresence : FieldDef := ⟨0x20, 8, 1, .ro, .open, 0, .a, 0, 1⟩
/-- JUMPER (R511). -/
def stSecurityJumper : FieldDef := ⟨0x20, 9, 1, .ro, .open, 0, .a, 0, 1⟩
/-- SEAL_BROKEN (R511). -/
def stSecuritySealBroken : FieldDef := ⟨0x20, 10, 1, .ro, .open, 0, .p, 0, 1⟩
/-- DEBUG_EN (R511). -/
def stSecurityDebugEn : FieldDef := ⟨0x20, 11, 1, .ro, .open, 0, .p, 0, 1⟩
/-- SLOT_RUNNING (R511). -/
def stSecuritySlotRunning : FieldDef := ⟨0x20, 12, 2, .ro, .open, 0, .m, 0, 3⟩
/-- FALLBACK_BOOT (R511). -/
def stSecurityFallbackBoot : FieldDef := ⟨0x20, 14, 1, .ro, .open, 0, .m, 0, 1⟩
/-- PRESENCE_OPEN bit of EVENT (R511). -/
def evSecurityPresenceOpen : Nat := 8
/-- PRESENCE_CLOSED bit of EVENT (R511). -/
def evSecurityPresenceClosed : Nat := 9
/-- SEAL_OPENED bit of EVENT (R511). -/
def evSecuritySealOpened : Nat := 10
/-- BOOT_FALLBACK bit of EVENT (R511). -/
def evSecurityBootFallback : Nat := 11
/-- IMAGE_REJECTED bit of EVENT (R511). -/
def evSecurityImageRejected : Nat := 12
/-- SVN_ADVANCED bit of EVENT (R511). -/
def evSecuritySvnAdvanced : Nat := 13
/-- OTS_LOW bit of EVENT (R511). -/
def evSecurityOtsLow : Nat := 14
/-- OTS_EXHAUSTED bit of EVENT (R511). -/
def evSecurityOtsExhausted : Nat := 15
/-- CTRL_BAD bit of EVENT (R511). -/
def evSecurityCtrlBad : Nat := 16
/-- SEAL_MARGINAL bit of EVENT (R511). -/
def evSecuritySealMarginal : Nat := 17
/-- PRESENCE_LEFT (R512). -/
def fSecurityPresenceLeft : FieldDef := ⟨0x100, 0, 9, .ro, .open, 0, .a, 0, 511⟩
/-- PRESENCE_CLOSE (R512). -/
def fSecurityPresenceClose : FieldDef := ⟨0x104, 0, 1, .wa, .open, 0, .v, 0, 1⟩
/-- SVN_COMMIT (R512). -/
def fSecuritySvnCommit : FieldDef := ⟨0x104, 1, 1, .wa, .presence, 0, .v, 0, 1⟩
/-- ERASE_A (R512). -/
def fSecurityEraseA : FieldDef := ⟨0x104, 2, 1, .wa, .presence, 0, .v, 0, 1⟩
/-- ERASE_B (R512). -/
def fSecurityEraseB : FieldDef := ⟨0x104, 3, 1, .wa, .presence, 0, .v, 0, 1⟩
/-- SVN_FUSE (R512). -/
def fSecuritySvnFuse : FieldDef := ⟨0x108, 0, 6, .ro, .open, 0, .p, 0, 63⟩
/-- SVN_RUNNING (R512). -/
def fSecuritySvnRunning : FieldDef := ⟨0x108, 8, 6, .ro, .open, 0, .m, 0, 63⟩
/-- STATE_A (R512). -/
def fSecurityStateA : FieldDef := ⟨0x10c, 0, 2, .ro, .open, 0, .p, 0, 3⟩
/-- STATE_B (R512). -/
def fSecurityStateB : FieldDef := ⟨0x10c, 8, 2, .ro, .open, 0, .p, 0, 3⟩
/-- SVN_A (R512). -/
def fSecuritySvnA : FieldDef := ⟨0x10c, 2, 6, .ro, .open, 0, .p, 0, 63⟩
/-- SVN_B (R512). -/
def fSecuritySvnB : FieldDef := ⟨0x10c, 10, 6, .ro, .open, 0, .p, 0, 63⟩
/-- OTS_NEXT (R512). -/
def fSecurityOtsNext : FieldDef := ⟨0x110, 0, 21, .ro, .open, 0, .p, 0, 2097151⟩
/-- OTS_FUSES (R512). -/
def fSecurityOtsFuses : FieldDef := ⟨0x114, 0, 9, .ro, .open, 0, .p, 0, 511⟩

/-! ### timeBase -/

/-- LOCKED (R211). -/
def stTimeBaseLocked : FieldDef := ⟨0x20, 8, 1, .ro, .open, 0, .v, 0, 1⟩
/-- HOLDOVER (R211). -/
def stTimeBaseHoldover : FieldDef := ⟨0x20, 9, 1, .ro, .open, 0, .v, 0, 1⟩
/-- GROUP_SYNC (R211). -/
def stTimeBaseGroupSync : FieldDef := ⟨0x20, 10, 1, .ro, .open, 0, .v, 0, 1⟩
/-- SYNCED (R211). -/
def stTimeBaseSynced : FieldDef := ⟨0x20, 11, 1, .ro, .open, 0, .v, 0, 1⟩
/-- REF_LOST bit of EVENT (R211). -/
def evTimeBaseRefLost : Nat := 8
/-- SYNC_LOST bit of EVENT (R211). -/
def evTimeBaseSyncLost : Nat := 9
/-- TIME_STEPPED bit of EVENT (R211). -/
def evTimeBaseTimeStepped : Nat := 10
/-- SYNC_REGAINED bit of EVENT (R211). -/
def evTimeBaseSyncRegained : Nat := 11
/-- SYNC_TOL (R212). -/
def fTimeBaseSyncTol : FieldDef := ⟨0x100, 0, 10, .rw, .guarded, 2, .m, 1, 1000⟩
/-- OFFSET (R212). -/
def fTimeBaseOffset : FieldDef := ⟨0x104, 0, 32, .ro, .open, 0, .v, 0, 4294967295⟩

/-! ### power -/

/-- WARN_ACTIVE (R440). -/
def stPowerWarnActive : FieldDef := ⟨0x20, 8, 1, .ro, .open, 0, .v, 0, 1⟩
/-- CAPPED (R440). -/
def stPowerCapped : FieldDef := ⟨0x20, 9, 1, .ro, .open, 0, .v, 0, 1⟩
/-- PL_ASSERTED (R440). -/
def stPowerPlAsserted : FieldDef := ⟨0x20, 10, 1, .ro, .open, 0, .v, 0, 1⟩
/-- FREQ_PENDING (R440). -/
def stPowerFreqPending : FieldDef := ⟨0x20, 11, 1, .ro, .open, 0, .v, 0, 1⟩
/-- SUPPLY_WARN bit of EVENT (R440). -/
def evPowerSupplyWarn : Nat := 8
/-- SUPPLY_OK bit of EVENT (R440). -/
def evPowerSupplyOk : Nat := 9
/-- SUPPLY_HIGH bit of EVENT (R440). -/
def evPowerSupplyHigh : Nat := 10
/-- CAP_LOCAL bit of EVENT (R440). -/
def evPowerCapLocal : Nat := 11
/-- CAP_CLEARED bit of EVENT (R440). -/
def evPowerCapCleared : Nat := 12
/-- FREQ_STEP bit of EVENT (R440). -/
def evPowerFreqStep : Nat := 13
/-- VOLT_LATE bit of EVENT (R440). -/
def evPowerVoltLate : Nat := 14
/-- FREQ_LATE bit of EVENT (R440). -/
def evPowerFreqLate : Nat := 15
/-- PHASE_FAULT bit of EVENT (R440). -/
def evPowerPhaseFault : Nat := 16
/-- RAIL_FAULT bit of EVENT (R440). -/
def evPowerRailFault : Nat := 17
/-- CTRL_BAD bit of EVENT (R440). -/
def evPowerCtrlBad : Nat := 18
/-- BUDGET (R441). -/
def fPowerBudget : FieldDef := ⟨0x100, 0, 11, .rw, .open, 1300, .m, 300, 1300⟩
/-- FREQ_MAX (R441). -/
def fPowerFreqMax : FieldDef := ⟨0x100, 16, 7, .rw, .open, 58, .m, 0, 58⟩
/-- PL_BUDGET (R441). -/
def fPowerPlBudget : FieldDef := ⟨0x104, 0, 11, .rw, .guarded, 650, .m, 300, 1300⟩
/-- PL_DUTY (R441). -/
def fPowerPlDuty : FieldDef := ⟨0x104, 16, 4, .rw, .guarded, 4, .m, 1, 15⟩
/-- FREQ_LEAD (R441). -/
def fPowerFreqLead : FieldDef := ⟨0x108, 0, 12, .rw, .guarded, 1000, .m, 1000, 4095⟩
/-- FREQ_HOLD (R441). -/
def fPowerFreqHold : FieldDef := ⟨0x108, 16, 8, .rw, .guarded, 10, .m, 1, 255⟩
/-- P_LIM (R441). -/
def fPowerPLim : FieldDef := ⟨0x10c, 0, 11, .ro, .open, 650, .v, 0, 2047⟩
/-- LIMITER (R441). -/
def fPowerLimiter : FieldDef := ⟨0x10c, 16, 3, .ro, .open, 0, .v, 0, 7⟩
/-- P_STATIC (R441). -/
def fPowerPStatic : FieldDef := ⟨0x10c, 20, 11, .ro, .open, 250, .p, 0, 2047⟩
/-- P_IN (R441). -/
def fPowerPIn : FieldDef := ⟨0x110, 0, 11, .ro, .open, 0, .v, 0, 2047⟩
/-- V_IN (R441). -/
def fPowerVIn : FieldDef := ⟨0x110, 16, 10, .ro, .open, 0, .v, 0, 1023⟩
/-- F_GROUP (R441). -/
def fPowerFGroup : FieldDef := ⟨0x114, 0, 7, .ro, .open, 0, .v, 0, 127⟩
/-- F_ALLOW (R441). -/
def fPowerFAllow : FieldDef := ⟨0x114, 8, 7, .ro, .open, 0, .v, 0, 127⟩
/-- CAP_DUTY (R441). -/
def fPowerCapDuty : FieldDef := ⟨0x114, 16, 4, .ro, .open, 16, .v, 0, 15⟩
/-- ALERT_EN (R441). -/
def fPowerAlertEn : FieldDef := ⟨0x118, 0, 6, .rw, .guarded, 63, .m, 0, 63⟩
/-- SUPPLY_WARN_COUNT (R441). -/
def fPowerSupplyWarnCount : FieldDef := ⟨0x120, 0, 32, .rc, .open, 0, .v, 0, 4294967295⟩
/-- CAP_COUNT (R441). -/
def fPowerCapCount : FieldDef := ⟨0x124, 0, 32, .rc, .open, 0, .v, 0, 4294967295⟩
/-- FREQ_STEP_COUNT (R441). -/
def fPowerFreqStepCount : FieldDef := ⟨0x128, 0, 32, .rc, .open, 0, .v, 0, 4294967295⟩
/-- PHASE_FAULT_COUNT (R441). -/
def fPowerPhaseFaultCount : FieldDef := ⟨0x12c, 0, 32, .rc, .open, 0, .v, 0, 4294967295⟩

/-! ### thermal -/

/-- DIE_THROTTLED (R444). -/
def stThermalDieThrottled : FieldDef := ⟨0x20, 8, 4, .ro, .open, 0, .v, 0, 15⟩
/-- ROTATION (R444). -/
def stThermalRotation : FieldDef := ⟨0x20, 12, 1, .ro, .open, 0, .m, 0, 1⟩
/-- DIE_TRIPPED (R444). -/
def stThermalDieTripped : FieldDef := ⟨0x20, 13, 4, .ro, .open, 0, .v, 0, 15⟩
/-- THROTTLE bit of EVENT (R444). -/
def evThermalThrottle : Nat := 8
/-- TRIP bit of EVENT (R444). -/
def evThermalTrip : Nat := 9
/-- FLOW_LOW bit of EVENT (R444). -/
def evThermalFlowLow : Nat := 10
/-- FLOW_LOST bit of EVENT (R444). -/
def evThermalFlowLost : Nat := 11
/-- INLET_HIGH bit of EVENT (R444). -/
def evThermalInletHigh : Nat := 12
/-- INLET_LOW bit of EVENT (R444). -/
def evThermalInletLow : Nat := 13
/-- OUTLET_HIGH bit of EVENT (R444). -/
def evThermalOutletHigh : Nat := 14
/-- HEAT_IMBALANCE bit of EVENT (R444). -/
def evThermalHeatImbalance : Nat := 15
/-- SENSOR_OPEN bit of EVENT (R444). -/
def evThermalSensorOpen : Nat := 16
/-- CTRL_BAD bit of EVENT (R444). -/
def evThermalCtrlBad : Nat := 17
/-- T_THROTTLE (R445). -/
def fThermalTThrottle : FieldDef := ⟨0x100, 0, 7, .rw, .guarded, 90, .m, 70, 95⟩
/-- COOLANT (R445). -/
def fThermalCoolant : FieldDef := ⟨0x100, 8, 1, .rw, .guarded, 0, .m, 0, 1⟩
/-- HB_EN (R445). -/
def fThermalHbEn : FieldDef := ⟨0x100, 9, 1, .rw, .guarded, 1, .m, 0, 1⟩
/-- ROT_PERIOD (R445). -/
def fThermalRotPeriod : FieldDef := ⟨0x104, 0, 8, .rw, .guarded, 8, .m, 1, 100⟩
/-- ROT_DUTY (R445). -/
def fThermalRotDuty : FieldDef := ⟨0x104, 8, 4, .rw, .guarded, 8, .m, 4, 15⟩
/-- TRIP_CLEAR (R445). -/
def fThermalTripClear : FieldDef := ⟨0x104, 16, 1, .wa, .guarded, 0, .v, 0, 1⟩
/-- T_IN (R445). -/
def fThermalTIn : FieldDef := ⟨0x108, 0, 16, .ro, .open, 32768, .v, 0, 65535⟩
/-- T_OUT (R445). -/
def fThermalTOut : FieldDef := ⟨0x108, 16, 16, .ro, .open, 32768, .v, 0, 65535⟩
/-- FLOW (R445). -/
def fThermalFlow : FieldDef := ⟨0x10c, 0, 12, .ro, .open, 4095, .v, 0, 4095⟩
/-- T_MAX (R445). -/
def fThermalTMax : FieldDef := ⟨0x10c, 16, 8, .ro, .open, 255, .v, 0, 255⟩
/-- HOT_WARD (R445). -/
def fThermalHotWard : FieldDef := ⟨0x10c, 24, 5, .ro, .open, 0, .v, 0, 31⟩
/-- Q_COOL (R445). -/
def fThermalQCool : FieldDef := ⟨0x110, 0, 11, .ro, .open, 0, .v, 0, 2047⟩
/-- THROTTLE_COUNT (R445). -/
def fThermalThrottleCount : FieldDef := ⟨0x120, 0, 32, .rc, .open, 0, .v, 0, 4294967295⟩
/-- TRIP_COUNT (R445). -/
def fThermalTripCount : FieldDef := ⟨0x124, 0, 32, .rc, .open, 0, .v, 0, 4294967295⟩
/-- IMBALANCE_COUNT (R445). -/
def fThermalImbalanceCount : FieldDef := ⟨0x128, 0, 32, .rc, .open, 0, .v, 0, 4294967295⟩

/-! ### health -/

/-- DEGRADED (R465). -/
def stHealthDegraded : FieldDef := ⟨0x20, 8, 1, .ro, .open, 0, .v, 0, 1⟩
/-- MGR_DEGRADED (R465). -/
def stHealthMgrDegraded : FieldDef := ⟨0x20, 9, 1, .ro, .open, 0, .v, 0, 1⟩
/-- RISK_HIGH (R465). -/
def stHealthRiskHigh : FieldDef := ⟨0x20, 10, 1, .ro, .open, 0, .v, 0, 1⟩
/-- QUEUED (R465). -/
def stHealthQueued : FieldDef := ⟨0x20, 11, 1, .ro, .open, 0, .v, 0, 1⟩
/-- DOWN (R465). -/
def stHealthDown : FieldDef := ⟨0x20, 12, 1, .ro, .open, 0, .v, 0, 1⟩
/-- CORE_FENCED bit of EVENT (R465). -/
def evHealthCoreFenced : Nat := 8
/-- SPARE_IN bit of EVENT (R465). -/
def evHealthSpareIn : Nat := 9
/-- DEGRADED bit of EVENT (R465). -/
def evHealthDegraded : Nat := 10
/-- SPARE_EXHAUSTED bit of EVENT (R465). -/
def evHealthSpareExhausted : Nat := 11
/-- MGR_CORE_LOST bit of EVENT (R465). -/
def evHealthMgrCoreLost : Nat := 12
/-- RISK_REPORTED bit of EVENT (R465). -/
def evHealthRiskReported : Nat := 13
/-- DOMAIN_FAILED bit of EVENT (R465). -/
def evHealthDomainFailed : Nat := 14
/-- LOG_WRAPPED bit of EVENT (R465). -/
def evHealthLogWrapped : Nat := 15
/-- LOG_LOST bit of EVENT (R465). -/
def evHealthLogLost : Nat := 16
/-- CTRL_BAD bit of EVENT (R465). -/
def evHealthCtrlBad : Nat := 17
/-- FENCE_UE_LIMIT (R466). -/
def fHealthFenceUeLimit : FieldDef := ⟨0x100, 0, 4, .rw, .guarded, 2, .m, 1, 15⟩
/-- RISK_SHIFT (R466). -/
def fHealthRiskShift : FieldDef := ⟨0x100, 8, 5, .rw, .guarded, 9, .m, 4, 16⟩
/-- CORES_SERVICEABLE (R466). -/
def fHealthCoresServiceable : FieldDef := ⟨0x104, 0, 11, .ro, .open, 1152, .v, 0, 2047⟩
/-- SPARES_LEFT (R466). -/
def fHealthSparesLeft : FieldDef := ⟨0x104, 16, 7, .ro, .open, 64, .p, 0, 127⟩
/-- RISK (R466). -/
def fHealthRisk : FieldDef := ⟨0x108, 0, 8, .ro, .open, 0, .a, 0, 255⟩
/-- RISK_PEAK (R466). -/
def fHealthRiskPeak : FieldDef := ⟨0x108, 8, 8, .rc, .open, 0, .a, 0, 255⟩
/-- MGR_IN_SERVICE (R466). -/
def fHealthMgrInService : FieldDef := ⟨0x108, 16, 5, .ro, .open, 16, .p, 0, 31⟩
/-- MGR_SPARES (R466). -/
def fHealthMgrSpares : FieldDef := ⟨0x108, 21, 2, .ro, .open, 2, .p, 0, 3⟩
/-- FENCE_COUNT (R466). -/
def fHealthFenceCount : FieldDef := ⟨0x120, 0, 32, .rc, .open, 0, .v, 0, 4294967295⟩
/-- SPARE_IN_COUNT (R466). -/
def fHealthSpareInCount : FieldDef := ⟨0x124, 0, 32, .rc, .open, 0, .v, 0, 4294967295⟩
/-- LOG_LOST_COUNT (R466). -/
def fHealthLogLostCount : FieldDef := ⟨0x128, 0, 32, .rc, .open, 0, .v, 0, 4294967295⟩
/-- RISK_REPORT_COUNT (R466). -/
def fHealthRiskReportCount : FieldDef := ⟨0x12c, 0, 32, .rc, .open, 0, .v, 0, 4294967295⟩

/-! ### store0 -/

/-- READ_ONLY (R393). -/
def stStore0ReadOnly : FieldDef := ⟨0x20, 8, 1, .ro, .open, 0, .p, 0, 1⟩
/-- RETIRE_ACTIVE (R393). -/
def stStore0RetireActive : FieldDef := ⟨0x20, 9, 1, .ro, .open, 0, .v, 0, 1⟩
/-- BLOCK_RETIRED bit of EVENT (R393). -/
def evStore0BlockRetired : Nat := 8
/-- EOL_WARN bit of EVENT (R393). -/
def evStore0EolWarn : Nat := 9
/-- END_OF_LIFE bit of EVENT (R393). -/
def evStore0EndOfLife : Nat := 10
/-- FLASH_DIE_FAILED bit of EVENT (R393). -/
def evStore0FlashDieFailed : Nat := 11
/-- CTRL_BAD bit of EVENT (R393). -/
def evStore0CtrlBad : Nat := 20
/-- REFRESH_EN (R394). -/
def fStore0RefreshEn : FieldDef := ⟨0x100, 0, 1, .rw, .guarded, 1, .p, 0, 1⟩
/-- REFRESH_DAYS (R394). -/
def fStore0RefreshDays : FieldDef := ⟨0x100, 8, 8, .rw, .guarded, 30, .p, 1, 180⟩
/-- EOL_WARN_PCT (R394). -/
def fStore0EolWarnPct : FieldDef := ⟨0x100, 16, 7, .rw, .guarded, 10, .p, 1, 50⟩
/-- SPARE_MIN (R394). -/
def fStore0SpareMin : FieldDef := ⟨0x104, 0, 10, .ro, .open, 696, .p, 0, 1023⟩
/-- SPARE_MIN_DIE (R394). -/
def fStore0SpareMinDie : FieldDef := ⟨0x104, 16, 6, .ro, .open, 0, .p, 0, 63⟩
/-- DIES_FAILED (R394). -/
def fStore0DiesFailed : FieldDef := ⟨0x108, 0, 7, .ro, .open, 0, .p, 0, 127⟩
/-- PROG_MIB_COUNT (R394). -/
def fStore0ProgMibCount : FieldDef := ⟨0x120, 0, 32, .rc, .open, 0, .v, 0, 4294967295⟩
/-- UNIT_LOST_COUNT (R394). -/
def fStore0UnitLostCount : FieldDef := ⟨0x124, 0, 32, .rc, .open, 0, .v, 0, 4294967295⟩
/-- BLOCK_RETIRED_COUNT (R394). -/
def fStore0BlockRetiredCount : FieldDef := ⟨0x128, 0, 32, .rc, .open, 0, .v, 0, 4294967295⟩
/-- REFRESH_COUNT (R394). -/
def fStore0RefreshCount : FieldDef := ⟨0x12c, 0, 32, .rc, .open, 0, .v, 0, 4294967295⟩

/-! ### store1 -/

/-- CAPTURING (R393). -/
def stStore1Capturing : FieldDef := ⟨0x20, 8, 1, .ro, .open, 0, .v, 0, 1⟩
/-- STREAMING (R393). -/
def stStore1Streaming : FieldDef := ⟨0x20, 9, 1, .ro, .open, 0, .v, 0, 1⟩
/-- CLUTCH_SECURED bit of EVENT (R393). -/
def evStore1ClutchSecured : Nat := 8
/-- CLUTCH_FAILED bit of EVENT (R393). -/
def evStore1ClutchFailed : Nat := 9
/-- CLUTCH_DEGRADED bit of EVENT (R393). -/
def evStore1ClutchDegraded : Nat := 10
/-- CTRL_BAD bit of EVENT (R393). -/
def evStore1CtrlBad : Nat := 20
/-- AUTO_EN (R394). -/
def fStore1AutoEn : FieldDef := ⟨0x100, 0, 1, .rw, .guarded, 1, .m, 0, 1⟩
/-- K (R394). -/
def fStore1K : FieldDef := ⟨0x100, 1, 4, .rw, .guarded, 0, .m, 0, 14⟩
/-- STRIDE_EN (R394). -/
def fStore1StrideEn : FieldDef := ⟨0x100, 5, 1, .rw, .guarded, 1, .m, 0, 1⟩
/-- RISK_MAX (R394). -/
def fStore1RiskMax : FieldDef := ⟨0x100, 8, 4, .rw, .guarded, 8, .m, 0, 8⟩
/-- RISK_LEVEL (R394). -/
def fStore1RiskLevel : FieldDef := ⟨0x100, 16, 8, .rw, .guarded, 192, .m, 1, 255⟩
/-- CLUTCH_PERIOD (R394). -/
def fStore1ClutchPeriod : FieldDef := ⟨0x104, 0, 16, .rw, .guarded, 3600, .m, 60, 65535⟩
/-- TRIGGER (R394). -/
def fStore1Trigger : FieldDef := ⟨0x108, 0, 1, .wa, .guarded, 0, .v, 0, 1⟩
/-- CAPTURE_ABORT (R394). -/
def fStore1CaptureAbort : FieldDef := ⟨0x108, 1, 1, .wa, .guarded, 0, .v, 0, 1⟩
/-- LATEST (R394). -/
def fStore1Latest : FieldDef := ⟨0x10c, 0, 32, .ro, .open, 0, .p, 0, 4294967295⟩
/-- PREVIOUS (R394). -/
def fStore1Previous : FieldDef := ⟨0x110, 0, 32, .ro, .open, 0, .p, 0, 4294967295⟩
/-- CAPTURE (R394). -/
def fStore1Capture : FieldDef := ⟨0x114, 0, 32, .ro, .open, 0, .v, 0, 4294967295⟩
/-- CLUTCH_SECURED_COUNT (R394). -/
def fStore1ClutchSecuredCount : FieldDef := ⟨0x120, 0, 32, .rc, .open, 0, .v, 0, 4294967295⟩
/-- CLUTCH_FAILED_COUNT (R394). -/
def fStore1ClutchFailedCount : FieldDef := ⟨0x124, 0, 32, .rc, .open, 0, .v, 0, 4294967295⟩
/-- RISK_DENIED_COUNT (R394). -/
def fStore1RiskDeniedCount : FieldDef := ⟨0x128, 0, 32, .rc, .open, 0, .v, 0, 4294967295⟩

/-! ### store2 -/

/-- RESTORING (R393). -/
def stStore2Restoring : FieldDef := ⟨0x20, 8, 1, .ro, .open, 0, .v, 0, 1⟩
/-- REPROTECTING (R393). -/
def stStore2Reprotecting : FieldDef := ⟨0x20, 9, 1, .ro, .open, 0, .v, 0, 1⟩
/-- WAIT_STANDBY (R393). -/
def stStore2WaitStandby : FieldDef := ⟨0x20, 10, 1, .ro, .open, 0, .v, 0, 1⟩
/-- RESTORE_DONE bit of EVENT (R393). -/
def evStore2RestoreDone : Nat := 8
/-- RESTORE_FAILED bit of EVENT (R393). -/
def evStore2RestoreFailed : Nat := 9
/-- RNG_REALIGNED bit of EVENT (R393). -/
def evStore2RngRealigned : Nat := 10
/-- FALLBACK bit of EVENT (R393). -/
def evStore2Fallback : Nat := 11
/-- TAKEOVER bit of EVENT (R393). -/
def evStore2Takeover : Nat := 12
/-- CTRL_BAD bit of EVENT (R393). -/
def evStore2CtrlBad : Nat := 20
/-- RESTORE (R394). -/
def fStore2Restore : FieldDef := ⟨0x100, 0, 1, .wa, .guarded, 0, .v, 0, 1⟩
/-- RESTORE_ABORT (R394). -/
def fStore2RestoreAbort : FieldDef := ⟨0x100, 1, 1, .wa, .guarded, 0, .v, 0, 1⟩
/-- GM_WAIT (R394). -/
def fStore2GmWait : FieldDef := ⟨0x104, 0, 12, .rw, .guarded, 60, .m, 1, 3600⟩

/-! ### store3 -/

/-- TRANSFER (R393). -/
def stStore3Transfer : FieldDef := ⟨0x20, 8, 1, .ro, .open, 0, .v, 0, 1⟩
/-- XFER_DONE bit of EVENT (R393). -/
def evStore3XferDone : Nat := 8
/-- XFER_FAILED bit of EVENT (R393). -/
def evStore3XferFailed : Nat := 9
/-- CTRL_BAD bit of EVENT (R393). -/
def evStore3CtrlBad : Nat := 20
/-- EXPORT (R394). -/
def fStore3Export : FieldDef := ⟨0x100, 0, 1, .wa, .guarded, 0, .v, 0, 1⟩
/-- IMPORT (R394). -/
def fStore3Import : FieldDef := ⟨0x100, 1, 1, .wa, .guarded, 0, .v, 0, 1⟩
/-- XFER_ABORT (R394). -/
def fStore3XferAbort : FieldDef := ⟨0x100, 2, 1, .wa, .guarded, 0, .v, 0, 1⟩

/-! ### mgmtLink -/

/-- LINK_UP (R497). -/
def stMgmtLinkLinkUp : FieldDef := ⟨0x20, 8, 1, .ro, .open, 0, .v, 0, 1⟩
/-- FEC_ON (R497). -/
def stMgmtLinkFecOn : FieldDef := ⟨0x20, 9, 1, .ro, .open, 0, .v, 0, 1⟩
/-- LINK_UP bit of EVENT (R497). -/
def evMgmtLinkLinkUp : Nat := 8
/-- LINK_DOWN bit of EVENT (R497). -/
def evMgmtLinkLinkDown : Nat := 9
/-- CTRL_BAD bit of EVENT (R497). -/
def evMgmtLinkCtrlBad : Nat := 10
/-- FEC_EN (R498). -/
def fMgmtLinkFecEn : FieldDef := ⟨0x100, 0, 1, .rw, .guarded, 1, .p, 0, 1⟩
/-- RX_FRAMES (R498). -/
def fMgmtLinkRxFrames : FieldDef := ⟨0x120, 0, 32, .rc, .open, 0, .v, 0, 4294967295⟩
/-- FCS_ERR_COUNT (R498). -/
def fMgmtLinkFcsErrCount : FieldDef := ⟨0x124, 0, 32, .rc, .open, 0, .v, 0, 4294967295⟩
/-- TX_FRAMES (R498). -/
def fMgmtLinkTxFrames : FieldDef := ⟨0x128, 0, 32, .rc, .open, 0, .v, 0, 4294967295⟩

/-! ### mgmtSession -/

/-- SESSION (R497). -/
def stMgmtSessionSession : FieldDef := ⟨0x20, 8, 1, .ro, .open, 0, .v, 0, 1⟩
/-- SESSION_OPEN bit of EVENT (R497). -/
def evMgmtSessionSessionOpen : Nat := 8
/-- SESSION_END bit of EVENT (R497). -/
def evMgmtSessionSessionEnd : Nat := 9
/-- SESSION_REFUSED bit of EVENT (R497). -/
def evMgmtSessionSessionRefused : Nat := 10
/-- MSG_BAD bit of EVENT (R497). -/
def evMgmtSessionMsgBad : Nat := 11
/-- CTRL_BAD bit of EVENT (R497). -/
def evMgmtSessionCtrlBad : Nat := 12
/-- UDP_PORT (R498). -/
def fMgmtSessionUdpPort : FieldDef := ⟨0x100, 0, 16, .rw, .guarded, 7450, .p, 1024, 65535⟩
/-- IP4_DHCP (R498). -/
def fMgmtSessionIp4Dhcp : FieldDef := ⟨0x100, 16, 1, .rw, .guarded, 1, .p, 0, 1⟩
/-- IP6_EN (R498). -/
def fMgmtSessionIp6En : FieldDef := ⟨0x100, 17, 1, .rw, .guarded, 1, .p, 0, 1⟩
/-- SESSION_IDLE (R498). -/
def fMgmtSessionSessionIdle : FieldDef := ⟨0x104, 0, 10, .rw, .guarded, 10, .m, 1, 600⟩
/-- IPV4_ADDR (R498). -/
def fMgmtSessionIpv4Addr : FieldDef := ⟨0x108, 0, 32, .rw, .guarded, 0, .p, 0, 4294967295⟩
/-- IPV4_PREFIX (R498). -/
def fMgmtSessionIpv4Prefix : FieldDef := ⟨0x10c, 0, 6, .rw, .guarded, 24, .p, 1, 32⟩
/-- MSG_BAD_COUNT (R498). -/
def fMgmtSessionMsgBadCount : FieldDef := ⟨0x120, 0, 32, .rc, .open, 0, .v, 0, 4294967295⟩
/-- RESEND_COUNT (R498). -/
def fMgmtSessionResendCount : FieldDef := ⟨0x124, 0, 32, .rc, .open, 0, .v, 0, 4294967295⟩

/-! ### port -/

/-- STATE (R273). -/
def stPortState : FieldDef := ⟨0x20, 8, 4, .ro, .open, 0, .v, 0, 15⟩
/-- TX_WIDTH (R273). -/
def stPortTxWidth : FieldDef := ⟨0x20, 12, 4, .ro, .open, 0, .v, 0, 15⟩
/-- RX_WIDTH (R273). -/
def stPortRxWidth : FieldDef := ⟨0x20, 16, 4, .ro, .open, 0, .v, 0, 15⟩
/-- LASER_OK (R273). -/
def stPortLaserOk : FieldDef := ⟨0x20, 20, 1, .ro, .open, 0, .v, 0, 1⟩
/-- SWAP_ACTIVE (R273). -/
def stPortSwapActive : FieldDef := ⟨0x20, 21, 1, .ro, .open, 0, .v, 0, 1⟩
/-- SWAP_QUEUED (R273). -/
def stPortSwapQueued : FieldDef := ⟨0x20, 22, 1, .ro, .open, 0, .v, 0, 1⟩
/-- REPLANNING (R273). -/
def stPortReplanning : FieldDef := ⟨0x20, 23, 1, .ro, .open, 0, .v, 0, 1⟩
/-- LINK_UP bit of EVENT (R273). -/
def evPortLinkUp : Nat := 8
/-- LINK_DOWN bit of EVENT (R273). -/
def evPortLinkDown : Nat := 9
/-- RETRAIN_START bit of EVENT (R273). -/
def evPortRetrainStart : Nat := 10
/-- LANE_SWAPPED bit of EVENT (R273). -/
def evPortLaneSwapped : Nat := 11
/-- LANE_NARROWED bit of EVENT (R273). -/
def evPortLaneNarrowed : Nat := 12
/-- LASER_LOW bit of EVENT (R273). -/
def evPortLaserLow : Nat := 13
/-- SELF_LINK bit of EVENT (R273). -/
def evPortSelfLink : Nat := 14
/-- PARTNER_CHANGED bit of EVENT (R273). -/
def evPortPartnerChanged : Nat := 15
/-- SPARE_EXHAUSTED bit of EVENT (R273). -/
def evPortSpareExhausted : Nat := 16
/-- CTRL_BAD bit of EVENT (R273). -/
def evPortCtrlBad : Nat := 17
/-- ENABLE (R274). -/
def fPortEnable : FieldDef := ⟨0x100, 0, 1, .rw, .guarded, 0, .w, 0, 1⟩
/-- LOOPBACK (R274). -/
def fPortLoopback : FieldDef := ⟨0x100, 1, 1, .rw, .guarded, 0, .w, 0, 1⟩
/-- TIME_UPSTREAM (R274). -/
def fPortTimeUpstream : FieldDef := ⟨0x100, 2, 1, .rw, .guarded, 0, .w, 0, 1⟩
/-- SWAP_EN (R274). -/
def fPortSwapEn : FieldDef := ⟨0x100, 3, 1, .rw, .guarded, 1, .w, 0, 1⟩
/-- NARROW_MIN (R274). -/
def fPortNarrowMin : FieldDef := ⟨0x100, 4, 4, .rw, .guarded, 4, .w, 1, 8⟩
/-- REPLAY_LIMIT (R274). -/
def fPortReplayLimit : FieldDef := ⟨0x100, 8, 8, .rw, .guarded, 8, .w, 1, 255⟩
/-- TS_INTERVAL (R274). -/
def fPortTsInterval : FieldDef := ⟨0x104, 0, 12, .rw, .guarded, 16, .w, 1, 4095⟩
/-- LANE_SWAP_LIMIT (R274). -/
def fPortLaneSwapLimit : FieldDef := ⟨0x104, 16, 5, .rw, .guarded, 17, .w, 10, 30⟩
/-- SHARE_0 (R274). -/
def fPortShare0 : FieldDef := ⟨0x108, 0, 6, .rw, .guarded, 16, .w, 0, 63⟩
/-- SHARE_1 (R274). -/
def fPortShare1 : FieldDef := ⟨0x108, 8, 6, .rw, .guarded, 16, .w, 0, 63⟩
/-- SHARE_2 (R274). -/
def fPortShare2 : FieldDef := ⟨0x108, 16, 6, .rw, .guarded, 16, .w, 0, 63⟩
/-- SHARE_3 (R274). -/
def fPortShare3 : FieldDef := ⟨0x108, 24, 6, .rw, .guarded, 16, .w, 0, 63⟩
/-- RETRAIN (R274). -/
def fPortRetrain : FieldDef := ⟨0x10c, 0, 1, .wa, .guarded, 0, .v, 0, 1⟩
/-- PORT_RESET (R274). -/
def fPortPortReset : FieldDef := ⟨0x10c, 1, 1, .wa, .guarded, 0, .v, 0, 1⟩
/-- REPLAN (R274). -/
def fPortReplan : FieldDef := ⟨0x10c, 2, 1, .wa, .guarded, 0, .v, 0, 1⟩
/-- TX_MAP_0 (R274). -/
def fPortTxMap0 : FieldDef := ⟨0x110, 0, 4, .ro, .open, 0, .v, 0, 15⟩
/-- TX_MAP_1 (R274). -/
def fPortTxMap1 : FieldDef := ⟨0x110, 4, 4, .ro, .open, 1, .v, 0, 15⟩
/-- TX_MAP_2 (R274). -/
def fPortTxMap2 : FieldDef := ⟨0x110, 8, 4, .ro, .open, 2, .v, 0, 15⟩
/-- TX_MAP_3 (R274). -/
def fPortTxMap3 : FieldDef := ⟨0x110, 12, 4, .ro, .open, 3, .v, 0, 15⟩
/-- TX_MAP_4 (R274). -/
def fPortTxMap4 : FieldDef := ⟨0x110, 16, 4, .ro, .open, 4, .v, 0, 15⟩
/-- TX_MAP_5 (R274). -/
def fPortTxMap5 : FieldDef := ⟨0x110, 20, 4, .ro, .open, 5, .v, 0, 15⟩
/-- TX_MAP_6 (R274). -/
def fPortTxMap6 : FieldDef := ⟨0x110, 24, 4, .ro, .open, 6, .v, 0, 15⟩
/-- TX_MAP_7 (R274). -/
def fPortTxMap7 : FieldDef := ⟨0x110, 28, 4, .ro, .open, 7, .v, 0, 15⟩
/-- RX_MAP_0 (R274). -/
def fPortRxMap0 : FieldDef := ⟨0x114, 0, 4, .ro, .open, 0, .v, 0, 15⟩
/-- RX_MAP_1 (R274). -/
def fPortRxMap1 : FieldDef := ⟨0x114, 4, 4, .ro, .open, 1, .v, 0, 15⟩
/-- RX_MAP_2 (R274). -/
def fPortRxMap2 : FieldDef := ⟨0x114, 8, 4, .ro, .open, 2, .v, 0, 15⟩
/-- RX_MAP_3 (R274). -/
def fPortRxMap3 : FieldDef := ⟨0x114, 12, 4, .ro, .open, 3, .v, 0, 15⟩
/-- RX_MAP_4 (R274). -/
def fPortRxMap4 : FieldDef := ⟨0x114, 16, 4, .ro, .open, 4, .v, 0, 15⟩
/-- RX_MAP_5 (R274). -/
def fPortRxMap5 : FieldDef := ⟨0x114, 20, 4, .ro, .open, 5, .v, 0, 15⟩
/-- RX_MAP_6 (R274). -/
def fPortRxMap6 : FieldDef := ⟨0x114, 24, 4, .ro, .open, 6, .v, 0, 15⟩
/-- RX_MAP_7 (R274). -/
def fPortRxMap7 : FieldDef := ⟨0x114, 28, 4, .ro, .open, 7, .v, 0, 15⟩
/-- DEAD (R274). -/
def fPortDead : FieldDef := ⟨0x118, 0, 9, .ro, .open, 0, .p, 0, 511⟩
/-- DEGRADED (R274). -/
def fPortDegraded : FieldDef := ⟨0x118, 16, 9, .ro, .open, 0, .v, 0, 511⟩
/-- LASER_PWR (R274). -/
def fPortLaserPwr : FieldDef := ⟨0x11c, 0, 16, .ro, .open, 32768, .v, 0, 65535⟩
/-- CORR_SYM_COUNT (R275). -/
def fPortCorrSymCount : FieldDef := ⟨0x120, 0, 32, .rc, .open, 0, .v, 0, 4294967295⟩
/-- UNCORR_CW_COUNT (R275). -/
def fPortUncorrCwCount : FieldDef := ⟨0x124, 0, 32, .rc, .open, 0, .v, 0, 4294967295⟩
/-- CRC_ERR_COUNT (R275). -/
def fPortCrcErrCount : FieldDef := ⟨0x128, 0, 32, .rc, .open, 0, .v, 0, 4294967295⟩
/-- REPLAY_COUNT (R275). -/
def fPortReplayCount : FieldDef := ⟨0x12c, 0, 32, .rc, .open, 0, .v, 0, 4294967295⟩
/-- RETRAIN_COUNT (R275). -/
def fPortRetrainCount : FieldDef := ⟨0x130, 0, 32, .rc, .open, 0, .v, 0, 4294967295⟩
/-- SWAP_COUNT (R275). -/
def fPortSwapCount : FieldDef := ⟨0x134, 0, 32, .rc, .open, 0, .v, 0, 4294967295⟩

/-! ### transport -/

/-- COLL_RUNNING (R311). -/
def stTransportCollRunning : FieldDef := ⟨0x20, 8, 1, .ro, .open, 0, .v, 0, 1⟩
/-- EXCH_RUNNING (R311). -/
def stTransportExchRunning : FieldDef := ⟨0x20, 9, 1, .ro, .open, 0, .v, 0, 1⟩
/-- COLL_BAD bit of EVENT (R311). -/
def evTransportCollBad : Nat := 8
/-- COLL_FAILED bit of EVENT (R311). -/
def evTransportCollFailed : Nat := 9
/-- NO_ROUTE bit of EVENT (R311). -/
def evTransportNoRoute : Nat := 10
/-- MSG_FAILED bit of EVENT (R311). -/
def evTransportMsgFailed : Nat := 11
/-- PKT_BAD bit of EVENT (R311). -/
def evTransportPktBad : Nat := 12
/-- EPOCH_DROP bit of EVENT (R311). -/
def evTransportEpochDrop : Nat := 13
/-- CAP_DROP bit of EVENT (R311). -/
def evTransportCapDrop : Nat := 14
/-- ROUTE_BAD bit of EVENT (R311). -/
def evTransportRouteBad : Nat := 15
/-- NONFINITE bit of EVENT (R311). -/
def evTransportNonfinite : Nat := 16
/-- RESERVED_SCALE bit of EVENT (R311). -/
def evTransportReservedScale : Nat := 17
/-- CTRL_BAD bit of EVENT (R311). -/
def evTransportCtrlBad : Nat := 18
/-- MSG_TIMEOUT (R312). -/
def fTransportMsgTimeout : FieldDef := ⟨0x100, 0, 14, .rw, .guarded, 1000, .m, 10, 8000⟩
/-- RETRY (R312). -/
def fTransportRetry : FieldDef := ⟨0x100, 14, 4, .rw, .guarded, 3, .m, 1, 15⟩
/-- TTL_INIT (R312). -/
def fTransportTtlInit : FieldDef := ⟨0x100, 18, 6, .rw, .guarded, 32, .m, 1, 63⟩
/-- GROUP_LEAD (R312). -/
def fTransportGroupLead : FieldDef := ⟨0x104, 0, 20, .rw, .guarded, 20000, .m, 1000, 1000000⟩
/-- EXCH_CAP (R312). -/
def fTransportExchCap : FieldDef := ⟨0x108, 0, 24, .rw, .guarded, 16777215, .m, 0, 16777215⟩
/-- COLL_ABORT (R312). -/
def fTransportCollAbort : FieldDef := ⟨0x10c, 0, 1, .wa, .guarded, 0, .v, 0, 1⟩
/-- MSG_RETRY_COUNT (R312). -/
def fTransportMsgRetryCount : FieldDef := ⟨0x120, 0, 32, .rc, .open, 0, .v, 0, 4294967295⟩
/-- MSG_FAILED_COUNT (R312). -/
def fTransportMsgFailedCount : FieldDef := ⟨0x124, 0, 32, .rc, .open, 0, .v, 0, 4294967295⟩
/-- NO_ROUTE_COUNT (R312). -/
def fTransportNoRouteCount : FieldDef := ⟨0x128, 0, 32, .rc, .open, 0, .v, 0, 4294967295⟩
/-- PKT_BAD_COUNT (R312). -/
def fTransportPktBadCount : FieldDef := ⟨0x12c, 0, 32, .rc, .open, 0, .v, 0, 4294967295⟩
/-- EPOCH_DROP_COUNT (R312). -/
def fTransportEpochDropCount : FieldDef := ⟨0x130, 0, 32, .rc, .open, 0, .v, 0, 4294967295⟩
/-- CAP_DROP_COUNT (R312). -/
def fTransportCapDropCount : FieldDef := ⟨0x134, 0, 32, .rc, .open, 0, .v, 0, 4294967295⟩
/-- COLL_DONE_COUNT (R312). -/
def fTransportCollDoneCount : FieldDef := ⟨0x138, 0, 32, .rc, .open, 0, .v, 0, 4294967295⟩
/-- INF_COUNT_0 (R312). -/
def fTransportInfCount0 : FieldDef := ⟨0x200, 0, 32, .rc, .open, 0, .v, 0, 4294967295⟩
/-- INF_COUNT_1 (R312). -/
def fTransportInfCount1 : FieldDef := ⟨0x210, 0, 32, .rc, .open, 0, .v, 0, 4294967295⟩
/-- INF_COUNT_2 (R312). -/
def fTransportInfCount2 : FieldDef := ⟨0x220, 0, 32, .rc, .open, 0, .v, 0, 4294967295⟩
/-- INF_COUNT_3 (R312). -/
def fTransportInfCount3 : FieldDef := ⟨0x230, 0, 32, .rc, .open, 0, .v, 0, 4294967295⟩
/-- NAN_COUNT_0 (R312). -/
def fTransportNanCount0 : FieldDef := ⟨0x204, 0, 32, .rc, .open, 0, .v, 0, 4294967295⟩
/-- NAN_COUNT_1 (R312). -/
def fTransportNanCount1 : FieldDef := ⟨0x214, 0, 32, .rc, .open, 0, .v, 0, 4294967295⟩
/-- NAN_COUNT_2 (R312). -/
def fTransportNanCount2 : FieldDef := ⟨0x224, 0, 32, .rc, .open, 0, .v, 0, 4294967295⟩
/-- NAN_COUNT_3 (R312). -/
def fTransportNanCount3 : FieldDef := ⟨0x234, 0, 32, .rc, .open, 0, .v, 0, 4294967295⟩
/-- RSVD_SCALE_COUNT_0 (R312). -/
def fTransportRsvdScaleCount0 : FieldDef := ⟨0x208, 0, 32, .rc, .open, 0, .v, 0, 4294967295⟩
/-- RSVD_SCALE_COUNT_1 (R312). -/
def fTransportRsvdScaleCount1 : FieldDef := ⟨0x218, 0, 32, .rc, .open, 0, .v, 0, 4294967295⟩
/-- RSVD_SCALE_COUNT_2 (R312). -/
def fTransportRsvdScaleCount2 : FieldDef := ⟨0x228, 0, 32, .rc, .open, 0, .v, 0, 4294967295⟩
/-- RSVD_SCALE_COUNT_3 (R312). -/
def fTransportRsvdScaleCount3 : FieldDef := ⟨0x238, 0, 32, .rc, .open, 0, .v, 0, 4294967295⟩

/-! ### membership -/

/-- JSTATE (R314). -/
def stMembershipJstate : FieldDef := ⟨0x20, 8, 4, .ro, .open, 0, .m, 0, 15⟩
/-- GM_REACHABLE (R314). -/
def stMembershipGmReachable : FieldDef := ⟨0x20, 12, 1, .ro, .open, 0, .v, 0, 1⟩
/-- JOINED bit of EVENT (R314). -/
def evMembershipJoined : Nat := 8
/-- JOIN_REFUSED bit of EVENT (R314). -/
def evMembershipJoinRefused : Nat := 9
/-- MEMBER_LOST bit of EVENT (R314). -/
def evMembershipMemberLost : Nat := 10
/-- GM_LOST bit of EVENT (R314). -/
def evMembershipGmLost : Nat := 11
/-- EPOCH_CHANGED bit of EVENT (R314). -/
def evMembershipEpochChanged : Nat := 12
/-- MEMBER_JOINED bit of EVENT (R314). -/
def evMembershipMemberJoined : Nat := 13
/-- BARRIER_FULL bit of EVENT (R314). -/
def evMembershipBarrierFull : Nat := 14
/-- CTRL_BAD bit of EVENT (R314). -/
def evMembershipCtrlBad : Nat := 15
/-- MODULE_ID (R315). -/
def fMembershipModuleId : FieldDef := ⟨0x100, 0, 16, .rw, .guarded, 0, .p, 0, 65519⟩
/-- GM_ID (R315). -/
def fMembershipGmId : FieldDef := ⟨0x104, 0, 16, .rw, .guarded, 0, .m, 0, 65535⟩
/-- JOB_ID (R315). -/
def fMembershipJobId : FieldDef := ⟨0x108, 0, 32, .rw, .guarded, 0, .m, 0, 4294967295⟩
/-- HB_INTERVAL (R315). -/
def fMembershipHbInterval : FieldDef := ⟨0x10c, 0, 14, .rw, .guarded, 100, .m, 10, 10000⟩
/-- HB_MISS (R315). -/
def fMembershipHbMiss : FieldDef := ⟨0x10c, 16, 8, .rw, .guarded, 8, .m, 2, 255⟩
/-- EPOCH (R315). -/
def fMembershipEpoch : FieldDef := ⟨0x110, 0, 16, .ro, .open, 0, .m, 0, 65535⟩
/-- RANK (R315). -/
def fMembershipRank : FieldDef := ⟨0x110, 16, 15, .ro, .open, 0, .m, 0, 32767⟩
/-- JOIN_RESULT (R315). -/
def fMembershipJoinResult : FieldDef := ⟨0x114, 0, 8, .ro, .open, 255, .m, 0, 255⟩
/-- JOIN_OPEN (R315). -/
def fMembershipJoinOpen : FieldDef := ⟨0x118, 0, 1, .rw, .guarded, 0, .m, 0, 1⟩
/-- JOIN (R315). -/
def fMembershipJoin : FieldDef := ⟨0x118, 1, 1, .wa, .guarded, 0, .v, 0, 1⟩
/-- WORKING_COUNT (R315). -/
def fMembershipWorkingCount : FieldDef := ⟨0x11c, 0, 15, .ro, .open, 1, .m, 0, 32767⟩
/-- STANDBY_COUNT (R315). -/
def fMembershipStandbyCount : FieldDef := ⟨0x11c, 16, 9, .ro, .open, 0, .m, 0, 511⟩
/-- EPOCH_LEAD (R315). -/
def fMembershipEpochLead : FieldDef := ⟨0x120, 0, 20, .rw, .guarded, 1000000, .m, 100000, 1000000⟩

/-! ### memCtl -/

/-- CH_UP (R243). -/
def stMemCtlChUp : FieldDef := ⟨0x20, 8, 8, .ro, .open, 0, .v, 0, 255⟩
/-- CH_FAILED (R243). -/
def stMemCtlChFailed : FieldDef := ⟨0x20, 16, 8, .ro, .open, 0, .p, 0, 255⟩
/-- REMAP_ACTIVE (R243). -/
def stMemCtlRemapActive : FieldDef := ⟨0x20, 24, 1, .ro, .open, 0, .v, 0, 1⟩
/-- SCRUB_ACTIVE (R243). -/
def stMemCtlScrubActive : FieldDef := ⟨0x20, 25, 1, .ro, .open, 0, .v, 0, 1⟩
/-- CE bit of EVENT (R243). -/
def evMemCtlCe : Nat := 8
/-- PAGE_CORR bit of EVENT (R243). -/
def evMemCtlPageCorr : Nat := 9
/-- UE bit of EVENT (R243). -/
def evMemCtlUe : Nat := 10
/-- REMAP_DONE bit of EVENT (R243). -/
def evMemCtlRemapDone : Nat := 11
/-- PAGE_RETIRED bit of EVENT (R243). -/
def evMemCtlPageRetired : Nat := 12
/-- POOL_EMPTY bit of EVENT (R243). -/
def evMemCtlPoolEmpty : Nat := 13
/-- UNBACKED bit of EVENT (R243). -/
def evMemCtlUnbacked : Nat := 14
/-- CHANNEL_FAILED bit of EVENT (R243). -/
def evMemCtlChannelFailed : Nat := 15
/-- NONFINITE bit of EVENT (R243). -/
def evMemCtlNonfinite : Nat := 16
/-- PPR_DONE bit of EVENT (R243). -/
def evMemCtlPprDone : Nat := 17
/-- CTRL_BAD bit of EVENT (R243). -/
def evMemCtlCtrlBad : Nat := 18
/-- SCRUB_EN (R244). -/
def fMemCtlScrubEn : FieldDef := ⟨0x100, 0, 1, .rw, .guarded, 1, .w, 0, 1⟩
/-- SCRUB_HOURS (R244). -/
def fMemCtlScrubHours : FieldDef := ⟨0x100, 8, 8, .rw, .guarded, 24, .w, 1, 168⟩
/-- CE_ROW_LIMIT (R244). -/
def fMemCtlCeRowLimit : FieldDef := ⟨0x100, 16, 4, .rw, .guarded, 4, .w, 1, 15⟩
/-- PPR_EN (R244). -/
def fMemCtlPprEn : FieldDef := ⟨0x100, 20, 1, .rw, .guarded, 1, .w, 0, 1⟩
/-- ENTRY (R244). -/
def fMemCtlEntry : FieldDef := ⟨0x104, 0, 8, .rw, .open, 0, .v, 0, 255⟩
/-- CHANNEL (R244). -/
def fMemCtlChannel : FieldDef := ⟨0x104, 8, 3, .rw, .open, 0, .v, 0, 7⟩
/-- RATE_0 (R244). -/
def fMemCtlRate0 : FieldDef := ⟨0x108, 0, 2, .ro, .open, 3, .m, 0, 3⟩
/-- RATE_1 (R244). -/
def fMemCtlRate1 : FieldDef := ⟨0x108, 2, 2, .ro, .open, 3, .m, 0, 3⟩
/-- RATE_2 (R244). -/
def fMemCtlRate2 : FieldDef := ⟨0x108, 4, 2, .ro, .open, 3, .m, 0, 3⟩
/-- RATE_3 (R244). -/
def fMemCtlRate3 : FieldDef := ⟨0x108, 6, 2, .ro, .open, 3, .m, 0, 3⟩
/-- RATE_4 (R244). -/
def fMemCtlRate4 : FieldDef := ⟨0x108, 8, 2, .ro, .open, 3, .m, 0, 3⟩
/-- RATE_5 (R244). -/
def fMemCtlRate5 : FieldDef := ⟨0x108, 10, 2, .ro, .open, 3, .m, 0, 3⟩
/-- RATE_6 (R244). -/
def fMemCtlRate6 : FieldDef := ⟨0x108, 12, 2, .ro, .open, 3, .m, 0, 3⟩
/-- RATE_7 (R244). -/
def fMemCtlRate7 : FieldDef := ⟨0x108, 14, 2, .ro, .open, 3, .m, 0, 3⟩
/-- POOL_FREE_0 (R244). -/
def fMemCtlPoolFree0 : FieldDef := ⟨0x140, 0, 13, .ro, .open, 4096, .p, 0, 8191⟩
/-- POOL_FREE_1 (R244). -/
def fMemCtlPoolFree1 : FieldDef := ⟨0x144, 0, 13, .ro, .open, 4096, .p, 0, 8191⟩
/-- POOL_FREE_2 (R244). -/
def fMemCtlPoolFree2 : FieldDef := ⟨0x148, 0, 13, .ro, .open, 4096, .p, 0, 8191⟩
/-- POOL_FREE_3 (R244). -/
def fMemCtlPoolFree3 : FieldDef := ⟨0x14c, 0, 13, .ro, .open, 4096, .p, 0, 8191⟩
/-- POOL_FREE_4 (R244). -/
def fMemCtlPoolFree4 : FieldDef := ⟨0x150, 0, 13, .ro, .open, 4096, .p, 0, 8191⟩
/-- POOL_FREE_5 (R244). -/
def fMemCtlPoolFree5 : FieldDef := ⟨0x154, 0, 13, .ro, .open, 4096, .p, 0, 8191⟩
/-- POOL_FREE_6 (R244). -/
def fMemCtlPoolFree6 : FieldDef := ⟨0x158, 0, 13, .ro, .open, 4096, .p, 0, 8191⟩
/-- POOL_FREE_7 (R244). -/
def fMemCtlPoolFree7 : FieldDef := ⟨0x15c, 0, 13, .ro, .open, 4096, .p, 0, 8191⟩
/-- REMAP_USED_0 (R244). -/
def fMemCtlRemapUsed0 : FieldDef := ⟨0x140, 16, 9, .ro, .open, 0, .p, 0, 511⟩
/-- REMAP_USED_1 (R244). -/
def fMemCtlRemapUsed1 : FieldDef := ⟨0x144, 16, 9, .ro, .open, 0, .p, 0, 511⟩
/-- REMAP_USED_2 (R244). -/
def fMemCtlRemapUsed2 : FieldDef := ⟨0x148, 16, 9, .ro, .open, 0, .p, 0, 511⟩
/-- REMAP_USED_3 (R244). -/
def fMemCtlRemapUsed3 : FieldDef := ⟨0x14c, 16, 9, .ro, .open, 0, .p, 0, 511⟩
/-- REMAP_USED_4 (R244). -/
def fMemCtlRemapUsed4 : FieldDef := ⟨0x150, 16, 9, .ro, .open, 0, .p, 0, 511⟩
/-- REMAP_USED_5 (R244). -/
def fMemCtlRemapUsed5 : FieldDef := ⟨0x154, 16, 9, .ro, .open, 0, .p, 0, 511⟩
/-- REMAP_USED_6 (R244). -/
def fMemCtlRemapUsed6 : FieldDef := ⟨0x158, 16, 9, .ro, .open, 0, .p, 0, 511⟩
/-- REMAP_USED_7 (R244). -/
def fMemCtlRemapUsed7 : FieldDef := ⟨0x15c, 16, 9, .ro, .open, 0, .p, 0, 511⟩
/-- CE_COUNT (R245). -/
def fMemCtlCeCount : FieldDef := ⟨0x120, 0, 32, .rc, .open, 0, .v, 0, 4294967295⟩
/-- PAGE_CORR_COUNT (R245). -/
def fMemCtlPageCorrCount : FieldDef := ⟨0x124, 0, 32, .rc, .open, 0, .v, 0, 4294967295⟩
/-- UE_COUNT (R245). -/
def fMemCtlUeCount : FieldDef := ⟨0x128, 0, 32, .rc, .open, 0, .v, 0, 4294967295⟩
/-- INF_COUNT (R245). -/
def fMemCtlInfCount : FieldDef := ⟨0x12c, 0, 32, .rc, .open, 0, .v, 0, 4294967295⟩
/-- NAN_COUNT (R245). -/
def fMemCtlNanCount : FieldDef := ⟨0x130, 0, 32, .rc, .open, 0, .v, 0, 4294967295⟩

/-! ### interleave -/

/-- QUEUE_DEPTH (R247). -/
def stInterleaveQueueDepth : FieldDef := ⟨0x20, 8, 7, .ro, .open, 0, .v, 0, 127⟩
/-- REMAP_BUSY (R247). -/
def stInterleaveRemapBusy : FieldDef := ⟨0x20, 15, 1, .ro, .open, 0, .v, 0, 1⟩
/-- RETIRE_BUSY (R247). -/
def stInterleaveRetireBusy : FieldDef := ⟨0x20, 16, 1, .ro, .open, 0, .v, 0, 1⟩
/-- QUEUE_FULL bit of EVENT (R247). -/
def evInterleaveQueueFull : Nat := 8
/-- REPLAN_PENDING bit of EVENT (R247). -/
def evInterleaveReplanPending : Nat := 9
/-- REPLANNED bit of EVENT (R247). -/
def evInterleaveReplanned : Nat := 10
/-- CAPACITY_SHRUNK bit of EVENT (R247). -/
def evInterleaveCapacityShrunk : Nat := 11
/-- FAILED_CH_0 (R247). -/
def fInterleaveFailedCh0 : FieldDef := ⟨0x100, 0, 6, .ro, .open, 63, .p, 0, 63⟩
/-- FAILED_CH_1 (R247). -/
def fInterleaveFailedCh1 : FieldDef := ⟨0x100, 8, 6, .ro, .open, 63, .p, 0, 63⟩
/-- FAILED_CH_2 (R247). -/
def fInterleaveFailedCh2 : FieldDef := ⟨0x100, 16, 6, .ro, .open, 63, .p, 0, 63⟩
/-- FAILED_CH_3 (R247). -/
def fInterleaveFailedCh3 : FieldDef := ⟨0x100, 24, 6, .ro, .open, 63, .p, 0, 63⟩
/-- REPLANNED_0 (R247). -/
def fInterleaveReplanned0 : FieldDef := ⟨0x100, 6, 1, .ro, .open, 0, .p, 0, 1⟩
/-- REPLANNED_1 (R247). -/
def fInterleaveReplanned1 : FieldDef := ⟨0x100, 14, 1, .ro, .open, 0, .p, 0, 1⟩
/-- REPLANNED_2 (R247). -/
def fInterleaveReplanned2 : FieldDef := ⟨0x100, 22, 1, .ro, .open, 0, .p, 0, 1⟩
/-- REPLANNED_3 (R247). -/
def fInterleaveReplanned3 : FieldDef := ⟨0x100, 30, 1, .ro, .open, 0, .p, 0, 1⟩
/-- UNFIT_0 (R247). -/
def fInterleaveUnfit0 : FieldDef := ⟨0x100, 7, 1, .ro, .open, 0, .p, 0, 1⟩
/-- UNFIT_1 (R247). -/
def fInterleaveUnfit1 : FieldDef := ⟨0x100, 15, 1, .ro, .open, 0, .p, 0, 1⟩
/-- UNFIT_2 (R247). -/
def fInterleaveUnfit2 : FieldDef := ⟨0x100, 23, 1, .ro, .open, 0, .p, 0, 1⟩
/-- UNFIT_3 (R247). -/
def fInterleaveUnfit3 : FieldDef := ⟨0x100, 31, 1, .ro, .open, 0, .p, 0, 1⟩
/-- UNBACKED_PAGES (R247). -/
def fInterleaveUnbackedPages : FieldDef := ⟨0x104, 0, 20, .ro, .open, 0, .p, 0, 1048575⟩

/-! ### workerDie -/

/-- STEP (R85). -/
def fWorkerDieStep : FieldDef := ⟨0x180, 0, 32, .rw, .guarded, 0, .w, 0, 4294967295⟩
/-- VERSION_MISMATCH bit of EVENT (R335). -/
def evWorkerDieVersionMismatch : Nat := 8
/-- LEDGER_BAD bit of EVENT (R335). -/
def evWorkerDieLedgerBad : Nat := 9
/-- LEDGER_CHECK_COUNT (R336). -/
def fWorkerDieLedgerCheckCount : FieldDef := ⟨0x1c0, 0, 32, .rc, .open, 0, .v, 0, 4294967295⟩
/-- VERSION_MISMATCH_COUNT (R336). -/
def fWorkerDieVersionMismatchCount : FieldDef := ⟨0x1c4, 0, 32, .rc, .open, 0, .v, 0, 4294967295⟩
/-- LEDGER_FREE (R336). -/
def fWorkerDieLedgerFree : FieldDef := ⟨0x1c8, 0, 7, .ro, .open, 64, .w, 0, 127⟩
/-- REPLAN_DONE bit of EVENT (R417). -/
def evWorkerDieReplanDone : Nat := 10
/-- REPLAN_ABORTED bit of EVENT (R417). -/
def evWorkerDieReplanAborted : Nat := 11
/-- DIE_CEIL_DROPPED bit of EVENT (R417). -/
def evWorkerDieDieCeilDropped : Nat := 12
/-- REPLAN (R418). -/
def fWorkerDieReplan : FieldDef := ⟨0x240, 0, 1, .wa, .guarded, 0, .v, 0, 1⟩
/-- REPLAN_DAYS (R418). -/
def fWorkerDieReplanDays : FieldDef := ⟨0x244, 0, 8, .rw, .guarded, 30, .p, 0, 180⟩
/-- DIE_CEIL (R418). -/
def fWorkerDieDieCeil : FieldDef := ⟨0x248, 0, 7, .ro, .open, 58, .p, 0, 127⟩
/-- FABRIC_RAISE (R418). -/
def fWorkerDieFabricRaise : FieldDef := ⟨0x248, 8, 8, .ro, .open, 0, .p, 0, 255⟩
/-- REPLAN_STEP (R418). -/
def fWorkerDieReplanStep : FieldDef := ⟨0x248, 16, 3, .ro, .open, 0, .v, 0, 7⟩
/-- REPLAN_COUNT (R418). -/
def fWorkerDieReplanCount : FieldDef := ⟨0x24c, 0, 32, .rc, .open, 0, .v, 0, 4294967295⟩

/-! ### update -/

/-- RUNNING (R359). -/
def stUpdateRunning : FieldDef := ⟨0x20, 8, 1, .ro, .open, 0, .v, 0, 1⟩
/-- PHASE (R359). -/
def stUpdatePhase : FieldDef := ⟨0x20, 9, 2, .ro, .open, 0, .v, 0, 3⟩
/-- OWED_WAITING (R359). -/
def stUpdateOwedWaiting : FieldDef := ⟨0x20, 11, 1, .ro, .open, 0, .v, 0, 1⟩
/-- UPD_BAD bit of EVENT (R359). -/
def evUpdateUpdBad : Nat := 8
/-- UPD_FAILED bit of EVENT (R359). -/
def evUpdateUpdFailed : Nat := 9
/-- UPD_SKIPPED bit of EVENT (R359). -/
def evUpdateUpdSkipped : Nat := 10
/-- JOURNAL_FAIL bit of EVENT (R359). -/
def evUpdateJournalFail : Nat := 11
/-- JOURNAL_REPLAYED bit of EVENT (R359). -/
def evUpdateJournalReplayed : Nat := 12
/-- QUEUE_LOST bit of EVENT (R359). -/
def evUpdateQueueLost : Nat := 13
/-- NONFINITE bit of EVENT (R359). -/
def evUpdateNonfinite : Nat := 14
/-- OUTLIER_SPILL bit of EVENT (R359). -/
def evUpdateOutlierSpill : Nat := 15
/-- SATURATED_BLOCKS bit of EVENT (R359). -/
def evUpdateSaturatedBlocks : Nat := 16
/-- SATURATED_VALUES bit of EVENT (R359). -/
def evUpdateSaturatedValues : Nat := 17
/-- QDESC_BAD bit of EVENT (R359). -/
def evUpdateQdescBad : Nat := 18
/-- CTRL_BAD bit of EVENT (R359). -/
def evUpdateCtrlBad : Nat := 19
/-- ENABLE (R360). -/
def fUpdateEnable : FieldDef := ⟨0x100, 0, 1, .rw, .guarded, 1, .w, 0, 1⟩
/-- UPD_PRIO (R360). -/
def fUpdateUpdPrio : FieldDef := ⟨0x100, 1, 3, .rw, .guarded, 6, .w, 0, 7⟩
/-- UPD_ABORT (R360). -/
def fUpdateUpdAbort : FieldDef := ⟨0x104, 0, 1, .wa, .guarded, 0, .v, 0, 1⟩
/-- UPD_RESUME (R360). -/
def fUpdateUpdResume : FieldDef := ⟨0x104, 1, 1, .wa, .guarded, 0, .v, 0, 1⟩
/-- UPD_DISCARD (R360). -/
def fUpdateUpdDiscard : FieldDef := ⟨0x104, 2, 1, .wa, .guarded, 0, .v, 0, 1⟩
/-- UPDATES_DONE (R360). -/
def fUpdateUpdatesDone : FieldDef := ⟨0x120, 0, 32, .rc, .open, 0, .v, 0, 4294967295⟩
/-- SUBSHARD_COUNT (R360). -/
def fUpdateSubshardCount : FieldDef := ⟨0x124, 0, 32, .rc, .open, 0, .v, 0, 4294967295⟩
/-- JOURNAL_REPLAY_COUNT (R360). -/
def fUpdateJournalReplayCount : FieldDef := ⟨0x128, 0, 32, .rc, .open, 0, .v, 0, 4294967295⟩
/-- OWED_WAIT_COUNT (R360). -/
def fUpdateOwedWaitCount : FieldDef := ⟨0x12c, 0, 32, .rc, .open, 0, .v, 0, 4294967295⟩
/-- NONFINITE_GRAD_COUNT (R360). -/
def fUpdateNonfiniteGradCount : FieldDef := ⟨0x130, 0, 32, .rc, .open, 0, .v, 0, 4294967295⟩
/-- INF_COUNT (R360). -/
def fUpdateInfCount : FieldDef := ⟨0x140, 0, 32, .rc, .open, 0, .v, 0, 4294967295⟩
/-- NAN_COUNT (R360). -/
def fUpdateNanCount : FieldDef := ⟨0x144, 0, 32, .rc, .open, 0, .v, 0, 4294967295⟩
/-- SPILL_COUNT (R360). -/
def fUpdateSpillCount : FieldDef := ⟨0x148, 0, 32, .rc, .open, 0, .v, 0, 4294967295⟩
/-- SAT_BLOCK_COUNT (R360). -/
def fUpdateSatBlockCount : FieldDef := ⟨0x14c, 0, 32, .rc, .open, 0, .v, 0, 4294967295⟩
/-- SAT_VALUE_COUNT (R360). -/
def fUpdateSatValueCount : FieldDef := ⟨0x150, 0, 32, .rc, .open, 0, .v, 0, 4294967295⟩

/-! ### dispatcher -/

/-- ENABLED (R206). -/
def stDispatcherEnabled : FieldDef := ⟨0x20, 8, 1, .ro, .open, 0, .w, 0, 1⟩
/-- PENDING (R206). -/
def stDispatcherPending : FieldDef := ⟨0x20, 9, 1, .ro, .open, 0, .v, 0, 1⟩
/-- STORE_FULL (R206). -/
def stDispatcherStoreFull : FieldDef := ⟨0x20, 10, 1, .ro, .open, 0, .v, 0, 1⟩
/-- TASK_FAIL bit of EVENT (R207). -/
def evDispatcherTaskFail : Nat := 8
/-- TILE_LOST bit of EVENT (R207). -/
def evDispatcherTileLost : Nat := 9
/-- BELL_LATE bit of EVENT (R207). -/
def evDispatcherBellLate : Nat := 10
/-- WATCH_FULL bit of EVENT (R207). -/
def evDispatcherWatchFull : Nat := 11
/-- STORE_OVERFLOW bit of EVENT (R207). -/
def evDispatcherStoreOverflow : Nat := 12
/-- RELEASE_BAD bit of EVENT (R207). -/
def evDispatcherReleaseBad : Nat := 13
/-- QUEUES_LOST bit of EVENT (R207). -/
def evDispatcherQueuesLost : Nat := 14
/-- FAIL_OVERFLOW bit of EVENT (R207). -/
def evDispatcherFailOverflow : Nat := 15
/-- CTRL_BAD bit of EVENT (R207). -/
def evDispatcherCtrlBad : Nat := 16
/-- ENABLE (R208). -/
def fDispatcherEnable : FieldDef := ⟨0x100, 0, 1, .rw, .guarded, 0, .w, 0, 1⟩
/-- REISSUE_LIMIT (R208). -/
def fDispatcherReissueLimit : FieldDef := ⟨0x100, 4, 4, .rw, .guarded, 3, .w, 0, 15⟩
/-- BELL_LEAD (R208). -/
def fDispatcherBellLead : FieldDef := ⟨0x104, 0, 20, .rw, .guarded, 5000, .w, 500, 1000000⟩
/-- STEPS_LOG2 (R208). -/
def fDispatcherStepsLog2 : FieldDef := ⟨0x108, 0, 3, .rw, .guarded, 3, .w, 0, 5⟩
/-- STEP_TICKS (R208). -/
def fDispatcherStepTicks : FieldDef := ⟨0x108, 16, 10, .rw, .guarded, 250, .w, 0, 1023⟩
/-- AGE_LIMIT (R208). -/
def fDispatcherAgeLimit : FieldDef := ⟨0x10c, 0, 24, .rw, .guarded, 1000, .w, 0, 16777215⟩
/-- PREEMPT_DELAY (R208). -/
def fDispatcherPreemptDelay : FieldDef := ⟨0x110, 0, 20, .rw, .guarded, 1000, .w, 0, 1048575⟩
/-- FAIL_POP (R208). -/
def fDispatcherFailPop : FieldDef := ⟨0x114, 0, 1, .wa, .open, 0, .v, 0, 1⟩
/-- STORE_FREE (R208). -/
def fDispatcherStoreFree : FieldDef := ⟨0x118, 0, 13, .ro, .open, 4096, .w, 0, 8191⟩
/-- WATCH_FREE (R208). -/
def fDispatcherWatchFree : FieldDef := ⟨0x118, 16, 7, .ro, .open, 64, .w, 0, 127⟩
/-- TASKS_ISSUED (R209). -/
def fDispatcherTasksIssued : FieldDef := ⟨0x120, 0, 32, .rc, .open, 0, .v, 0, 4294967295⟩
/-- TASKS_DONE (R209). -/
def fDispatcherTasksDone : FieldDef := ⟨0x124, 0, 32, .rc, .open, 0, .v, 0, 4294967295⟩
/-- TASKS_FAILED (R209). -/
def fDispatcherTasksFailed : FieldDef := ⟨0x128, 0, 32, .rc, .open, 0, .v, 0, 4294967295⟩
/-- REISSUE_COUNT (R209). -/
def fDispatcherReissueCount : FieldDef := ⟨0x12c, 0, 32, .rc, .open, 0, .v, 0, 4294967295⟩
/-- PREEMPT_COUNT (R209). -/
def fDispatcherPreemptCount : FieldDef := ⟨0x130, 0, 32, .rc, .open, 0, .v, 0, 4294967295⟩
/-- BELL_LATE_COUNT (R209). -/
def fDispatcherBellLateCount : FieldDef := ⟨0x134, 0, 32, .rc, .open, 0, .v, 0, 4294967295⟩
/-- FAIL_OVERFLOW_COUNT (R209). -/
def fDispatcherFailOverflowCount : FieldDef := ⟨0x138, 0, 32, .rc, .open, 0, .v, 0, 4294967295⟩

/-! ### ward -/

/-- NAP (R413). -/
def stWardNap : FieldDef := ⟨0x20, 8, 1, .ro, .open, 0, .v, 0, 1⟩
/-- DUTY (R413). -/
def stWardDuty : FieldDef := ⟨0x20, 9, 5, .ro, .open, 16, .v, 0, 31⟩
/-- STRETCHING (R413). -/
def stWardStretching : FieldDef := ⟨0x20, 14, 1, .ro, .open, 0, .v, 0, 1⟩
/-- BELL_GUARD (R413). -/
def stWardBellGuard : FieldDef := ⟨0x20, 15, 1, .ro, .open, 0, .v, 0, 1⟩
/-- REPLANNING (R413). -/
def stWardReplanning : FieldDef := ⟨0x20, 16, 1, .ro, .open, 0, .v, 0, 1⟩
/-- SKIP_SRC (R413). -/
def stWardSkipSrc : FieldDef := ⟨0x20, 17, 5, .ro, .open, 0, .v, 0, 31⟩
/-- AT_CEIL (R413). -/
def stWardAtCeil : FieldDef := ⟨0x20, 22, 1, .ro, .open, 0, .v, 0, 1⟩
/-- MARGIN_LOW bit of EVENT (R413). -/
def evWardMarginLow : Nat := 8
/-- CEIL_DROPPED bit of EVENT (R413). -/
def evWardCeilDropped : Nat := 9
/-- SENSOR_FAULT bit of EVENT (R413). -/
def evWardSensorFault : Nat := 10
/-- DROOP bit of EVENT (R413). -/
def evWardDroop : Nat := 11
/-- CTRL_BAD bit of EVENT (R413). -/
def evWardCtrlBad : Nat := 12
/-- DUTY_LIMIT (R414). -/
def fWardDutyLimit : FieldDef := ⟨0x100, 0, 5, .rw, .guarded, 16, .v, 1, 16⟩
/-- STRETCH_EN (R414). -/
def fWardStretchEn : FieldDef := ⟨0x100, 8, 1, .rw, .guarded, 1, .w, 0, 1⟩
/-- MARGIN_ALARM (R414). -/
def fWardMarginAlarm : FieldDef := ⟨0x104, 0, 8, .rw, .guarded, 10, .w, 5, 60⟩
/-- F_CEIL (R414). -/
def fWardFCeil : FieldDef := ⟨0x108, 0, 7, .ro, .open, 58, .p, 0, 127⟩
/-- F_NOW (R414). -/
def fWardFNow : FieldDef := ⟨0x108, 8, 7, .ro, .open, 0, .v, 0, 127⟩
/-- V_REQ (R414). -/
def fWardVReq : FieldDef := ⟨0x108, 16, 10, .ro, .open, 0, .v, 0, 1023⟩
/-- MARGIN_LAST (R414). -/
def fWardMarginLast : FieldDef := ⟨0x10c, 0, 8, .ro, .open, 255, .v, 0, 255⟩
/-- MARGIN_MIN (R414). -/
def fWardMarginMin : FieldDef := ⟨0x10c, 8, 8, .rc, .open, 255, .v, 0, 255⟩
/-- WORST_PATH (R414). -/
def fWardWorstPath : FieldDef := ⟨0x10c, 16, 3, .ro, .open, 0, .v, 0, 7⟩
/-- PATH_FAULTY (R414). -/
def fWardPathFaulty : FieldDef := ⟨0x10c, 19, 8, .ro, .open, 0, .p, 0, 255⟩
/-- SKIP_COUNT (R415). -/
def fWardSkipCount : FieldDef := ⟨0x120, 0, 32, .rc, .open, 0, .v, 0, 4294967295⟩
/-- STRETCH_COUNT (R415). -/
def fWardStretchCount : FieldDef := ⟨0x124, 0, 32, .rc, .open, 0, .v, 0, 4294967295⟩
/-- DROOP_COUNT (R415). -/
def fWardDroopCount : FieldDef := ⟨0x128, 0, 32, .rc, .open, 0, .v, 0, 4294967295⟩
/-- BELL_GUARD_COUNT (R415). -/
def fWardBellGuardCount : FieldDef := ⟨0x12c, 0, 32, .rc, .open, 0, .v, 0, 4294967295⟩

/-! ### core -/

/-- INF_COUNT (R89). -/
def fCoreInfCount : FieldDef := ⟨0x300, 0, 32, .rc, .open, 0, .v, 0, 4294967295⟩
/-- NAN_COUNT (R89). -/
def fCoreNanCount : FieldDef := ⟨0x304, 0, 32, .rc, .open, 0, .v, 0, 4294967295⟩
/-- SPILL_COUNT (R89). -/
def fCoreSpillCount : FieldDef := ⟨0x308, 0, 32, .rc, .open, 0, .v, 0, 4294967295⟩
/-- SAT_BLOCK_COUNT (R89). -/
def fCoreSatBlockCount : FieldDef := ⟨0x30c, 0, 32, .rc, .open, 0, .v, 0, 4294967295⟩
/-- ZERO_BLOCK_COUNT (R89). -/
def fCoreZeroBlockCount : FieldDef := ⟨0x310, 0, 32, .rc, .open, 0, .v, 0, 4294967295⟩
/-- RSVD_SCALE_COUNT (R89). -/
def fCoreRsvdScaleCount : FieldDef := ⟨0x314, 0, 32, .rc, .open, 0, .v, 0, 4294967295⟩
/-- SAT_VALUE_COUNT (R89). -/
def fCoreSatValueCount : FieldDef := ⟨0x318, 0, 32, .rc, .open, 0, .v, 0, 4294967295⟩
/-- NONFINITE bit of EVENT (R90). -/
def evCoreNonfinite : Nat := 8
/-- OUTLIER_SPILL bit of EVENT (R90). -/
def evCoreOutlierSpill : Nat := 9
/-- SATURATED_BLOCKS bit of EVENT (R90). -/
def evCoreSaturatedBlocks : Nat := 10
/-- RESERVED_SCALE bit of EVENT (R90). -/
def evCoreReservedScale : Nat := 11
/-- SATURATED_VALUES bit of EVENT (R90). -/
def evCoreSaturatedValues : Nat := 12
/-- QDESC_BAD bit of EVENT (R90). -/
def evCoreQdescBad : Nat := 13
/-- LIMIT (R126). -/
def fCoreLimit : FieldDef := ⟨0x200, 0, 12, .rw, .guarded, 2048, .w, 1, 2048⟩
/-- BUSY (R127). -/
def fCoreBusy : FieldDef := ⟨0x204, 0, 4, .ro, .open, 0, .v, 0, 15⟩
/-- QUEUED (R127). -/
def fCoreQueued : FieldDef := ⟨0x204, 4, 4, .ro, .open, 0, .v, 0, 15⟩
/-- WIDE (R127). -/
def fCoreWide : FieldDef := ⟨0x204, 8, 1, .ro, .open, 0, .v, 0, 1⟩
/-- SUSPENDED (R127). -/
def fCoreSuspended : FieldDef := ⟨0x204, 9, 1, .ro, .open, 0, .v, 0, 1⟩
/-- BASE (R128). -/
def fCoreBase : FieldDef := ⟨0x208, 0, 7, .ro, .open, 0, .v, 0, 127⟩
/-- SLOTS (R128). -/
def fCoreSlots : FieldDef := ⟨0x208, 8, 7, .ro, .open, 64, .v, 0, 127⟩
/-- SUSP_SLOTS (R128). -/
def fCoreSuspSlots : FieldDef := ⟨0x208, 16, 7, .ro, .open, 0, .v, 0, 127⟩
/-- PASS_BAD (R129). -/
def fCorePassBad : FieldDef := ⟨0x20c, 0, 1, .rc, .open, 0, .v, 0, 1⟩
/-- TILE_ABANDONED (R129). -/
def fCoreTileAbandoned : FieldDef := ⟨0x20c, 1, 1, .rc, .open, 0, .v, 0, 1⟩
/-- ACC_CE (R129). -/
def fCoreAccCe : FieldDef := ⟨0x20c, 2, 1, .rc, .open, 0, .v, 0, 1⟩
/-- ACC_UE (R129). -/
def fCoreAccUe : FieldDef := ⟨0x20c, 3, 1, .rc, .open, 0, .v, 0, 1⟩
/-- PREEMPTED (R129). -/
def fCorePreempted : FieldDef := ⟨0x20c, 4, 1, .rc, .open, 0, .v, 0, 1⟩
/-- LIMIT_BAD (R129). -/
def fCoreLimitBad : FieldDef := ⟨0x20c, 5, 1, .rc, .open, 0, .v, 0, 1⟩
/-- PASS_COUNT (R130). -/
def fCorePassCount : FieldDef := ⟨0x210, 0, 32, .rc, .open, 0, .v, 0, 4294967295⟩
/-- FRONT_STALL_COUNT (R130). -/
def fCoreFrontStallCount : FieldDef := ⟨0x214, 0, 32, .rc, .open, 0, .v, 0, 4294967295⟩
/-- ACC_CE_COUNT (R130). -/
def fCoreAccCeCount : FieldDef := ⟨0x218, 0, 32, .rc, .open, 0, .v, 0, 4294967295⟩
/-- ABANDON_COUNT (R130). -/
def fCoreAbandonCount : FieldDef := ⟨0x21c, 0, 32, .rc, .open, 0, .v, 0, 4294967295⟩
/-- INV (R131). -/
def fCoreInv : FieldDef := ⟨0x220, 0, 4, .wa, .open, 0, .v, 0, 15⟩
/-- RUN (R157). -/
def stCoreRun : FieldDef := ⟨0x20, 8, 1, .ro, .open, 0, .v, 0, 1⟩
/-- WAIT (R157). -/
def stCoreWait : FieldDef := ⟨0x20, 9, 1, .ro, .open, 0, .v, 0, 1⟩
/-- LOADING (R157). -/
def stCoreLoading : FieldDef := ⟨0x20, 10, 1, .ro, .open, 0, .v, 0, 1⟩
/-- SPARE (R157). -/
def stCoreSpare : FieldDef := ⟨0x20, 11, 1, .ro, .open, 0, .v, 0, 1⟩
/-- FENCED (R157). -/
def stCoreFenced : FieldDef := ⟨0x20, 12, 1, .ro, .open, 0, .v, 0, 1⟩
/-- ARRAY bit of EVENT (R158). -/
def evCoreArray : Nat := 15
/-- TASK_FAILED bit of EVENT (R158). -/
def evCoreTaskFailed : Nat := 16
/-- WAIT_TIMEOUT bit of EVENT (R158). -/
def evCoreWaitTimeout : Nat := 17
/-- REG_CE bit of EVENT (R158). -/
def evCoreRegCe : Nat := 18
/-- PC (R159). -/
def fCorePc : FieldDef := ⟨0x100, 0, 13, .ro, .open, 0, .v, 0, 8191⟩
/-- LOOP_DEPTH (R159). -/
def fCoreLoopDepth : FieldDef := ⟨0x100, 13, 3, .ro, .open, 0, .v, 0, 7⟩
/-- CALL_DEPTH (R159). -/
def fCoreCallDepth : FieldDef := ⟨0x100, 16, 4, .ro, .open, 0, .v, 0, 15⟩
/-- ASYNC (R159). -/
def fCoreAsync : FieldDef := ⟨0x100, 20, 6, .ro, .open, 0, .v, 0, 63⟩
/-- TASK_REF (R159). -/
def fCoreTaskRef : FieldDef := ⟨0x104, 0, 32, .ro, .open, 0, .v, 0, 4294967295⟩
/-- CAUSE (R159). -/
def fCoreCause : FieldDef := ⟨0x108, 0, 8, .ro, .open, 0, .v, 0, 255⟩
/-- FAIL_PC (R159). -/
def fCoreFailPc : FieldDef := ⟨0x108, 8, 13, .ro, .open, 0, .v, 0, 8191⟩
/-- STAGED (R159). -/
def fCoreStaged : FieldDef := ⟨0x10c, 0, 9, .ro, .open, 0, .v, 0, 511⟩
/-- SUSP_STAGED (R159). -/
def fCoreSuspStaged : FieldDef := ⟨0x10c, 16, 9, .ro, .open, 0, .v, 0, 511⟩
/-- TILE_TIME_LIMIT (R159). -/
def fCoreTileTimeLimit : FieldDef := ⟨0x110, 0, 24, .rw, .guarded, 15625, .w, 0, 16777215⟩
/-- WAIT_LIMIT (R159). -/
def fCoreWaitLimit : FieldDef := ⟨0x114, 0, 24, .rw, .guarded, 1000000, .w, 0, 16777215⟩
/-- CODE_FLUSH (R159). -/
def fCoreCodeFlush : FieldDef := ⟨0x118, 0, 1, .wa, .guarded, 0, .v, 0, 1⟩
/-- TILE_COUNT (R160). -/
def fCoreTileCount : FieldDef := ⟨0x120, 0, 32, .rc, .open, 0, .v, 0, 4294967295⟩
/-- FAIL_COUNT (R160). -/
def fCoreFailCount : FieldDef := ⟨0x124, 0, 32, .rc, .open, 0, .v, 0, 4294967295⟩
/-- CODE_LOAD_COUNT (R160). -/
def fCoreCodeLoadCount : FieldDef := ⟨0x128, 0, 32, .rc, .open, 0, .v, 0, 4294967295⟩
/-- REG_CE_COUNT (R160). -/
def fCoreRegCeCount : FieldDef := ⟨0x12c, 0, 32, .rc, .open, 0, .v, 0, 4294967295⟩
/-- EN (R182). -/
def fCoreEn : FieldDef := ⟨0x400, 0, 1, .rw, .guarded, 1, .w, 0, 1⟩
/-- BASE (R182). -/
def fCoreBaseB : FieldDef := ⟨0x400, 8, 7, .rw, .guarded, 80, .w, 0, 127⟩
/-- SIZE (R182). -/
def fCoreSize : FieldDef := ⟨0x400, 16, 7, .rw, .guarded, 16, .w, 0, 127⟩
/-- OC_CONFLICT_COUNT (R183). -/
def fCoreOcConflictCount : FieldDef := ⟨0x410, 0, 32, .rc, .open, 0, .v, 0, 4294967295⟩
/-- OC_CE_COUNT (R183). -/
def fCoreOcCeCount : FieldDef := ⟨0x414, 0, 32, .rc, .open, 0, .v, 0, 4294967295⟩
/-- GATHER_ELEM_COUNT (R183). -/
def fCoreGatherElemCount : FieldDef := ⟨0x418, 0, 32, .rc, .open, 0, .v, 0, 4294967295⟩
/-- GATHER_REQ_COUNT (R183). -/
def fCoreGatherReqCount : FieldDef := ⟨0x41c, 0, 32, .rc, .open, 0, .v, 0, 4294967295⟩

/-- The fields of the common page. -/
def fieldsCommon : List FieldDef :=
  [fCommonType, fCommonInstance, fCommonMinor, fCommonMajor, fCommonBlockCaps, fCommonMbx, stCommonReady, stCommonAction, eventField evCommonVoteFix .v, eventField evCommonVoteFail .v, eventField evCommonGuardDenied .v, eventField evCommonDefaultsRestored .v, eventField evCommonActionBusy .v, eventField evCommonMbxBad .v, fCommonEnCommon, fCommonEnBlock, fCommonValueId, fCommonPart, fCommonWrite, fCommonValid, fCommonErr, fCommonSeq, fCommonWords, fCommonValueIdStat,
   fCommonMbxData 0, fCommonMbxData 1, fCommonMbxData 2, fCommonMbxData 3, fCommonMbxData 4, fCommonMbxData 5]

/-- The fields of the manager page. -/
def fieldsManager : List FieldDef :=
  [stManagerModuleState, stManagerJobLoaded, stManagerJobRunning, eventField evManagerAccessTimeout .v, eventField evManagerWakeFailed .v, eventField evManagerPlanStopped .v, eventField evManagerCtrlBad .v, fManagerDieSleep, fManagerDieWake, fManagerStandby, fManagerWake, fManagerWarmReset, fManagerModuleReset, fManagerNapDelay, fManagerResetCause, fManagerAwake, fManagerAsleep]

/-- The fields of the straps page. -/
def fieldsStraps : List FieldDef :=
  [fStrapsRole, fStrapsBoot, fStrapsMgmtMode, fStrapsThermMode, fStrapsPwrClass, fStrapsFlowScale, fStrapsRefclkSrc, fStrapsPresenceJ, fStrapsPlLow, fStrapsBtnLow, fStrapsLosHigh, fStrapsTxdisHigh, fStrapsAlertLow, fStrapsSealOpenNow, fStrapsSealMarginalNow, fStrapsStrapsLive]

/-- The fields of the security page. -/
def fieldsSecurity : List FieldDef :=
  [stSecurityPresence, stSecurityJumper, stSecuritySealBroken, stSecurityDebugEn, stSecuritySlotRunning, stSecurityFallbackBoot, eventField evSecurityPresenceOpen .v, eventField evSecurityPresenceClosed .v, eventField evSecuritySealOpened .v, eventField evSecurityBootFallback .v, eventField evSecurityImageRejected .v, eventField evSecuritySvnAdvanced .v, eventField evSecurityOtsLow .v, eventField evSecurityOtsExhausted .v, eventField evSecurityCtrlBad .v, eventField evSecuritySealMarginal .v, fSecurityPresenceLeft, fSecurityPresenceClose, fSecuritySvnCommit, fSecurityEraseA, fSecurityEraseB, fSecuritySvnFuse, fSecuritySvnRunning, fSecurityStateA, fSecurityStateB, fSecuritySvnA, fSecuritySvnB, fSecurityOtsNext, fSecurityOtsFuses]

/-- The fields of the timeBase page. -/
def fieldsTimeBase : List FieldDef :=
  [stTimeBaseLocked, stTimeBaseHoldover, stTimeBaseGroupSync, stTimeBaseSynced, eventField evTimeBaseRefLost .v, eventField evTimeBaseSyncLost .v, eventField evTimeBaseTimeStepped .v, eventField evTimeBaseSyncRegained .v, fTimeBaseSyncTol, fTimeBaseOffset]

/-- The fields of the power page. -/
def fieldsPower : List FieldDef :=
  [stPowerWarnActive, stPowerCapped, stPowerPlAsserted, stPowerFreqPending, eventField evPowerSupplyWarn .v, eventField evPowerSupplyOk .v, eventField evPowerSupplyHigh .v, eventField evPowerCapLocal .v, eventField evPowerCapCleared .v, eventField evPowerFreqStep .v, eventField evPowerVoltLate .v, eventField evPowerFreqLate .v, eventField evPowerPhaseFault .v, eventField evPowerRailFault .v, eventField evPowerCtrlBad .v, fPowerBudget, fPowerFreqMax, fPowerPlBudget, fPowerPlDuty, fPowerFreqLead, fPowerFreqHold, fPowerPLim, fPowerLimiter, fPowerPStatic, fPowerPIn, fPowerVIn, fPowerFGroup, fPowerFAllow, fPowerCapDuty, fPowerAlertEn, fPowerSupplyWarnCount, fPowerCapCount, fPowerFreqStepCount, fPowerPhaseFaultCount]

/-- The fields of the thermal page. -/
def fieldsThermal : List FieldDef :=
  [stThermalDieThrottled, stThermalRotation, stThermalDieTripped, eventField evThermalThrottle .v, eventField evThermalTrip .v, eventField evThermalFlowLow .v, eventField evThermalFlowLost .v, eventField evThermalInletHigh .v, eventField evThermalInletLow .v, eventField evThermalOutletHigh .v, eventField evThermalHeatImbalance .v, eventField evThermalSensorOpen .v, eventField evThermalCtrlBad .v, fThermalTThrottle, fThermalCoolant, fThermalHbEn, fThermalRotPeriod, fThermalRotDuty, fThermalTripClear, fThermalTIn, fThermalTOut, fThermalFlow, fThermalTMax, fThermalHotWard, fThermalQCool, fThermalThrottleCount, fThermalTripCount, fThermalImbalanceCount]

/-- The fields of the health page. -/
def fieldsHealth : List FieldDef :=
  [stHealthDegraded, stHealthMgrDegraded, stHealthRiskHigh, stHealthQueued, stHealthDown, eventField evHealthCoreFenced .v, eventField evHealthSpareIn .v, eventField evHealthDegraded .v, eventField evHealthSpareExhausted .v, eventField evHealthMgrCoreLost .v, eventField evHealthRiskReported .v, eventField evHealthDomainFailed .v, eventField evHealthLogWrapped .v, eventField evHealthLogLost .v, eventField evHealthCtrlBad .v, fHealthFenceUeLimit, fHealthRiskShift, fHealthCoresServiceable, fHealthSparesLeft, fHealthRisk, fHealthRiskPeak, fHealthMgrInService, fHealthMgrSpares, fHealthFenceCount, fHealthSpareInCount, fHealthLogLostCount, fHealthRiskReportCount]

/-- The fields of the store0 page. -/
def fieldsStore0 : List FieldDef :=
  [stStore0ReadOnly, stStore0RetireActive, eventField evStore0BlockRetired .v, eventField evStore0EolWarn .v, eventField evStore0EndOfLife .v, eventField evStore0FlashDieFailed .v, eventField evStore0CtrlBad .v, fStore0RefreshEn, fStore0RefreshDays, fStore0EolWarnPct, fStore0SpareMin, fStore0SpareMinDie, fStore0DiesFailed, fStore0ProgMibCount, fStore0UnitLostCount, fStore0BlockRetiredCount, fStore0RefreshCount]

/-- The fields of the store1 page. -/
def fieldsStore1 : List FieldDef :=
  [stStore1Capturing, stStore1Streaming, eventField evStore1ClutchSecured .v, eventField evStore1ClutchFailed .v, eventField evStore1ClutchDegraded .v, eventField evStore1CtrlBad .v, fStore1AutoEn, fStore1K, fStore1StrideEn, fStore1RiskMax, fStore1RiskLevel, fStore1ClutchPeriod, fStore1Trigger, fStore1CaptureAbort, fStore1Latest, fStore1Previous, fStore1Capture, fStore1ClutchSecuredCount, fStore1ClutchFailedCount, fStore1RiskDeniedCount]

/-- The fields of the store2 page. -/
def fieldsStore2 : List FieldDef :=
  [stStore2Restoring, stStore2Reprotecting, stStore2WaitStandby, eventField evStore2RestoreDone .v, eventField evStore2RestoreFailed .v, eventField evStore2RngRealigned .v, eventField evStore2Fallback .v, eventField evStore2Takeover .v, eventField evStore2CtrlBad .v, fStore2Restore, fStore2RestoreAbort, fStore2GmWait]

/-- The fields of the store3 page. -/
def fieldsStore3 : List FieldDef :=
  [stStore3Transfer, eventField evStore3XferDone .v, eventField evStore3XferFailed .v, eventField evStore3CtrlBad .v, fStore3Export, fStore3Import, fStore3XferAbort]

/-- The fields of the mgmtLink page. -/
def fieldsMgmtLink : List FieldDef :=
  [stMgmtLinkLinkUp, stMgmtLinkFecOn, eventField evMgmtLinkLinkUp .v, eventField evMgmtLinkLinkDown .v, eventField evMgmtLinkCtrlBad .v, fMgmtLinkFecEn, fMgmtLinkRxFrames, fMgmtLinkFcsErrCount, fMgmtLinkTxFrames]

/-- The fields of the mgmtSession page. -/
def fieldsMgmtSession : List FieldDef :=
  [stMgmtSessionSession, eventField evMgmtSessionSessionOpen .v, eventField evMgmtSessionSessionEnd .v, eventField evMgmtSessionSessionRefused .v, eventField evMgmtSessionMsgBad .v, eventField evMgmtSessionCtrlBad .v, fMgmtSessionUdpPort, fMgmtSessionIp4Dhcp, fMgmtSessionIp6En, fMgmtSessionSessionIdle, fMgmtSessionIpv4Addr, fMgmtSessionIpv4Prefix, fMgmtSessionMsgBadCount, fMgmtSessionResendCount]

/-- The fields of the port page. -/
def fieldsPort : List FieldDef :=
  [stPortState, stPortTxWidth, stPortRxWidth, stPortLaserOk, stPortSwapActive, stPortSwapQueued, stPortReplanning, eventField evPortLinkUp .v, eventField evPortLinkDown .v, eventField evPortRetrainStart .v, eventField evPortLaneSwapped .v, eventField evPortLaneNarrowed .v, eventField evPortLaserLow .v, eventField evPortSelfLink .v, eventField evPortPartnerChanged .v, eventField evPortSpareExhausted .v, eventField evPortCtrlBad .v, fPortEnable, fPortLoopback, fPortTimeUpstream, fPortSwapEn, fPortNarrowMin, fPortReplayLimit, fPortTsInterval, fPortLaneSwapLimit, fPortShare0, fPortShare1, fPortShare2, fPortShare3, fPortRetrain, fPortPortReset, fPortReplan, fPortTxMap0, fPortTxMap1, fPortTxMap2, fPortTxMap3, fPortTxMap4, fPortTxMap5, fPortTxMap6, fPortTxMap7] ++
  [fPortRxMap0, fPortRxMap1, fPortRxMap2, fPortRxMap3, fPortRxMap4, fPortRxMap5, fPortRxMap6, fPortRxMap7, fPortDead, fPortDegraded, fPortLaserPwr, fPortCorrSymCount, fPortUncorrCwCount, fPortCrcErrCount, fPortReplayCount, fPortRetrainCount, fPortSwapCount]

/-- The fields of the transport page. -/
def fieldsTransport : List FieldDef :=
  [stTransportCollRunning, stTransportExchRunning, eventField evTransportCollBad .v, eventField evTransportCollFailed .v, eventField evTransportNoRoute .v, eventField evTransportMsgFailed .v, eventField evTransportPktBad .v, eventField evTransportEpochDrop .v, eventField evTransportCapDrop .v, eventField evTransportRouteBad .v, eventField evTransportNonfinite .v, eventField evTransportReservedScale .v, eventField evTransportCtrlBad .v, fTransportMsgTimeout, fTransportRetry, fTransportTtlInit, fTransportGroupLead, fTransportExchCap, fTransportCollAbort, fTransportMsgRetryCount, fTransportMsgFailedCount, fTransportNoRouteCount, fTransportPktBadCount, fTransportEpochDropCount, fTransportCapDropCount, fTransportCollDoneCount, fTransportInfCount0, fTransportInfCount1, fTransportInfCount2, fTransportInfCount3, fTransportNanCount0, fTransportNanCount1, fTransportNanCount2, fTransportNanCount3, fTransportRsvdScaleCount0, fTransportRsvdScaleCount1, fTransportRsvdScaleCount2, fTransportRsvdScaleCount3]

/-- The fields of the membership page. -/
def fieldsMembership : List FieldDef :=
  [stMembershipJstate, stMembershipGmReachable, eventField evMembershipJoined .v, eventField evMembershipJoinRefused .v, eventField evMembershipMemberLost .v, eventField evMembershipGmLost .v, eventField evMembershipEpochChanged .v, eventField evMembershipMemberJoined .v, eventField evMembershipBarrierFull .v, eventField evMembershipCtrlBad .v, fMembershipModuleId, fMembershipGmId, fMembershipJobId, fMembershipHbInterval, fMembershipHbMiss, fMembershipEpoch, fMembershipRank, fMembershipJoinResult, fMembershipJoinOpen, fMembershipJoin, fMembershipWorkingCount, fMembershipStandbyCount, fMembershipEpochLead]

/-- The fields of the memCtl page. -/
def fieldsMemCtl : List FieldDef :=
  [stMemCtlChUp, stMemCtlChFailed, stMemCtlRemapActive, stMemCtlScrubActive, eventField evMemCtlCe .v, eventField evMemCtlPageCorr .v, eventField evMemCtlUe .v, eventField evMemCtlRemapDone .v, eventField evMemCtlPageRetired .v, eventField evMemCtlPoolEmpty .v, eventField evMemCtlUnbacked .v, eventField evMemCtlChannelFailed .v, eventField evMemCtlNonfinite .v, eventField evMemCtlPprDone .v, eventField evMemCtlCtrlBad .v, fMemCtlScrubEn, fMemCtlScrubHours, fMemCtlCeRowLimit, fMemCtlPprEn, fMemCtlEntry, fMemCtlChannel, fMemCtlRate0, fMemCtlRate1, fMemCtlRate2, fMemCtlRate3, fMemCtlRate4, fMemCtlRate5, fMemCtlRate6, fMemCtlRate7, fMemCtlPoolFree0, fMemCtlPoolFree1, fMemCtlPoolFree2, fMemCtlPoolFree3, fMemCtlPoolFree4, fMemCtlPoolFree5, fMemCtlPoolFree6, fMemCtlPoolFree7, fMemCtlRemapUsed0, fMemCtlRemapUsed1, fMemCtlRemapUsed2] ++
  [fMemCtlRemapUsed3, fMemCtlRemapUsed4, fMemCtlRemapUsed5, fMemCtlRemapUsed6, fMemCtlRemapUsed7, fMemCtlCeCount, fMemCtlPageCorrCount, fMemCtlUeCount, fMemCtlInfCount, fMemCtlNanCount]

/-- The fields of the interleave page. -/
def fieldsInterleave : List FieldDef :=
  [stInterleaveQueueDepth, stInterleaveRemapBusy, stInterleaveRetireBusy, eventField evInterleaveQueueFull .v, eventField evInterleaveReplanPending .v, eventField evInterleaveReplanned .v, eventField evInterleaveCapacityShrunk .v, fInterleaveFailedCh0, fInterleaveFailedCh1, fInterleaveFailedCh2, fInterleaveFailedCh3, fInterleaveReplanned0, fInterleaveReplanned1, fInterleaveReplanned2, fInterleaveReplanned3, fInterleaveUnfit0, fInterleaveUnfit1, fInterleaveUnfit2, fInterleaveUnfit3, fInterleaveUnbackedPages]

/-- The fields of the workerDie page. -/
def fieldsWorkerDie : List FieldDef :=
  [fWorkerDieStep, eventField evWorkerDieVersionMismatch .v, eventField evWorkerDieLedgerBad .v, fWorkerDieLedgerCheckCount, fWorkerDieVersionMismatchCount, fWorkerDieLedgerFree, eventField evWorkerDieReplanDone .v, eventField evWorkerDieReplanAborted .v, eventField evWorkerDieDieCeilDropped .v, fWorkerDieReplan, fWorkerDieReplanDays, fWorkerDieDieCeil, fWorkerDieFabricRaise, fWorkerDieReplanStep, fWorkerDieReplanCount]

/-- The fields of the update page. -/
def fieldsUpdate : List FieldDef :=
  [stUpdateRunning, stUpdatePhase, stUpdateOwedWaiting, eventField evUpdateUpdBad .v, eventField evUpdateUpdFailed .v, eventField evUpdateUpdSkipped .v, eventField evUpdateJournalFail .v, eventField evUpdateJournalReplayed .v, eventField evUpdateQueueLost .v, eventField evUpdateNonfinite .v, eventField evUpdateOutlierSpill .v, eventField evUpdateSaturatedBlocks .v, eventField evUpdateSaturatedValues .v, eventField evUpdateQdescBad .v, eventField evUpdateCtrlBad .v, fUpdateEnable, fUpdateUpdPrio, fUpdateUpdAbort, fUpdateUpdResume, fUpdateUpdDiscard, fUpdateUpdatesDone, fUpdateSubshardCount, fUpdateJournalReplayCount, fUpdateOwedWaitCount, fUpdateNonfiniteGradCount, fUpdateInfCount, fUpdateNanCount, fUpdateSpillCount, fUpdateSatBlockCount, fUpdateSatValueCount]

/-- The fields of the dispatcher page. -/
def fieldsDispatcher : List FieldDef :=
  [stDispatcherEnabled, stDispatcherPending, stDispatcherStoreFull, eventField evDispatcherTaskFail .v, eventField evDispatcherTileLost .v, eventField evDispatcherBellLate .v, eventField evDispatcherWatchFull .v, eventField evDispatcherStoreOverflow .v, eventField evDispatcherReleaseBad .v, eventField evDispatcherQueuesLost .v, eventField evDispatcherFailOverflow .v, eventField evDispatcherCtrlBad .v, fDispatcherEnable, fDispatcherReissueLimit, fDispatcherBellLead, fDispatcherStepsLog2, fDispatcherStepTicks, fDispatcherAgeLimit, fDispatcherPreemptDelay, fDispatcherFailPop, fDispatcherStoreFree, fDispatcherWatchFree, fDispatcherTasksIssued, fDispatcherTasksDone, fDispatcherTasksFailed, fDispatcherReissueCount, fDispatcherPreemptCount, fDispatcherBellLateCount, fDispatcherFailOverflowCount]

/-- The fields of the ward page. -/
def fieldsWard : List FieldDef :=
  [stWardNap, stWardDuty, stWardStretching, stWardBellGuard, stWardReplanning, stWardSkipSrc, stWardAtCeil, eventField evWardMarginLow .v, eventField evWardCeilDropped .v, eventField evWardSensorFault .v, eventField evWardDroop .v, eventField evWardCtrlBad .v, fWardDutyLimit, fWardStretchEn, fWardMarginAlarm, fWardFCeil, fWardFNow, fWardVReq, fWardMarginLast, fWardMarginMin, fWardWorstPath, fWardPathFaulty, fWardSkipCount, fWardStretchCount, fWardDroopCount, fWardBellGuardCount]

/-- The fields of the core page. -/
def fieldsCore : List FieldDef :=
  [fCoreInfCount, fCoreNanCount, fCoreSpillCount, fCoreSatBlockCount, fCoreZeroBlockCount, fCoreRsvdScaleCount, fCoreSatValueCount, eventField evCoreNonfinite .v, eventField evCoreOutlierSpill .v, eventField evCoreSaturatedBlocks .v, eventField evCoreReservedScale .v, eventField evCoreSaturatedValues .v, eventField evCoreQdescBad .v, fCoreLimit, fCoreBusy, fCoreQueued, fCoreWide, fCoreSuspended, fCoreBase, fCoreSlots, fCoreSuspSlots, fCorePassBad, fCoreTileAbandoned, fCoreAccCe, fCoreAccUe, fCorePreempted, fCoreLimitBad, fCorePassCount, fCoreFrontStallCount, fCoreAccCeCount, fCoreAbandonCount, fCoreInv, stCoreRun, stCoreWait, stCoreLoading, stCoreSpare, stCoreFenced, eventField evCoreArray .v, eventField evCoreTaskFailed .v, eventField evCoreWaitTimeout .v] ++
  [eventField evCoreRegCe .v, fCorePc, fCoreLoopDepth, fCoreCallDepth, fCoreAsync, fCoreTaskRef, fCoreCause, fCoreFailPc, fCoreStaged, fCoreSuspStaged, fCoreTileTimeLimit, fCoreWaitLimit, fCoreCodeFlush, fCoreTileCount, fCoreFailCount, fCoreCodeLoadCount, fCoreRegCeCount, fCoreEn, fCoreBaseB, fCoreSize, fCoreOcConflictCount, fCoreOcCeCount, fCoreGatherElemCount, fCoreGatherReqCount]

/-- RngKey mailbox value (R86). -/
def wRngKey : WideDef := ⟨0x0020, 4, .rw, .guarded, 0, .w⟩

/-- AccSlotValid mailbox value (R132). -/
def wAccSlotValid : WideDef := ⟨0x0040, 8, .ro, .open, 0, .v⟩

/-- FailInfo mailbox value (R161). -/
def wFailInfo : WideDef := ⟨0x0041, 4, .ro, .open, 0, .v⟩

/-- CodeImage mailbox value (R161). -/
def wCodeImage : WideDef := ⟨0x0042, 4, .ro, .open, 0, .v⟩

/-- Submit mailbox value (R210). -/
def wSubmit : WideDef := ⟨0x0050, 2, .rw, .open, 0, .w⟩

/-- WatchArm mailbox value (R210). -/
def wWatchArm : WideDef := ⟨0x0051, 8, .rw, .open, 0, .w⟩

/-- FailHead mailbox value (R210). -/
def wFailHead : WideDef := ⟨0x0052, 4, .ro, .open, 0, .w⟩

/-- QueueDepths mailbox value (R210). -/
def wQueueDepths : WideDef := ⟨0x0053, 8, .ro, .open, 0, .v⟩

/-- NextBell mailbox value (R210). -/
def wNextBell : WideDef := ⟨0x0054, 2, .ro, .open, 2^64-1, .v⟩

/-- Time mailbox value (R212). -/
def wTime : WideDef := ⟨0x0001, 2, .ro, .open, 0, .a⟩

/-- LastStep mailbox value (R212). -/
def wLastStep : WideDef := ⟨0x0002, 4, .ro, .open, 0, .a⟩

/-- UeLast mailbox value (R246). -/
def wUeLast : WideDef := ⟨0x0060, 4, .ro, .open, 0, .v⟩

/-- RemapEntry mailbox value (R246). -/
def wRemapEntry : WideDef := ⟨0x0061, 4, .ro, .open, 0, .p⟩

/-- Capacity mailbox value (R248). -/
def wCapacity : WideDef := ⟨0x0070, 8, .ro, .open, 448*2^30*(1+2^64+2^128+2^192), .p⟩

/-- AddrProbe mailbox value (R248). -/
def wAddrProbe : WideDef := ⟨0x0071, 4, .rw, .open, 0, .v⟩

/-- Partner mailbox value (R276). -/
def wPartner : WideDef := ⟨0x0080, 2, .ro, .open, 2^64-1, .v⟩

/-- LinkDelay mailbox value (R276). -/
def wLinkDelay : WideDef := ⟨0x0081, 2, .ro, .open, 0, .v⟩

/-- LaneSer mailbox value (R276). -/
def wLaneSer : WideDef := ⟨0x0082, 3, .ro, .open, 2^96-1, .v⟩

/-- CollArm mailbox value (R313). -/
def wCollArm : WideDef := ⟨0x0090, 2, .rw, .open, 0, .v⟩

/-- Route mailbox value (R313). -/
def wRoute : WideDef := ⟨0x0091, 2, .rw, .guarded, 0, .m⟩

/-- CollSlots mailbox value (R313). -/
def wCollSlots : WideDef := ⟨0x0092, 2, .ro, .open, 0, .v⟩

/-- MemberEntry mailbox value (R316). -/
def wMemberEntry : WideDef := ⟨0x00a0, 2, .rw, .open, 0, .m⟩

/-- Rankset mailbox value (R316). -/
def wRankset : WideDef := ⟨0x00a1, 4, .rw, .guarded, 0, .m⟩

/-- LedgerArm mailbox value (R337). -/
def wLedgerArm : WideDef := ⟨0x00b0, 2, .rw, .guarded, 0, .w⟩

/-- GateAdd mailbox value (R337). -/
def wGateAdd : WideDef := ⟨0x00b1, 2, .rw, .guarded, 0, .v⟩

/-- LedgerLast mailbox value (R337). -/
def wLedgerLast : WideDef := ⟨0x00b2, 6, .ro, .open, 0, .v⟩

/-- UpdArm mailbox value (R361). -/
def wUpdArm : WideDef := ⟨0x00c0, 2, .rw, .guarded, 0, .w⟩

/-- UpdArea mailbox value (R361). -/
def wUpdArea : WideDef := ⟨0x00c1, 2, .rw, .guarded, 0, .w⟩

/-- UpdCur mailbox value (R361). -/
def wUpdCur : WideDef := ⟨0x00c2, 4, .ro, .open, 0, .v⟩

/-- Armed mailbox value (R361). -/
def wArmed : WideDef := ⟨0x00c3, 2, .ro, .open, 0, .w⟩

/-- StoreSpace mailbox value (R395). -/
def wStoreSpace : WideDef := ⟨0x00d0, 6, .ro, .open, 0, .v⟩

/-- Wear mailbox value (R395). -/
def wWear : WideDef := ⟨0x00d1, 4, .ro, .open, 0, .p⟩

/-- DieFailed mailbox value (R395). -/
def wDieFailed : WideDef := ⟨0x00d2, 2, .ro, .open, 0, .p⟩

/-- Stage mailbox value (R395). -/
def wStage : WideDef := ⟨0x00d4, 4, .rw, .guarded, 0, .w⟩

/-- ClutchDir mailbox value (R395). -/
def wClutchDir : WideDef := ⟨0x00d5, 8, .rw, .open, 0, .p⟩

/-- RestoreSel mailbox value (R395). -/
def wRestoreSel : WideDef := ⟨0x00d8, 2, .rw, .guarded, 0, .m⟩

/-- RestoreResult mailbox value (R395). -/
def wRestoreResult : WideDef := ⟨0x00d9, 4, .ro, .open, 0, .m⟩

/-- XferSel mailbox value (R395). -/
def wXferSel : WideDef := ⟨0x00dc, 2, .rw, .guarded, 0, .m⟩

/-- XferStat mailbox value (R395). -/
def wXferStat : WideDef := ⟨0x00dd, 4, .ro, .open, 0, .v⟩

/-- VfAged mailbox value (R416). -/
def wVfAged : WideDef := ⟨0x00e0, 8, .ro, .open, vfTable, .p⟩

/-- VfFactory mailbox value (R416). -/
def wVfFactory : WideDef := ⟨0x00e1, 8, .ro, .open, vfTable, .p⟩

/-- Replica mailbox value (R416). -/
def wReplica : WideDef := ⟨0x00e2, 2, .ro, .open, 2^64-1, .v⟩

/-- Energy mailbox value (R442). -/
def wEnergy : WideDef := ⟨0x00f0, 2, .ro, .open, 0, .a⟩

/-- Rail mailbox value (R442). -/
def wRail : WideDef := ⟨0x00f1, 4, .rw, .open, 0, .v⟩

/-- LastDip mailbox value (R442). -/
def wLastDip : WideDef := ⟨0x00f2, 4, .ro, .open, 0, .a⟩

/-- WardTemps mailbox value (R446). -/
def wWardTemps : WideDef := ⟨0x00f8, 8, .ro, .open, 2^256-1, .v⟩

/-- ThermReq mailbox value (R446). -/
def wThermReq : WideDef := ⟨0x00f9, 8, .ro, .open, 0x1010101010101010101010101010101010101010101010101010101010101010, .v⟩

/-- CoreState mailbox value (R467). -/
def wCoreState : WideDef := ⟨0x0100, 2, .rw, .open, 0, .v⟩

/-- Fence mailbox value (R467). -/
def wFence : WideDef := ⟨0x0101, 2, .rw, .guarded, 0, .v⟩

/-- SpareClass mailbox value (R467). -/
def wSpareClass : WideDef := ⟨0x0102, 4, .rw, .open, 0, .v⟩

/-- RiskInput mailbox value (R467). -/
def wRiskInput : WideDef := ⟨0x0103, 4, .rw, .guarded, 0, .a⟩

/-- Downtime mailbox value (R467). -/
def wDowntime : WideDef := ⟨0x0104, 8, .ro, .open, 0, .p⟩

/-- LogHead mailbox value (R467). -/
def wLogHead : WideDef := ⟨0x0105, 4, .ro, .open, 0, .m⟩

/-- MacAddr mailbox value (R499). -/
def wMacAddr : WideDef := ⟨0x0110, 2, .ro, .open, 0, .p⟩

/-- Peer mailbox value (R499). -/
def wPeer : WideDef := ⟨0x0111, 6, .ro, .open, 0, .v⟩

/-- ImageHash mailbox value (R513). -/
def wImageHash : WideDef := ⟨0x0120, 8, .ro, .open, 0, .m⟩

/-- RootKeyHash mailbox value (R513). -/
def wRootKeyHash : WideDef := ⟨0x0121, 8, .ro, .open, 0, .p⟩

/-- IdKeyHash mailbox value (R513). -/
def wIdKeyHash : WideDef := ⟨0x0122, 8, .ro, .open, 0, .p⟩

/-- Serial mailbox value (R513). -/
def wSerial : WideDef := ⟨0x0123, 2, .ro, .open, 0, .p⟩

/-- LastReject mailbox value (R513). -/
def wLastReject : WideDef := ⟨0x0124, 2, .ro, .open, 0, .m⟩

/-- The mailbox values of the common page. -/
def widesCommon : List WideDef := []

/-- The mailbox values of the manager page. -/
def widesManager : List WideDef := []

/-- The mailbox values of the straps page. -/
def widesStraps : List WideDef := []

/-- The mailbox values of the security page. -/
def widesSecurity : List WideDef := [wImageHash, wRootKeyHash, wIdKeyHash, wSerial, wLastReject]

/-- The mailbox values of the timeBase page. -/
def widesTimeBase : List WideDef := [wTime, wLastStep]

/-- The mailbox values of the power page. -/
def widesPower : List WideDef := [wEnergy, wRail, wLastDip]

/-- The mailbox values of the thermal page. -/
def widesThermal : List WideDef := [wWardTemps, wThermReq]

/-- The mailbox values of the health page. -/
def widesHealth : List WideDef := [wCoreState, wFence, wSpareClass, wRiskInput, wDowntime, wLogHead]

/-- The mailbox values of the store0 page. -/
def widesStore0 : List WideDef := [wStoreSpace, wWear, wDieFailed]

/-- The mailbox values of the store1 page. -/
def widesStore1 : List WideDef := [wStage, wClutchDir]

/-- The mailbox values of the store2 page. -/
def widesStore2 : List WideDef := [wRestoreSel, wRestoreResult]

/-- The mailbox values of the store3 page. -/
def widesStore3 : List WideDef := [wXferSel, wXferStat]

/-- The mailbox values of the mgmtLink page. -/
def widesMgmtLink : List WideDef := []

/-- The mailbox values of the mgmtSession page. -/
def widesMgmtSession : List WideDef := [wMacAddr, wPeer]

/-- The mailbox values of the port page. -/
def widesPort : List WideDef := [wPartner, wLinkDelay, wLaneSer]

/-- The mailbox values of the transport page. -/
def widesTransport : List WideDef := [wCollArm, wRoute, wCollSlots]

/-- The mailbox values of the membership page. -/
def widesMembership : List WideDef := [wMemberEntry, wRankset]

/-- The mailbox values of the memCtl page. -/
def widesMemCtl : List WideDef := [wUeLast, wRemapEntry]

/-- The mailbox values of the interleave page. -/
def widesInterleave : List WideDef := [wCapacity, wAddrProbe]

/-- The mailbox values of the workerDie page. -/
def widesWorkerDie : List WideDef := [wRngKey, wLedgerArm, wGateAdd, wLedgerLast]

/-- The mailbox values of the update page. -/
def widesUpdate : List WideDef := [wUpdArm, wUpdArea, wUpdCur, wArmed]

/-- The mailbox values of the dispatcher page. -/
def widesDispatcher : List WideDef := [wSubmit, wWatchArm, wFailHead, wQueueDepths, wNextBell]

/-- The mailbox values of the ward page. -/
def widesWard : List WideDef := [wVfAged, wVfFactory, wReplica]

/-- The mailbox values of the core page. -/
def widesCore : List WideDef := [wAccSlotValid, wFailInfo, wCodeImage]

end Sys2Proof.Machine
end

