-- ==== Sys2Proof/Machine/Map.lean ====
section
/-!
DEFINITION. Sparse data by key: a list of (key, value) pairs with strictly rising keys. `mapGet` and `mapSet` take
the function that says what an unlisted key reads as, and keep the form in which no entry equals that reading.
-/

namespace Sys2Proof.Machine

/-- A list of (key, value) pairs in key order. -/
abbrev SMap (α : Type) := List (Nat × α)

variable {α : Type}

/-- The value listed for a key. -/
def mapFind (k : Nat) : SMap α → Option α
  | [] => none
  | e :: r => if e.1 = k then some e.2 else mapFind k r

/-- List `v` for `k`, keeping key order. -/
def mapPut (k : Nat) (v : α) : SMap α → SMap α
  | [] => [(k, v)]
  | e :: r =>
    if e.1 = k then (k, v) :: r
    else if k < e.1 then (k, v) :: e :: r
    else e :: mapPut k v r

/-- Unlist a key. -/
def mapErase (k : Nat) : SMap α → SMap α
  | [] => []
  | e :: r => if e.1 = k then mapErase k r else e :: mapErase k r

/-- What a key reads as: its listed value, else what `d` says. -/
def mapGet (d : Nat → α) (k : Nat) (m : SMap α) : α := (mapFind k m).getD (d k)

/-- Make `k` read as `v`, listing nothing that reads the same unlisted. -/
def mapSet [DecidableEq α] (d : Nat → α) (k : Nat) (v : α) (m : SMap α) : SMap α :=
  if v = d k then mapErase k m else mapPut k v m

/-- Keys from `lo` on, strictly rising, no entry equal to what the key reads as unlisted. -/
def mapWfFrom [DecidableEq α] (d : Nat → α) : Nat → SMap α → Bool
  | _, [] => true
  | lo, e :: r => decide (lo ≤ e.1) && decide (e.2 ≠ d e.1) && mapWfFrom d (e.1 + 1) r

/-- The canonical form of a map. -/
def mapWf [DecidableEq α] (d : Nat → α) (m : SMap α) : Bool := mapWfFrom d 0 m

/-- Change the value of a key. -/
def mapUpd [DecidableEq α] (d : Nat → α) (k : Nat) (f : α → α) (m : SMap α) : SMap α :=
  mapSet d k (f (mapGet d k m)) m

/-- Whether a key is listed. -/
def mapHas (k : Nat) (m : SMap α) : Bool := (mapFind k m).isSome

/-- Keep the entries that satisfy `p`. -/
def mapKeep (p : Nat → α → Bool) (m : SMap α) : SMap α := m.filter (fun e => p e.1 e.2)

end Sys2Proof.Machine
end

