-- ==== Sys2Proof/Machine/State.lean ====
section
/-!
DEFINITION. The state of the block as plain data, and the reasons a step can stop. Registers and mailbox values are
held by page (R32, R36); every other piece of state that the manual names has a field of its own.
-/

namespace Sys2Proof.Machine

/-! ### Registers and mailboxes -/

/-- The mailbox of a page: the snapshot and the staged words 6 and 7, each with its VALUE_ID (R50, R51). -/
structure Mailbox where
  snap : Option (Nat × BitVec 256) := none
  staged : Option (Nat × BitVec 64) := none
  deriving DecidableEq, Repr

/-- Three copies of a triplicated field (R10, R60). -/
structure Copies where
  c0 : Word
  c1 : Word
  c2 : Word
  deriving DecidableEq, Repr

/-- Completion of the last access of a master: a register word, bytes of memory, done without data, or a bus error
(R57, R220). -/
inductive Resp where
  | none
  | done
  | data (w : Word)
  | bytes (l : List Byte)
  | busError
  deriving DecidableEq, Repr

/-! ### Cores -/

/-- A code image in an instruction buffer (R134). -/
structure Image where
  addr : Nat
  tag : Word
  words : List Dword
  deriving DecidableEq, Repr

/-- A task descriptor that passed R185 (R184). -/
structure Task where
  img : Nat
  len : Nat
  tag : Word
  entry : Nat
  slots : Nat
  nonReplay : Bool
  prio : Nat
  preempt : Bool
  ref : Word
  done : Nat
  args : List Dword
  deriving DecidableEq, Repr

/-- A loop entry (R146). -/
structure LoopEntry where
  first : Nat
  last : Nat
  count : Nat
  index : Nat
  d : Nat
  deriving DecidableEq, Repr

/-- Registers that a suspension moves to the shadow (R156): scalar, vector and mask files, PC, stacks, the latched step and
job key (R85, R86), and the flipped bits of the files that no read has met yet (R137). -/
structure Ctx where
  s : SMap Dword := []
  v : SMap (List Word) := []
  m : SMap Dword := []
  pc : Nat := 0
  loops : List LoopEntry := []
  calls : List Nat := []
  step : Word := 0
  key : BitVec 128 := 0
  soft : List SoftError := []
  deriving DecidableEq, Repr

/-- What a running tile waits for (R148, R142). -/
inductive Wait where
  | none
  | counter (d : Nat) (addr : Nat) (target : Dword) (equal : Bool) (deadline : Option Nat)
  | time (d : Nat) (target : Nat)
  | tags (mask : Nat)
  | passes (mask : Nat)
  deriving DecidableEq, Repr

/-- Where a tile stands: image load, running, COMMIT waiting (R152 step 1), COMMIT performed (step 3). -/
inductive Phase where
  | loading | running | commitWait | commitDone
  deriving DecidableEq, Repr

/-- A tile on a core: its task, the id of its dispatcher store entry, its slot base, registers, phase and wait, when it
started, whether the steps of R133 are done, and the ticks it ran before `since` (R155). -/
structure Tile where
  task : Task
  entryId : Nat
  accBase : Nat
  ctx : Ctx
  phase : Phase
  wait : Wait
  started : Nat
  begun : Bool
  since : Nat
  ran : Nat
  deriving DecidableEq, Repr

/-- What an asynchronous operation does (R142, R144, R150). -/
inductive AsyncKind where
  | dmaBm (dst src len : Nat)
  | dmaOc (dst src len : Nat)
  | dmaFab (dst src len : Nat)
  | gather (fab : Bool) (dst : Nat) (base : Dword) (idx count esize : Nat) (idx64 : Bool)
  | atom (fn : Nat) (vals : Nat) (base : Dword) (idx count : Nat) (idx64 : Bool)
  deriving DecidableEq, Repr

/-- An outstanding asynchronous operation (R149); `suspended` marks one of the suspended tile. Of one that reads another module:
the requests still to be sent as module, address and bytes (R177), the messages that are out, and the bytes that have arrived by
FAB address. -/
structure AsyncOp where
  id : Nat
  tag : Nat
  pc : Nat
  kind : AsyncKind
  suspended : Bool
  todo : List (Nat × Nat × Nat) := []
  msgs : List (BitVec 32)
  got : SMap Byte
  failed : Option Nat
  deriving DecidableEq, Repr

/-- A staged write (R151). -/
inductive Staged where
  | put (dst src len : Nat)
  | fput (dst src len : Nat)
  | scatter (src : Nat) (base : Dword) (idx count esize : Nat) (idx64 : Bool)
  deriving DecidableEq, Repr

/-- A staging-list entry and whether it is the suspended tile's. -/
structure StageEntry where
  what : Staged
  suspended : Bool
  deriving DecidableEq, Repr

/-- Where an accepted pass stands: queued behind another, its array's running pass, feeding ended but rows still to be
written, withdrawn by a pre-emption (R103, R105, R123). -/
inductive PassState where
  | queued | running | draining | withdrawn
  deriving DecidableEq, Repr

/-- The fields of a pass descriptor (R100). -/
structure PassDesc where
  wide : Bool
  array : Nat
  conv : Bool
  fmtA : Nat
  fmtB : Nat
  stoch : Bool
  overwrite : Bool
  rows : Nat
  slot : Nat
  trow : Nat
  tsp : Word
  kgroups : Nat
  aVal : Nat
  aPitch : Nat
  aScl : Nat
  bVal : Nat
  bPitch : Nat
  bScl : Nat
  convDesc : Nat
  indexBase : Nat
  deriving DecidableEq, Repr

/-- A convolution descriptor (R119). -/
structure ConvDesc where
  inW : Nat
  inH : Nat
  rowPitch : Nat
  pixPitch : Nat
  outW : Nat
  ox0 : Nat
  oy0 : Nat
  sy : Nat
  sx : Nat
  dy : Nat
  dx : Nat
  kr : Nat
  ks : Nat
  padT : Nat
  padL : Nat
  deriving DecidableEq, Repr

/-- An accepted pass: the copied descriptors, its tile's slot base, latched step and job key, the 16-byte units written since
acceptance with their old content (R99) and the seed of the free choices between old and new. -/
structure Pass where
  id : Nat
  desc : PassDesc
  conv : Option ConvDesc
  accBase : Nat
  step : Word
  key : BitVec 128
  suspended : Bool
  st : PassState
  begun : Bool
  dirty : SMap (List Byte)
  seed : Nat
  deriving DecidableEq, Repr

/-- A core (R16): a task just given to it, image, running tile, suspended tile, asynchronous operations, staging list, passes,
accumulator tile rows (listed rows are valid, R112), operand cache, flipped bits of its image, cache and accumulators that no read
has met yet (R117, R137, R173), and the requests that wait on it. -/
structure Core where
  image : Option Image := none
  flush : Bool := false
  tile : Option Tile := none
  shadow : Option Tile := none
  asyncs : List AsyncOp := []
  staging : List StageEntry := []
  passes : List Pass := []
  acc : SMap (List Word) := []
  oc : SMap Byte := []
  soft : List SoftError := []
  invWait : List (Nat × List Nat) := []
  asked : Bool := false
  preempt : Option (Task × Nat) := none
  undo : List (Nat × Byte) := []
  nextId : Nat := 0
  abandonedAt : Option Nat := none
  given : Option (Task × Nat) := none
  deriving DecidableEq, Repr

/-! ### Dispatchers -/

/-- When a released list may run: its bell with the ramp in force when the bell was fixed, or the barrier it waits
for (R194, R197, R208). -/
inductive Bell where
  | at (time stepsLog2 stepTicks : Nat)
  | barrier (id : BitVec 16)
  deriving DecidableEq, Repr

/-- An entry of the descriptor store: the task, its place in order, its bell, its arrival, the wards for which its bell
has rung, its re-issues and the core that runs it (R186, R187, R190). -/
structure StoreEntry where
  id : Nat
  task : Task
  order : Int
  bell : Bell
  arrived : Nat
  rung : BitVec 8
  reissues : Nat
  core : Option Nat
  deriving DecidableEq, Repr

/-- A list still to be fetched: next descriptor address, descriptors left, its bell, whether it overflowed the
store, whether its bell was reported late, and the place in order of its next descriptor (R186, R196). -/
structure FetchList where
  addr : Nat
  left : Nat
  bell : Bell
  overflowed : Bool
  late : Bool
  order : Int
  deriving DecidableEq, Repr

/-- An armed watch (R192) with its place in the order of arming over all dispatchers (R193). -/
structure Watch where
  counter : Nat
  target : Dword
  record : Nat
  stamp : Nat
  deriving DecidableEq, Repr

/-- A release record that waits to be read: its address, and for a fired watch the update that fired it, numbered from 1, and
the watch's place in the order of arming (R193). -/
structure RecordRef where
  addr : Nat
  fire : Nat := 0
  stamp : Nat := 0
  deriving DecidableEq, Repr

/-- An entry of the failure record (R191). -/
structure Failure where
  ref : Word
  reason : Nat
  cause : Nat
  core : Nat
  time : Dword
  deriving DecidableEq, Repr

/-- How a tile ended, as its core reports it (R152, R154, R124). -/
inductive EndKind where
  | normal
  | abandoned
  | failed (cause : Nat)
  deriving DecidableEq, Repr

/-- A report that waits at the dispatcher. -/
structure Report where
  kind : EndKind
  core : Nat
  entryId : Nat
  deriving DecidableEq, Repr

/-- A dispatcher (R186 to R196). -/
structure Disp where
  store : List StoreEntry := []
  lists : List FetchList := []
  watches : List Watch := []
  failures : List Failure := []
  records : List RecordRef := []
  reports : List Report := []
  nextId : Nat := 0
  nextOrder : Int := 0
  deriving DecidableEq, Repr

/-! ### Bulk memory -/

/-- A row of a bank of a channel. -/
structure RowRef where
  chan : Nat
  bank : Nat
  row : Nat
  deriving DecidableEq, Repr

/-- A remap entry (R227, R228, R246). -/
structure RemapEntry where
  bank : Nat
  failed : Nat
  depth : Nat
  spare : Nat
  dead : Nat
  deriving DecidableEq, Repr

/-- A range whose bytes the manual leaves open until they are written (R302). -/
structure OpenRange where
  base : Nat
  len : Nat
  seed : Nat
  deriving DecidableEq, Repr

/-- The tables of a channel (R224 to R232); `scrubAt` is when the next slot of its scrub is due, 0 before the first (R225). -/
structure Chan where
  remap : SMap RemapEntry := []
  retired : SMap Nat := []
  poolUsed : SMap Bool := []
  unbacked : SMap Bool := []
  ceRows : List (RowRef × Nat) := []
  scrubNext : Nat := 0
  scrubAt : Nat := 0
  sparesTaken : SMap Nat := []
  mr4 : Nat := 0
  rate : Option Nat := none
  failed : Bool := false
  deriving DecidableEq, Repr

/-- Bulk memory: logical data, poisoned words (by address / 8 of the logical word key), differences of stored bytes
from a good code page, channels, candidate queue, rows whose candidate found it full, the pages of the retirement that runs
with the remap entry that it frees at its end, and re-plans that pend (R215 to R235). -/
structure Mem where
  data : SMap Byte := []
  opens : List OpenRange := []
  poison : SMap Bool := []
  flips : SMap Byte := []
  chans : SMap Chan := []
  queue : List RowRef := []
  dropped : List RowRef := []
  retireQ : List (Nat × Nat) := []
  retireEntry : Option (Nat × Nat) := none
  filled : Bool := false
  replanPending : List Nat := []
  deriving DecidableEq, Repr

/-! ### Optical ports -/

/-- A DATA frame kept for replay (R258). -/
structure TxFrame where
  seq : Nat
  vc : Nat
  payload : List Byte
  replays : Nat
  deriving DecidableEq, Repr

/-- A lane command (R260): SWAP, NARROW or WIDEN of a physical lane. -/
structure LaneCmd where
  code : Nat
  lane : Nat
  deriving DecidableEq, Repr

/-- An optical port beside its registers (R253 to R272). Lists of four are per virtual channel: units sent, acknowledged and freed, the
receive buffer (`rxBuf`), the packet that the fabric unit takes from it (`rxPart`) and the one that waits there (`rxHead`). `line` is what
the port has sent, codeword by codeword; `nakDue` and `ackDue` are a NAK and a CMD_ACK that the next header carries; `held` is the own
module's PARAM values that hold the port (SELF_LINK), `paramOut` the values it reports itself; `mapped` says that maps have been chosen. -/
structure Port where
  nextSeq : Nat := 0
  replay : List TxFrame := []
  txq : List (List Byte) := [[], [], [], []]
  txTotal : List Nat := [0, 0, 0, 0]
  ackTotal : List Nat := [0, 0, 0, 0]
  txPkts : List (Nat × Nat × Packet) := []
  turn : Nat := 0
  peerCredit : List Nat := [0, 0, 0, 0]
  peerShare : List Nat := [0, 0, 0, 0]
  rxShare : List Nat := [16, 16, 16, 16]
  rxNext : Nat := 0
  nakSent : Bool := false
  nakDue : Bool := false
  ackDue : Bool := false
  crTurn : Nat := 0
  rxUnits : List Nat := [0, 0, 0, 0]
  rxBuf : List (List Byte) := [[], [], [], []]
  rxPart : List (List Byte) := [[], [], [], []]
  rxHead : List (Option Packet) := [none, none, none, none]
  line : List LaneWord := []
  since : Nat := 0
  lastData : Nat := 0
  cmdOut : Option LaneCmd := none
  cmdAcked : Bool := false
  cmdIn : Option LaneCmd := none
  txGood : BitVec 9 := 0
  rxGood : BitVec 9 := 0
  laserSince : Option Nat := none
  laserAt : Option Nat := none
  timeMeas : Nat := 0
  echoTx : Nat := 0
  echoRx : Nat := 0
  timeAt : Option Nat := none
  badRun : Nat := 0
  partner : Option (Nat × Nat) := none
  held : Option Partner := none
  paramOut : Option Partner := none
  keepSeq : Bool := false
  narrowQ : List Nat := []
  replanLanes : List Nat := []
  ratios : List LaneRatio := []
  mapped : Bool := false
  txMap : List Nat := [0, 1, 2, 3, 4, 5, 6, 7]
  rxMap : List Nat := [0, 1, 2, 3, 4, 5, 6, 7]
  deriving DecidableEq, Repr

/-- A request of the lane bring-in class (R265): port, physical lane in the map to replace or none for WIDEN,
whether it is a re-plan swap, and the lane that a re-plan's second SWAP brings back (R267). -/
structure LaneReq where
  port : Nat
  lane : Option Nat
  replan : Bool
  back : Option Nat := none
  deriving DecidableEq, Repr

/-! ### Transport, collectives, membership -/

/-- Whose access an outstanding message serves (R282). -/
inductive MsgOwner where
  | async (core : Nat) (op : Nat)
  | commit (core : Nat)
  | coll (id : BitVec 16) (rank : Nat)
  | control
  deriving DecidableEq, Repr

/-- An outstanding message (R282, R284). -/
structure Msg where
  die : Nat
  pk : Packet
  owner : MsgOwner
  first : Nat
  last : Nat
  resends : Nat
  port : Option Nat
  deriving DecidableEq, Repr

/-- A collective descriptor that passed R297 (R296). -/
structure CollDesc where
  op : Nat
  red : Nat
  wire : Nat
  out : Nat
  id : BitVec 16
  rankset : Nat
  cap : Nat
  src : Nat
  dst : Nat
  len : Nat
  table : Nat
  srcScl : Nat
  srcSide : Nat
  rowK : Nat
  ts : Word
  startCtr : Nat
  startTgt : Dword
  doneCtr : Nat
  ledger : Nat
  tagStep : Word
  tagShard : Word
  status : Nat
  deriving DecidableEq, Repr

/-- The exchange block of an EXCHANGE or COMBINE (R305); `rowb` is the row size in bytes. -/
structure ExchBlk where
  t : Nat
  topk : Nat
  e : Nat
  rowb : Nat
  rowFmt : Nat
  recvRows : Nat
  route : Nat
  e2m : Nat
  caps : Nat
  info : Nat
  drop : Nat
  deriving DecidableEq, Repr

/-- What a running collective knows of a peer position: its handshake and count, what it grants, which streams went to
it, bytes applied of its streams, the stream where it is kept whole, its TSCALE, its count and admission lists with the
bytes that have arrived of them (R298, R303, R304, R306, R309). -/
structure Peer1 where
  pos : Nat
  ready : Bool := false
  count : Nat := 0
  grant : Option Nat := none
  sent0 : Bool := false
  sent1 : Bool := false
  got0 : Nat := 0
  got1 : Nat := 0
  stream : SMap Byte := []
  ts : Word := 0
  countList : SMap Byte := []
  countGot : Nat := 0
  countTotal : Option Nat := none
  admitList : SMap Byte := []
  admitGot : Nat := 0
  admitTotal : Option Nat := none
  closed : Bool := false
  deriving DecidableEq, Repr

/-- An armed or running collective (R297, R298); `started` says that its start counter has been seen at its target (R192);
`admits` holds, per source position, what this member admits;
`ending` is the status of a part that has ended and whose record is still to be written (R302). -/
structure Coll where
  desc : CollDesc
  xblk : Option ExchBlk
  started : Bool := false
  running : Bool := false
  ranks : List Nat := []
  pos : Nat := 0
  table : List (Nat × Nat) := []
  digest : Word := 0
  e2m : List (Nat × Nat) := []
  peers : List Peer1 := []
  phase1 : Bool := false
  admits : Option (List (List Nat)) := none
  refused : Nat := 0
  skipped : Nat := 0
  ending : Option Nat := none
  endEpoch : BitVec 16 := 0
  deriving DecidableEq, Repr

/-- A membership update that waits for its bell: epoch, bell, whole-table flag, entries, routes (R293, R295). -/
structure MemberUpd where
  epoch : BitVec 16
  bell : Nat
  full : Bool
  entries : List (Nat × BitVec 32)
  routes : List (BitVec 16 × BitVec 16)
  deriving DecidableEq, Repr

/-- An update whose packets are still arriving (R295): its length, offset and length of each packet that came, and their bytes. -/
structure PartUpd where
  total : Nat
  parts : List (Nat × Nat)
  bytes : SMap Byte
  deriving DecidableEq, Repr

/-- A barrier at the group manager: its arrivals and the last arrival's time (R294). -/
structure Barrier where
  id : BitVec 16
  arrived : List Nat
  last : Nat
  deriving DecidableEq, Repr

/-- Transport and group state beside the registers of pages 0x030 and 0x031. -/
structure Net where
  out : List Msg := []
  waitq : List Msg := []
  nextMsg : BitVec 32 := 0
  applied : List (BitVec 16 × BitVec 32 × Nat) := []
  inbox : List Packet := []
  routes : SMap (BitVec 16) := []
  routeSel : Nat := 0
  colls : List Coll := []
  early : List Packet := []
  exchSrc : SMap Nat := []
  laneQ : List LaneReq := []
  laneRun : Option LaneReq := none
  members : SMap (BitVec 32) := []
  memberSel : Nat := 0
  updates : List MemberUpd := []
  partUpd : Option PartUpd := none
  heard : SMap Nat := []
  gmHeard : Nat := 0
  hbSent : Nat := 0
  reportsDirty : Bool := false
  barriers : List Barrier := []
  waiting : List (BitVec 16 × Nat) := []
  ranksets : SMap (List Nat) := []
  ranksetLast : BitVec 128 := 0
  joinSent : Option Nat := none
  gm : BitVec 16 := 0
  jobId : Word := 0
  hops : Nat := 0
  gmLost : Option Nat := none
  offRuns : Int := 0
  slew : Int := 0
  slewHeld : Bool := false
  syncLost : Bool := false
  stepped : Bool := false
  reportsOf : SMap (List (BitVec 32)) := []
  deriving DecidableEq, Repr

/-! ### Ledger checks and update units -/

/-- An armed ledger check (R327); `started` says that its start counter has been seen at its target. -/
structure Ledger where
  id : Word
  nr : Nat
  ref : Nat
  cur : Nat
  startCtr : Nat
  startTgt : Dword
  gate : Nat
  result : Nat
  started : Bool := false
  deriving DecidableEq, Repr

/-- An update descriptor that passed R343; `started` says that its start counter has been seen at its target. `quant` is the
quantisation descriptor as it stood at arming, which the unit uses from then on (log 44). -/
structure UpdDesc where
  rule : Nat
  nesterov : Bool
  skipNf : Bool
  emaEn : Bool
  nsIters : Nat
  wcFmt : Nat
  split : Nat
  rootP : Nat
  id : Word
  state : Nat
  grad : Nat
  gscale : Nat
  scratch : Nat
  scratchLen : Nat
  qdesc : Nat
  coef : Nat
  startCtr : Nat
  startTgt : Dword
  doneCtr : Nat
  status : Nat
  lr : Word
  wd : Word
  b1 : Word
  b2 : Word
  eps : Word
  emaDecay : Word
  scale : Word
  rootInterval : Nat
  started : Bool := false
  quant : List Byte := []
  deriving DecidableEq, Repr

/-- Where an update stands: PREPARE to run, or the commits (R346, R352). -/
inductive UpdPhase where
  | prepare | commit
  deriving DecidableEq, Repr

/-- The array work of a prepare phase (R348): the tiles still to be submitted, the store entry of the one that is out, and whether a
full store holds the next one back. -/
structure UpdWork where
  left : Nat
  tile : Option Nat := none
  late : Bool := false
  deriving DecidableEq, Repr

/-- The running or held update (R346 to R356): its log, the step, powers and key it latched (R85, R86), its array work, what the
prepare phase computed (new momentum, update, new factors by KIND of R351), the sub-shard that comes next, whether its image is in the
journal, since when it waits under R353, and whether it is held. -/
structure UpdRun where
  desc : UpdDesc
  phase : UpdPhase
  held : Bool
  step : Word
  b1pow : Word
  b2pow : Word
  mNew : List Word
  oNew : List Word
  extra : List (Nat × List Word)
  next : Nat
  total : Nat
  nf : Nat
  image : Option Nat
  waiting : Option Nat
  key : BitVec 128 := 0
  work : Option UpdWork := none
  deriving DecidableEq, Repr

/-- An update unit: armed updates, oldest first, the running one, SEQ of the last commit and the descriptor it was made under (R351,
R352, R359 to R361). -/
structure Upd where
  armed : List UpdDesc := []
  run : Option UpdRun := none
  seq : Word := 0
  jdesc : Option UpdDesc := none
  deriving DecidableEq, Repr

/-! ### Health monitor -/

/-- An entry of the event log with what holds it: the ring of a die's part of bulk memory at entry `slot` of the part, the
manager buffer (`buf`), and the system-area ring (`sys`) (R216, R460, R461, R533). -/
structure LogEntry where
  time : Dword
  boot : Nat
  count : Nat
  page : Nat
  bit : Nat
  kind : Nat
  data : List Word
  die : Option Nat
  slot : Nat
  buf : Bool
  sys : Bool
  read : Bool
  deriving DecidableEq, Repr

/-- A class-0 request: replace a fenced core, or return a core fenced by COMMAND (R448, R450). -/
structure CoreReq where
  core : Nat
  back : Bool
  deriving DecidableEq, Repr

/-- A row candidate of class 2 or 3: core, bank (0 to 47) or array (0 to 3), row, and whether it is filled with zero
after a double-bit error (R454). -/
structure RowReq where
  core : Nat
  oc : Bool
  part : Nat
  row : Nat
  zero : Bool
  deriving DecidableEq, Repr

/-- The health monitor beside its registers (R447 to R464); `jobCores` is the core count that a job's telemetry carries (R453). -/
structure Health where
  coreState : SMap Nat := []
  coreCause : SMap Nat := []
  coreSel : Nat := 0
  ueTimes : SMap (List Nat) := []
  rowCe : SMap (List Nat) := []
  rowQ : List RowReq := []
  rowUsed : SMap Nat := []
  coreQ : List CoreReq := []
  coreRun : Option (CoreReq × Nat) := none
  mgrFenced : BitVec 18 := 0
  mgrSpare : BitVec 18 := 0x30000
  mgrQ : List Nat := []
  drops : SMap Nat := []
  used : SMap Nat := []
  classSel : Nat := 0
  scores : SMap Nat := []
  weights : SMap Nat := []
  cur : SMap Nat := []
  lastSecond : SMap Nat := []
  inputSel : Nat := 0
  riskArmed : Bool := true
  log : List LogEntry := []
  boot : Nat := 0
  logCount : Nat := 0
  lostRun : Bool := false
  lostOwed : Bool := false
  ringPos : SMap Nat := []
  downSince : Option Nat := none
  downMask : Nat := 0
  downExcl : Bool := false
  downTicks : Nat := 0
  exclTicks : Nat := 0
  poweredSince : Nat := 0
  poweredTicks : Nat := 0
  timeouts : SMap (List Nat) := []
  jobCores : Nat := 1152
  deriving DecidableEq, Repr

/-! ### Checkpoint store (13_checkpoint.md) -/

/-- A unit in the store: its clutch, its kind (0 own, 1 P, 2 Q), round and stripe, the die, block and slot that hold it,
its bytes (bytes not listed are zero), and whether it is lost (R363, R364, R374). -/
structure FlashUnit where
  clutch : Nat
  kind : Nat
  round : Nat
  stripe : Nat
  die : Nat
  block : Nat
  slot : Nat
  data : SMap Byte
  lost : Bool
  deriving DecidableEq, Repr

/-- A flash die: failed, spares used, retired blocks, erase counts and the times blocks were last programmed
(R363 to R369). -/
structure FlashState where
  failed : Bool := false
  sparesUsed : Nat := 0
  retired : SMap Bool := []
  erases : SMap Nat := []
  programmed : SMap Nat := []
  deriving DecidableEq, Repr

/-- An entry of the clutch directory (R370, R395) with the unit count U of its layout; `away` marks a retained clutch whose units of a
lost rank a new holder has still to rebuild (R386). -/
structure ClutchRec where
  st : Nat := 0
  k : Nat := 0
  n : Nat := 0
  reason : Nat := 0
  step : Nat := 0
  epoch : Nat := 0
  g : Nat := 0
  bell : Nat := 0
  own : Nat := 0
  parity : Nat := 0
  u : Nat := 0
  away : Bool := false
  deriving DecidableEq, Repr

/-- The accumulator of a parity unit: round, stripe, P or Q, its sum, and per data place the offsets that have arrived or
the zero status (R375). -/
structure ParityAcc where
  round : Nat
  stripe : Nat
  q : Bool
  data : SMap Byte
  got : SMap (List Nat)
  zero : List Nat
  deriving DecidableEq, Repr

/-- A capture under way (R371 to R376): the clutch, its layout, U once fixed, its bell, the catalogue entries still to be
streamed, the stream so far, units whose records could not be read, what has been sent and the accumulators; at the group
manager the counts and the ranks secured. -/
structure Capture where
  num : Nat
  k : Nat
  g : Nat
  n : Nat
  barrier : BitVec 16
  u : Option Nat := none
  bell : Option Nat := none
  begun : Bool := false
  todo : List Nat := []
  stream : SMap Byte := []
  len : Nat := 0
  bad : List Nat := []
  sent : Bool := false
  written : Bool := false
  parity : List ParityAcc := []
  counts : SMap Nat := []
  secured : List Nat := []
  lostSome : Bool := false
  later : List Nat := []
  deriving DecidableEq, Repr

/-- A contributor's part in rebuilding a unit, with the packets it has passed on (R385). -/
structure ChainReq where
  holder : BitVec 16
  clutch : BitVec 16
  rank : Nat
  round : Nat
  chain : List (Nat × Nat × Nat)
  sent : Nat := 0
  deriving DecidableEq, Repr

/-- A unit being rebuilt: rank, clutch, kind, round, stripe, length of the chain, sum and offsets received (R385). -/
structure Rebuild where
  rank : Nat
  clutch : Nat
  kind : Nat
  round : Nat
  stripe : Nat
  chain : Nat
  data : SMap Byte := []
  got : List Nat := []
  deriving DecidableEq, Repr

/-- A restore (R382): clutch, bell, source, ranks to rebuild with their holders, whether the bell has rung, the rounds
still to be rebuilt and the units rebuilt, and at the group manager the results and whether it fell back. -/
structure Restore where
  clutch : Nat
  bell : Nat
  source : Nat
  entries : List (Nat × BitVec 16)
  begun : Bool := false
  need : List Nat := []
  units : SMap (SMap Byte) := []
  results : SMap Nat := []
  fallback : Bool := false
  ended : Bool := false
  deriving DecidableEq, Repr

/-- A lost rank at the group manager: its new holder, the latest clutch at the loss, whether its state is restored, and whether the
group stripes its clutches, so that a standby member can take the rank (R25, R384, R386, R387). -/
structure LostRank where
  rank : Nat
  holder : BitVec 16
  upto : Nat
  restored : Bool
  striped : Bool := true
  deriving DecidableEq, Repr

/-- A running export or import (R390, R391): which, clutch, rank, the stream or what has arrived of it, and for an export
the bytes already handed to the session. -/
structure Xfer where
  isImport : Bool
  session : Bool
  clutch : Nat
  rank : Nat
  data : SMap Byte := []
  len : Nat := 0
  moved : Nat := 0
  need : List Nat := []
  units : SMap (SMap Byte) := []
  deriving DecidableEq, Repr

/-- The checkpoint store and its clutches beside the registers of pages 0x008 to 0x00B. -/
structure Store where
  dies : SMap FlashState := []
  units : List FlashUnit := []
  dir : SMap ClutchRec := []
  dirSel : Nat := 0
  worn : Nat := 0
  eolWarned : Bool := false
  next : Nat := 1
  due : Bool := false
  asked : Bool := false
  dueRisk : Bool := false
  riskTimes : List Nat := []
  lastBell : Option Nat := none
  sideCaps : SMap Nat := []
  capture : Option Capture := none
  restore : Option Restore := none
  requests : List ChainReq := []
  early : List Packet := []
  rebuild : Option Rebuild := none
  lost : List LostRank := []
  reprotect : List (Nat × Nat × Nat × Nat × Nat) := []
  xfer : Option Xfer := none
  deriving DecidableEq, Repr

/-! ### The job (17_startup.md) -/

/-- An entry of the tensor table (R481). -/
structure TensorEntry where
  id : Nat
  placement : Nat
  layer : Nat
  expert : Nat
  rows : Nat
  cols : Nat
  fmt : Nat
  deriving DecidableEq, Repr

/-- An entry of the shard catalogue (R482). -/
structure CatEntry where
  state : Nat
  tensor : Nat
  r0 : Nat
  r1 : Nat
  c0 : Nat
  c1 : Nat
  deriving DecidableEq, Repr

/-- An action of a plan (R483). -/
structure PlanAct where
  page : Nat
  vid : Nat
  eachDie : Bool
  incWord : Nat
  inc : Dword
  words : List Nat
  deriving DecidableEq, Repr

/-- A step plan (R483). -/
structure Plan where
  stepCtr : Nat
  stepInc : Dword
  first : Nat
  steps : Nat
  acts : List PlanAct
  deriving DecidableEq, Repr

/-- A loaded job bundle: what this member takes of it (R480). -/
structure Job where
  id : Word
  restart : Bool
  key : BitVec 128
  tensors : List TensorEntry
  catalogue : List CatEntry
  plan : Option Plan
  regs : List (Nat × Nat × Word)
  ranksets : List (Nat × List Nat)
  deriving DecidableEq, Repr

/-- The ingest queue (R484): ring, size, record size, counters, and the stream bytes taken. -/
structure Ingest where
  ring : Nat
  size : Nat
  record : Nat
  prod : Nat
  cons : Nat
  taken : Nat
  deriving DecidableEq, Repr

/-! ### Clocks, power and cooling (14_clocks.md, 15_power_cooling.md) -/

/-- A ward's clock beside its page: consecutive stretched cycles, the droop request, the request of a low margin reading,
faulty replica paths, whether its domain has stopped (R398, R400, R405). -/
structure WardClk where
  trips : Nat := 0
  droop : Bool := false
  margin : Bool := false
  faulty : BitVec 8 := 0
  stopped : Bool := false
  deriving DecidableEq, Repr

/-- A margin re-plan under way: its die, its step (1 to 6), the ward or channel or port that is next, the wards that napped
and are measured later, and whether it waits for the die to wake (R409, R410). -/
structure Replan where
  die : Nat
  step : Nat
  item : Nat
  skipped : List Nat := []
  deriving DecidableEq, Repr

/-- Clock state beside the registers: wards, faulty paths of the fabric domains, re-plans waiting in die order, the one
that runs, and the times of the last re-plans and starts (R397 to R412). -/
structure Clocks where
  wards : SMap WardClk := []
  fabFaulty : SMap (BitVec 8) := []
  waiting : List Nat := []
  run : Option Replan := none
  lastReplan : SMap Nat := []
  started : SMap Nat := []
  deriving DecidableEq, Repr

/-- A rail: voltage in mV, current in 0.1 A, temperature in 0.1 °C, phases in service and spare phases (R419, R442). -/
structure Rail where
  mv : Nat
  deciamps : Nat
  temp : BitVec 16
  phases : Nat
  spares : Nat
  deriving DecidableEq, Repr

/-- A FREQ_SET that waits for its bell (R427). -/
structure FreqSet where
  code : Nat
  bell : Nat
  seq : BitVec 16
  deriving DecidableEq, Repr

/-- The power controller beside page 0x004 (R419 to R431). `cap` is the request of R423 in sixteenths, `dieCap` that of a
VCORE rail near its limit; `allow` is what the group manager knows of its members. -/
structure PowerCtl where
  pend : Option FreqSet := none
  seqOut : BitVec 16 := 0
  set : Bool := false
  slewing : List Nat := []
  late : List Nat := []
  allow : SMap Nat := []
  holdSince : Option Nat := none
  sent : Option Nat := none
  fromCap : Bool := false
  cap : Nat := 16
  below : Option Nat := none
  dieCap : SMap Nat := []
  lowered : Nat := 0
  deepSince : Option Nat := none
  clearSince : Option Nat := none
  dipStart : Option Nat := none
  dipLow : Nat := 0
  energyRest : Nat := 0
  rails : SMap Rail := []
  railSel : Nat := 0
  phaseQ : List Nat := []
  deriving DecidableEq, Repr

/-- Welea rotation of a die (R438): the pair that holds ROT_DUTY, when its period began, the periods since entry, whether
every pass of the rotation so far was hot, consecutive hot rotations, the lowering, whether a ward was warm in this
period and the consecutive cool periods. -/
structure Rotation where
  pair : Nat
  since : Nat
  period : Nat
  hot : Bool
  run : Nat
  lowering : Nat
  warm : Bool
  cool : Nat
  deriving DecidableEq, Repr

/-- The thermal controller beside page 0x005 (R432 to R439). Requests are in sixteenths, 16 when not listed. -/
structure ThermCtl where
  req : SMap Nat := []
  hotSince : SMap Nat := []
  coolSince : SMap Nat := []
  temps : SMap Int := []
  rot : SMap Rotation := []
  tripAt : SMap Nat := []
  sleptAt : SMap Nat := []
  trips : SMap (List Nat) := []
  held : List Nat := []
  inlet : Option Int := none
  outlet : Option Int := none
  inletHigh : Bool := false
  inletLow : Bool := false
  outletHigh : Bool := false
  hotInlet : Option Nat := none
  sensorFault : Bool := false
  flowLost : Bool := false
  lowFlow : Option Nat := none
  goodFlow : Option Nat := none
  flowLow : Bool := false
  imbalance : Nat := 0
  deriving DecidableEq, Repr

/-! ### The manager (17_startup.md) and security (18_security.md) -/

/-- A manager core (R16, R468): its RV64 integer and floating-point registers by number, program counter, privilege mode (3
machine, 1 supervisor, 0 user) and the control and status registers by number; what is not listed is zero (log 70). -/
structure Hart where
  x : SMap Dword := []
  f : SMap Dword := []
  pc : Dword := 0
  mode : Nat := 3
  csr : SMap Dword := []
  deriving DecidableEq, Repr

/-- A message of the management session (R473). -/
structure MgmtMsg where
  peer : Peer
  typ : Nat
  session : BitVec 32
  seq : Nat
  ack : Nat
  chan : Nat
  payload : List Byte
  deriving DecidableEq, Repr

/-- A sequenced message that the peer has not acknowledged: when it was last sent and how often it was resent; `upto` is
how many log entries it carries (R461, R475). -/
structure Unacked where
  msg : MgmtMsg
  last : Nat
  resends : Nat
  entries : List (Nat × Nat)
  deriving DecidableEq, Repr

/-- A bound session (R475, R476): the peer, SESSION, numbers of the last message delivered and sent, unacknowledged
messages and those that wait for room, whether an acknowledgement is owed and since when, last times of either side,
and the SEQ (boot, count) of the next log entry to send. -/
structure Session where
  peer : Peer
  id : BitVec 32
  inSeq : Nat := 0
  outSeq : Nat := 0
  unacked : List Unacked := []
  queue : List (Nat × Nat × List Byte × List (Nat × Nat)) := []
  ackOwed : Option Nat := none
  heard : Nat
  sentAt : Nat
  nextEvent : Nat × Nat
  deriving DecidableEq, Repr

/-- An open upload on channel 1: a bundle or an image for a slot (R478, R504): length, CRC, bytes present, and the tag and
opcode of the JOB_LOAD that waits for its answer. -/
structure Upload where
  slot : Option Nat
  len : Nat
  crc : Word
  data : SMap Byte := []
  tag : BitVec 32
  deriving DecidableEq, Repr

/-- The manager beside its pages: the session, what has gone out on the management port, the upload, the quote, telemetry,
the SMBus snapshot and its last reply, the IPv4 address in use, the manager cores, the bytes of the local store, and what
Fethaum has reported for which the spec lists no message: the page of the block and the values (R468 to R494). -/
structure Mgmt where
  session : Option Session := none
  lastSession : BitVec 32 := 0
  wire : List MgmtMsg := []
  replies : List (List Byte) := []
  upload : Option Upload := none
  telemetry : Nat := 0
  telemetryAt : Nat := 0
  smbus : SMap Nat := []
  smbusReply : Option (List Byte) := none
  lease : Option (BitVec 32 × BitVec 6) := none
  txDisabled : Bool := true
  jobHash : BitVec 256 := 0
  harts : SMap Hart := []
  localStore : SMap Byte := []
  reports : List (Nat × List Nat) := []
  deriving DecidableEq, Repr

/-- An image as a slot or the local store holds it (R500, R502). -/
structure ImageSlot where
  bytes : SMap Byte
  len : Nat
  deriving DecidableEq, Repr

/-- Security state beside page 0x002 (R500 to R513): images by slot (0 A, 1 B, 2 RAM), presses of the button, seal timing
(`sealAtPower` until the loop has been judged after power-on), the persisted high mark of the one-time signatures, whether the warning was given, the quote and the one being built, and
halted manager cores. -/
structure Security where
  images : SMap ImageSlot := []
  pressUntil : Option Nat := none
  sealOpenSince : Option Nat := none
  sealMarginal : Bool := false
  sealAtPower : Bool := true
  otsHigh : Nat := 0
  otsWarned : Bool := false
  quote : List Byte := []
  building : Option (List Byte × Nat) := none
  halted : List Nat := []
  deriving DecidableEq, Repr

/-- What the system area holds of class P state as last persisted (R232, R365, R447): registers, mailbox values, the tables
of the channels, pending region re-plans, the health record and the dates of the last re-plans. The flash units, the clutch
directory and the images are in flash as they are written. -/
structure Saved where
  regs : SMap Word := []
  wide : SMap Wide := []
  chans : SMap Chan := []
  replanPending : List Nat := []
  health : Health := {}
  lastReplan : SMap Nat := []
  rails : SMap Rail := []
  deriving DecidableEq, Repr

/-- Module-level state: whether RESET_L is low or the input is too low, the persisted class P state, dies asleep on the
host's command, pages whose class V fields software had set before a sleep (R14), whether the boot under way follows a warm
reset, and whether the start-up waits for the worker dies (R490 to R494). -/
structure Sys where
  resetLow : Bool := false
  supplyLow : Bool := false
  saved : Saved := {}
  hostSleep : List Nat := []
  defaults : List Nat := []
  warm : Bool := false
  deriving DecidableEq, Repr

/-! ### Reasons to stop -/

/-- No command of this block stops the model with a fault. The one constructor stands for an index outside the module
that a command's operands could still name; it is safe: the module has no such unit. -/
inductive Fault where
  /-- Raised by a command whose operand names a unit the module does not have. Safe. -/
  | noSuchUnit
  deriving DecidableEq, Repr

/-- Reasons to refuse a command. -/
inductive Refusal where
  /-- Raised by the table of arms for a row without a meaning. Safe. -/
  | notModelled (mnemonic : String)
  deriving DecidableEq, Repr

/-- The state of the block. -/
structure State where
  time : Dword
  wardOff : SMap Int
  regs : SMap Word
  wide : SMap Wide
  mailbox : SMap Mailbox
  triple : SMap Copies
  resp : Resp
  cores : SMap Core
  disps : SMap Disp
  mem : Mem
  ports : SMap Port
  net : Net
  ledgers : SMap (List Ledger)
  upds : SMap Upd
  store : Store
  job : Option Job
  planNext : Option Nat
  ingest : Option Ingest
  health : Health
  clk : Clocks
  power : PowerCtl
  therm : ThermCtl
  mgmt : Mgmt
  sec : Security
  sys : Sys
  freeCount : Nat
  pending : List Instr
  deriving DecidableEq, Repr


/-- The state right after the module's first reset, before its dies have power (R13, R490): every register and mailbox value
at the reset value of its table, nothing listed in memory, no command waiting. STRAP_SNAP holds the default straps, of which
only REFCLK_SRC is 1 (R488). -/
def State.reset : State where
  time := 0
  wardOff := []
  regs := [(0x1100, 0x400)]
  wide := []
  mailbox := []
  triple := []
  resp := .none
  cores := []
  disps := []
  mem := {}
  ports := []
  net := {}
  ledgers := []
  upds := []
  store := {}
  job := none
  planNext := none
  ingest := none
  health := {}
  clk := {}
  power := {}
  therm := {}
  mgmt := {}
  sec := {}
  sys := {}
  freeCount := 0
  pending := []


end Sys2Proof.Machine
end

