-- ==== Sys2Proof/Machine/Ops.lean ====
section
/-!
DEFINITION. Named operations over registers: the page map (R36), reset words, fields, events (R44), saturating counters
(R89, R92), mailbox values, free values, and which pages answer (R36, R54).
-/

namespace Sys2Proof.Machine

/-- What a command answers. -/
abbrev Answer := Host.Outcome State Fault Refusal

/-! ### The page map -/

/-- The blocks of R36; the checkpoint store and the management port are split by page (R37). -/
inductive Block where
  | manager | straps | security | timeBase | power | thermal | health
  | store0 | store1 | store2 | store3 | mgmtLink | mgmtSession | mgmtSpare
  | port | transport | membership | memCtl | interleave | workerDie | update | dispatcher | ward | core
  deriving DecidableEq, Repr

/-- The block that a page index serves, if any (R36). -/
def pageBlock (p : Nat) : Option Block :=
  if p = 0 then some .manager else if p = 1 then some .straps else if p = 2 then some .security
  else if p = 3 then some .timeBase else if p = 4 then some .power else if p = 5 then some .thermal
  else if p = 6 then some .health
  else if p = 8 then some .store0 else if p = 9 then some .store1 else if p = 10 then some .store2
  else if p = 11 then some .store3
  else if p = 0x10 then some .mgmtLink else if p = 0x11 then some .mgmtSession
  else if 0x12 ≤ p ∧ p ≤ 0x1F then some .mgmtSpare
  else if 0x20 ≤ p ∧ p ≤ 0x2F then some .port
  else if p = 0x30 then some .transport else if p = 0x31 then some .membership
  else if 0x40 ≤ p ∧ p ≤ 0x4F then some .memCtl else if p = 0x50 then some .interleave
  else if 0x60 ≤ p ∧ p ≤ 0x63 then some .workerDie else if 0x64 ≤ p ∧ p ≤ 0x67 then some .update
  else if 0x68 ≤ p ∧ p ≤ 0x6B then some .dispatcher else if 0x70 ≤ p ∧ p ≤ 0x8F then some .ward
  else if 0x100 ≤ p ∧ p ≤ 0x5BF then some .core
  else none

/-- Register page of a core: 0x100 + its global number (R36). -/
def pgCore (g : Nat) : Nat := 0x100 + g
/-- Register page of a ward. -/
def pgWard (w : Nat) : Nat := 0x70 + w
/-- Register page of an optical port. -/
def pgPort (n : Nat) : Nat := 0x20 + n
/-- Register page of a memory package. -/
def pgMem (n : Nat) : Nat := 0x40 + n
/-- Register page of a worker die. -/
def pgDie (d : Nat) : Nat := 0x60 + d
/-- Register page of an update unit. -/
def pgUpd (d : Nat) : Nat := 0x64 + d
/-- Register page of a dispatcher. -/
def pgDisp (d : Nat) : Nat := 0x68 + d

/-- TYPE and INSTANCE of a page as the BLOCK_ID word (R36, R40). -/
def blockId (b : Block) (p : Nat) : Nat :=
  let ti : Nat × Nat := match b with
    | .manager => (1, 0) | .straps => (2, 0) | .security => (3, 0) | .timeBase => (4, 0) | .power => (5, 0)
    | .thermal => (6, 0) | .health => (7, 0)
    | .store0 => (8, 0) | .store1 => (8, 1) | .store2 => (8, 2) | .store3 => (8, 3)
    | .mgmtLink => (9, 0) | .mgmtSession => (9, 1) | .mgmtSpare => (9, p - 0x10)
    | .port => (0xA, p - 0x20) | .transport => (0xB, 0) | .membership => (0xC, 0)
    | .memCtl => (0xD, p - 0x40) | .interleave => (0xE, 0) | .workerDie => (0xF, p - 0x60)
    | .update => (0x10, p - 0x64) | .dispatcher => (0x11, p - 0x68) | .ward => (0x12, p - 0x70)
    | .core => (0x13, p - 0x100)
  ti.1 + ti.2 * 2 ^ 16

/-- The field table of a block without the common header. -/
def blockFields : Block → List FieldDef
  | .manager => fieldsManager | .straps => fieldsStraps | .security => fieldsSecurity | .timeBase => fieldsTimeBase
  | .power => fieldsPower | .thermal => fieldsThermal | .health => fieldsHealth
  | .store0 => fieldsStore0 | .store1 => fieldsStore1 | .store2 => fieldsStore2 | .store3 => fieldsStore3
  | .mgmtLink => fieldsMgmtLink | .mgmtSession => fieldsMgmtSession | .mgmtSpare => []
  | .port => fieldsPort | .transport => fieldsTransport | .membership => fieldsMembership
  | .memCtl => fieldsMemCtl | .interleave => fieldsInterleave | .workerDie => fieldsWorkerDie
  | .update => fieldsUpdate | .dispatcher => fieldsDispatcher | .ward => fieldsWard | .core => fieldsCore

/-- The mailbox table of a block. -/
def blockWides : Block → List WideDef
  | .manager => widesManager | .straps => widesStraps | .security => widesSecurity | .timeBase => widesTimeBase
  | .power => widesPower | .thermal => widesThermal | .health => widesHealth
  | .store0 => widesStore0 | .store1 => widesStore1 | .store2 => widesStore2 | .store3 => widesStore3
  | .mgmtLink => widesMgmtLink | .mgmtSession => widesMgmtSession | .mgmtSpare => []
  | .port => widesPort | .transport => widesTransport | .membership => widesMembership
  | .memCtl => widesMemCtl | .interleave => widesInterleave | .workerDie => widesWorkerDie
  | .update => widesUpdate | .dispatcher => widesDispatcher | .ward => widesWard | .core => widesCore

/-- BLOCK_CAPS of a block, as its chapter gives it (R42): 8 channels on a memory controller, 9 lanes of which 8 active
on a port. -/
def blockCaps : Block → Nat
  | .memCtl => 8
  | .port => 0x89
  | .update => 0xF
  | _ => 0

/-- All fields of a page: the common header (R39) and the block's own. -/
def pageFields (b : Block) : List FieldDef := fieldsCommon ++ blockFields b

/-- The event bits that a block defines, as a mask (R44, R45). -/
def eventMask (b : Block) : Nat :=
  0x3F + ((blockFields b).filter (fun f => f.off == 0x24)).foldl (fun a f => a + 2 ^ f.lo) 0

/-- The word of the fields at an offset when each holds its reset value. -/
def fieldsReset (l : List FieldDef) (off : Nat) : Nat :=
  (l.filter (fun f => f.off == off)).foldl (fun a f => a + f.reset % 2 ^ f.width * 2 ^ f.lo) 0

/-- What a register word reads as before anything changes it (R5, R36, R40 to R45). -/
def resetWordNat (page off : Nat) : Nat :=
  match pageBlock page with
  | none => 0
  | some b =>
    if off = 0 then blockId b page
    else if off = 4 then 0x100
    else if off = 8 then blockCaps b + (if (blockWides b).isEmpty then 0 else 2 ^ 31)
    else if off = 0x28 then eventMask b
    else fieldsReset (pageFields b) off

/-- Registers are keyed by page * 4096 + offset. -/
def regKey (page off : Nat) : Nat := page * 4096 + off

/-- The unlisted reading of a register key. -/
def regDefault (k : Nat) : Word := BitVec.ofNat 32 (resetWordNat (k / 4096) (k % 4096))

/-- The stored word of a register. -/
def regWord (s : State) (page off : Nat) : Word := mapGet regDefault (regKey page off) s.regs

/-- Store a register word. -/
def setRegWord (s : State) (page off : Nat) (w : Word) : State :=
  { s with regs := mapSet regDefault (regKey page off) w s.regs }

/-- Insert a value into bits of a word. -/
def insertBits (w : Nat) (lo width v : Nat) : Nat :=
  w - bitsOf w lo width * 2 ^ lo + v % 2 ^ width * 2 ^ lo

/-- A field of a page. -/
def fld (s : State) (page : Nat) (f : FieldDef) : Nat := bitsOf (regWord s page f.off).toNat f.lo f.width

/-- Whether a one-bit field is set. -/
def flag (s : State) (page : Nat) (f : FieldDef) : Bool := decide (fld s page f ≠ 0)

/-- Set a field of a page. -/
def setFld (s : State) (page : Nat) (f : FieldDef) (v : Nat) : State :=
  setRegWord s page f.off (BitVec.ofNat 32 (insertBits (regWord s page f.off).toNat f.lo f.width v))

/-- Set a one-bit field from a condition. -/
def setFlag (s : State) (page : Nat) (f : FieldDef) (b : Bool) : State := setFld s page f (if b then 1 else 0)

/-- Raise an event bit of a page (R44). -/
def raise (s : State) (page bit : Nat) : State :=
  setRegWord s page 0x24 (regWord s page 0x24 ||| BitVec.ofNat 32 (2 ^ bit))

/-- Raise an event bit when a condition holds. -/
def raiseIf (c : Bool) (s : State) (page bit : Nat) : State := if c then raise s page bit else s

/-- Keep what Fethaum reports of a page, where the table gives no command that carries it (log 85). -/
def report (s : State) (page : Nat) (words : List Nat) : State :=
  { s with mgmt := { s.mgmt with reports := s.mgmt.reports ++ [(page, words)] } }

/-- Add to a counter that saturates at its field's greatest value (R89, R92). -/
def bumpBy (s : State) (page : Nat) (f : FieldDef) (n : Nat) : State :=
  if n = 0 then s else setFld s page f (min (fld s page f + n) (2 ^ f.width - 1))

/-- Add one to a counter. -/
def bump (s : State) (page : Nat) (f : FieldDef) : State := bumpBy s page f 1

/-- Mailbox values are keyed by page * 65536 + VALUE_ID. -/
def wideKey (page vid : Nat) : Nat := page * 65536 + vid

/-- The unlisted reading of a mailbox value. -/
def wideDefault (k : Nat) : Wide :=
  match pageBlock (k / 65536) with
  | none => 0
  | some b => match (blockWides b).find? (fun d => d.vid == k % 65536) with
    | some d => BitVec.ofNat 256 d.reset
    | none => 0

/-- The stored mailbox value. -/
def wideVal (s : State) (page : Nat) (d : WideDef) : Wide := mapGet wideDefault (wideKey page d.vid) s.wide

/-- Store a mailbox value. -/
def setWide (s : State) (page : Nat) (d : WideDef) (v : Wide) : State :=
  { s with wide := mapSet wideDefault (wideKey page d.vid) v s.wide }

/-- Word i of a mailbox value. -/
def wideWord (v : Wide) (i : Nat) : Nat := bitsOf v.toNat (32 * i) 32

/-- A mailbox value from its 32-bit words. -/
def wideOf (ws : List Nat) : Wide := BitVec.ofNat 256 (ws.foldr (fun w a => w % 2 ^ 32 + 2 ^ 32 * a) 0)

/-- Return the fields and mailbox values of a page that have certain retention classes to their reset values (R13). -/
def resetPage (s : State) (page : Nat) (h : Hold → Bool) : State :=
  match pageBlock page with
  | none => s
  | some b =>
    let s := if h .v then { s with mailbox := mapErase page s.mailbox } else s
    let s := ((pageFields b).filter (fun f => h f.hold)).foldl (fun s f =>
      setFld s page f (bitsOf (resetWordNat page f.off) f.lo f.width)) s
    ((blockWides b).filter (fun d => h d.hold)).foldl (fun s d => setWide s page d (BitVec.ofNat 256 d.reset)) s

/-! ### Time, free values -/

/-- The time counter as a number (R201). -/
def now (s : State) : Nat := s.time.toNat

/-- Copy `k` of the time counter: 0 to 31 the wards', 32 to 35 the dispatchers' (R201). -/
def copyTime (s : State) (k : Nat) : Nat := ((now s : Int) + mapGet (fun _ => (0 : Int)) k s.wardOff).toNat % 2 ^ 64

/-- A ward's copy of the time counter (R201). -/
def wardTime (s : State) (w : Nat) : Nat := copyTime s w

/-- A dispatcher's copy of the time counter (R201). -/
def dispTime (s : State) (d : Nat) : Nat := copyTime s (32 + d)

/-- Reserve `n` free values: their first name, and the counter past them (log 5). -/
def takeFree (s : State) (n : Nat) : Nat × State := (s.freeCount, { s with freeCount := s.freeCount + n })

/-! ### Dies, wards, powered pages -/

/-- The die of a global core number. -/
def coreDie (g : Nat) : Nat := g / 304
/-- The ward 8d + w of a global core number (R18: 38 cores a ward). -/
def coreWard (g : Nat) : Nat := 8 * (g / 304) + g % 304 / 38

/-- MODULE_STATE codes (R487). -/
def msBooting : Nat := 0
/-- See `msBooting`. -/
def msReady : Nat := 1
/-- See `msBooting`. -/
def msRunning : Nat := 2
/-- See `msBooting`. -/
def msStandby : Nat := 3
/-- See `msBooting`. -/
def msReset : Nat := 4
/-- See `msBooting`. -/
def msRecovery : Nat := 5
/-- See `msBooting`. -/
def msImageWait : Nat := 6
/-- See `msBooting`. -/
def msHalted : Nat := 7

/-- MODULE_STATE (R495). -/
def modState (s : State) : Nat := fld s 0 stManagerModuleState

/-- Whether a worker die is awake (R496). -/
def dieAwake (s : State) (d : Nat) : Bool := Nat.testBit (fld s 0 fManagerAwake) d

/-- Whether a worker die is in die sleep (R496). -/
def dieAsleep (s : State) (d : Nat) : Bool := Nat.testBit (fld s 0 fManagerAsleep) d

/-- The die whose power a page needs, or none for a page that answers in module standby (R36). -/
def pageDie (b : Block) (page : Nat) : Option Nat :=
  match b with
  | .port => some ((page - 0x20) / 4)
  | .memCtl => some ((page - 0x40) / 4)
  | .workerDie => some (page - 0x60)
  | .update => some (page - 0x64)
  | .dispatcher => some (page - 0x68)
  | .ward => some ((page - 0x70) / 8)
  | .core => some ((page - 0x100) / 304)
  | _ => none

/-- Whether a page answers: its domain has power and standby permits it (R36, R54). -/
def pageServed (s : State) (page : Nat) : Bool :=
  match pageBlock page with
  | none => false
  | some b => match pageDie b page with
    | none => true
    | some d => dieAwake s d && decide (modState s ≠ msStandby)

/-! ### Sparse structures -/

/-- A core. -/
def coreOf (s : State) (g : Nat) : Core := mapGet (fun _ => ({} : Core)) g s.cores
/-- Replace a core. -/
def setCore (s : State) (g : Nat) (c : Core) : State := { s with cores := mapSet (fun _ => ({} : Core)) g c s.cores }
/-- A dispatcher. -/
def dispOf (s : State) (d : Nat) : Disp := mapGet (fun _ => ({} : Disp)) d s.disps
/-- Replace a dispatcher. -/
def setDisp (s : State) (d : Nat) (x : Disp) : State := { s with disps := mapSet (fun _ => ({} : Disp)) d x s.disps }
/-- An optical port. -/
def portOf (s : State) (p : Nat) : Port := mapGet (fun _ => ({} : Port)) p s.ports
/-- Replace an optical port. -/
def setPort (s : State) (p : Nat) (x : Port) : State := { s with ports := mapSet (fun _ => ({} : Port)) p x s.ports }
/-- Replace the transport and group state. -/
def setNet (s : State) (n : Net) : State := { s with net := n }
/-- Replace bulk memory. -/
def setMem (s : State) (m : Mem) : State := { s with mem := m }

/-- Add format counts to a core's counters and raise the events of R90. -/
def addCounts (s : State) (g : Nat) (c : FmtCounts) : State :=
  let p := pgCore g
  let s := bumpBy s p fCoreInfCount c.inf
  let s := bumpBy s p fCoreNanCount c.nan
  let s := raiseIf (decide (c.inf + c.nan > 0)) s p evCoreNonfinite
  let s := bumpBy s p fCoreSpillCount c.spill
  let s := raiseIf (decide (c.spill > 0)) s p evCoreOutlierSpill
  let s := bumpBy s p fCoreSatBlockCount c.satBlock
  let s := raiseIf (decide (c.satBlock > 0)) s p evCoreSaturatedBlocks
  let s := bumpBy s p fCoreZeroBlockCount c.zeroBlock
  let s := bumpBy s p fCoreRsvdScaleCount c.rsvdScale
  let s := raiseIf (decide (c.rsvdScale > 0)) s p evCoreReservedScale
  let s := bumpBy s p fCoreSatValueCount c.satValue
  let s := raiseIf (decide (c.satValue > 0)) s p evCoreSaturatedValues
  raiseIf c.qdescBad s p evCoreQdescBad

end Sys2Proof.Machine
end

