-- ==== Sys2Proof/Machine/MemCore.lean ====
section
/-!
DEFINITION. Bulk memory as places and stored bytes (08_memory.md): from address to stored byte (R215 to R217, R235), the word
code and the page code (R218, R219), poison (R222), the reserved parts (R216). Data are held by address; stored bytes that
differ from a good code page are held as differences.
-/

namespace Sys2Proof.Machine

/-- Bytes of a die's region (R32). -/
def regionSize : Nat := 0x7000000000

/-- End of bulk memory (R32). -/
def bulkEnd : Nat := 0x1C000000000

/-- Whether an address lies in bulk memory. -/
def inBulk (a : Nat) : Bool := decide (a < bulkEnd)

/-! ### Channels and tables -/

/-- Tables of a global channel. -/
def chanOf (s : State) (c : Nat) : Chan := mapGet (fun _ => ({} : Chan)) c s.mem.chans

/-- Replace a channel's tables. -/
def setChan (s : State) (c : Nat) (x : Chan) : State :=
  setMem s { s.mem with chans := mapSet (fun _ => ({} : Chan)) c x s.mem.chans }

/-- A field of page 0x050 for die d, eight bits apart (R247). -/
def ilField (f : FieldDef) (d : Nat) : FieldDef := { f with lo := f.lo + 8 * d }

/-- FAILED_CH of die d (R247). -/
def failedCh (s : State) (d : Nat) : Nat := fld s 0x50 (ilField fInterleaveFailedCh0 d)

/-- Whether region d is re-planned (R235). -/
def regionReplanned (s : State) (d : Nat) : Bool := flag s 0x50 (ilField fInterleaveReplanned0 d)

/-- RATE of a global channel (R244). -/
def chanRate (s : State) (c : Nat) : Nat := fld s (pgMem (c / 8)) { fMemCtlRate0 with lo := 2 * (c % 8) }

/-- Whether a channel serves: trained and not failed (R214, R234). -/
def chanServes (s : State) (c : Nat) : Bool := (chanOf s c).rate.isSome && !(chanOf s c).failed

/-- Where a byte of bulk memory lies (R215, R217). -/
structure Loc where
  die : Nat
  chan : Nat
  page : Nat
  slot : Nat
  gran : Nat
  word : Nat
  byte : Nat
  deriving DecidableEq, Repr

/-- The channel hash of R215. -/
def chanHash (g : Nat) : Nat :=
  (g % 32) ^^^ (g / 2 ^ 5 % 32) ^^^ (g / 2 ^ 10 % 32) ^^^ (g / 2 ^ 15 % 32) ^^^ (g / 2 ^ 20 % 32) ^^^ (g / 2 ^ 25 % 32)

/-- Slot that holds a page: itself unless retired to a pool slot (R217, R229). -/
def slotOf (s : State) (chan page : Nat) : Nat := (mapFind page (chanOf s chan).retired).getD page

/-- Channel-local granule and channel after a re-plan (R235). -/
def replanMap (f c i : Nat) : Nat × Nat :=
  if c = f then
    let q := i % 31
    (if q < f then q else q + 1, 28442624 + i / 31)
  else (c, i)

/-- Decode an address (R215, R217, R235); none where the re-plan leaves no byte. -/
def locate (s : State) (a : Nat) : Option Loc :=
  if a ≥ bulkEnd then none else
  let d := a / regionSize
  let o := a % regionSize
  let g := o / 512
  let b := o % 512
  let c0 := chanHash g
  let i0 := g / 32
  if regionReplanned s d && decide (o ≥ 0x6C80000000) then none else
  let ci := if regionReplanned s d then replanMap (failedCh s d) c0 i0 else (c0, i0)
  let chan := 32 * d + ci.1
  let page := ci.2 / 8
  some ⟨d, chan, page, slotOf s chan page, ci.2 % 8, b / 8, b % 8⟩

/-- Whether the page of a location has backing (R229). -/
def backed (s : State) (l : Loc) : Bool := !(mapGet (fun _ => false) l.page (chanOf s l.chan).unbacked)

/-- Whether an access to an address reaches storage: die awake, channel in service, page backed (R234, R242). -/
def reachable (s : State) (a : Nat) : Bool :=
  match locate s a with
  | none => false
  | some l => dieAwake s l.die && decide (modState s ≠ msStandby) && chanServes s l.chan && backed s l

/-! ### The two codes -/

/-- Columns of the word code (R218). -/
def wordColumns : List Nat :=
  (((List.range 256).filter (fun v => (List.range 8).foldl (fun n i => n + v / 2 ^ i % 2) 0 = 3)).take 56)
    ++ [0x1F, 0x2F, 0x37, 0x3B, 0x3D, 0x3E, 0x4F, 0x57]

/-- Column of data bit i. -/
def wordColumn (i : Nat) : Nat := wordColumns.getD i 0

/-- Check byte of eight data bytes given as a number (R218). -/
def checkByte (v : Nat) : Nat := (List.range 64).foldl (fun a i => if v.testBit i then a ^^^ wordColumn i else a) 0

/-- Key of a stored byte. -/
def flipKey (chan slot off : Nat) : Nat := (chan * 2 ^ 22 + slot) * 8192 + off

/-- Difference of a stored byte from the good code page. -/
def flipAt (m : Mem) (chan slot off : Nat) : Byte := mapGet (fun _ => (0 : Byte)) (flipKey chan slot off) m.flips

/-- Change the difference of a stored byte. -/
def setFlip (m : Mem) (chan slot off : Nat) (v : Byte) : Mem :=
  { m with flips := mapSet (fun _ => (0 : Byte)) (flipKey chan slot off) v m.flips }

/-- Offset of word w (0 to 511) of a slot (R217). -/
def wordOff (w : Nat) : Nat := 576 * (w / 64) + 9 * (w % 64)

/-- Differences of the eight data bytes of a word as a number. -/
def wordFlips (m : Mem) (chan slot w : Nat) : Nat :=
  leNat ((List.range 8).map (fun i => flipAt m chan slot (wordOff w + i)))

/-- Syndrome of a word: the code is linear, so it is that of the differences, with 0xFF for poison (R218, R222). -/
def wordSyndrome (m : Mem) (chan slot w : Nat) (poisoned : Bool) : Nat :=
  checkByte (wordFlips m chan slot w) ^^^ (flipAt m chan slot (wordOff w + 8)).toNat ^^^ (if poisoned then 0xFF else 0)

/-- What a syndrome means: no error, the wrong bit (64 to 71 are check bits), or uncorrectable (R218). -/
inductive WordStat where
  | good
  | single (bit : Nat)
  | bad
  deriving DecidableEq, Repr

/-- Decode a syndrome (R218). -/
def syndromeStat (syn : Nat) : WordStat :=
  if syn = 0 then .good else
  match ((List.range 64).map wordColumn ++ (List.range 8).map (2 ^ ·)).findIdx? (· == syn) with
  | some i => .single i
  | none => .bad

/-- Toggle a stored bit of a word. -/
def toggleBit (m : Mem) (chan slot w bit : Nat) : Mem :=
  let off := wordOff w + (if bit < 64 then bit / 8 else 8)
  setFlip m chan slot off (flipAt m chan slot off ^^^ BitVec.ofNat 8 (2 ^ (bit % 8)))

/-- Product in GF(2^8) with x^8 + x^4 + x^3 + x^2 + 1 (R219), eight steps. -/
def gfMulN : Nat → Nat → Nat → Nat
  | 0, _, _ => 0
  | k + 1, a, b =>
    let a2 := if a ≥ 128 then (2 * a) ^^^ 0x11D else 2 * a
    (if b % 2 = 1 then a else 0) ^^^ gfMulN k a2 (b / 2)

/-- Product in GF(2^8). -/
def gfMul (a b : Nat) : Nat := gfMulN 8 a b

/-- Power of a field element. -/
def gfPow (a : Nat) : Nat → Nat
  | 0 => 1
  | k + 1 => gfMul a (gfPow a k)

/-- Inverse in GF(2^8): a^254. -/
def gfInv (a : Nat) : Nat := gfPow a 254

/-- Stored offset of symbol i of interleave j (R219). -/
def symbolOff (j i : Nat) : Nat := if i < 144 then 32 * i + j else if i = 144 then 4608 + j else 4640 + j

/-- The two syndromes of an interleave from its differences, first symbol of highest degree (R219). -/
def pageSyndromes (m : Mem) (chan slot j : Nat) : Nat × Nat :=
  (List.range 146).foldl (fun (a : Nat × Nat) i =>
    let e := (flipAt m chan slot (symbolOff j i)).toNat
    (a.1 ^^^ e, gfMul 2 a.2 ^^^ e)) (0, 0)

/-- The correction an interleave asks for: symbol index and value (R219: one byte). -/
def pageCorrection (m : Mem) (chan slot j : Nat) : Option (Nat × Nat) :=
  let sy := pageSyndromes m chan slot j
  if sy.1 = 0 then none else
  let r := gfMul sy.2 (gfInv sy.1)
  match (List.range 146).find? (fun i => gfPow 2 (145 - i) == r) with
  | some i => some (i, sy.1)
  | none => none

/-- Make the parity of every interleave fit the stored bytes again (R221, R222: the page code is recomputed). -/
def recomputeParity (m : Mem) (chan slot : Nat) : Mem :=
  (List.range 32).foldl (fun m j =>
    let sy := pageSyndromes m chan slot j
    let p1 := gfMul (sy.1 ^^^ sy.2) (gfInv 3)
    let p0 := sy.1 ^^^ p1
    let m := setFlip m chan slot (4608 + j) (flipAt m chan slot (4608 + j) ^^^ BitVec.ofNat 8 p1)
    setFlip m chan slot (4640 + j) (flipAt m chan slot (4640 + j) ^^^ BitVec.ofNat 8 p0)) m

/-! ### Rows and candidates -/

/-- Row of a stored byte of a slot: bank s mod 16, bank burst (s div 16) * 73 + byte / 64, 32 bursts a row (R217). -/
def rowOf (chan slot off : Nat) : RowRef := ⟨chan, slot % 16, (slot / 16 * 73 + off / 64) / 32⟩

/-- The row that serves a row after the remap table (R227). -/
def liveRow (s : State) (r : RowRef) : RowRef :=
  match (chanOf s r.chan).remap.find? (fun e => e.2.bank == r.bank && e.2.failed == r.row) with
  | some e => { r with row := e.2.spare }
  | none => r

/-! ### Checked access -/

/-- Whether the word at an address is poisoned (R222). -/
def isPoisoned (m : Mem) (wa : Nat) : Bool := mapGet (fun _ => false) wa m.poison

/-- Mark or clear poison of a word. -/
def setPoison (m : Mem) (wa : Nat) (b : Bool) : Mem := { m with poison := mapSet (fun _ => false) wa b m.poison }

/-- A word of an access: its address / 8 and its place. -/
structure WordRef where
  wa : Nat
  chan : Nat
  slot : Nat
  w : Nat
  page : Nat
  deriving DecidableEq, Repr

/-- The word reference of an address, where it is decoded. -/
def wordRef (s : State) (a : Nat) : Option WordRef :=
  (locate s a).map (fun l => ⟨a / 8, l.chan, l.slot, 64 * l.gran + l.word, l.page⟩)

/-- State of a word under R218. -/
def statOf (s : State) (r : WordRef) : WordStat :=
  syndromeStat (wordSyndrome s.mem r.chan r.slot r.w (isPoisoned s.mem r.wa))

/-- Granule of a channel's local index back to the granule of its region (R215, R235). -/
def granuleOf (s : State) (d c i : Nat) : Nat :=
  let f := failedCh s d
  let ci : Nat × Nat := if regionReplanned s d && decide (i ≥ 28442624) then
      (f, (i - 28442624) * 31 + (if c < f then c else c - 1))
    else (c, i)
  let hi := ci.2 * 32
  hi + (ci.1 ^^^ chanHash hi)

/-- Name of word w (0 to 511) of a page, address / 8; a page of a reserved part has no address and takes a name of its
own above bulk memory (R216). -/
def wordAddr (s : State) (chan page w : Nat) : Nat :=
  if page < 3670016 then
    let d := chan / 32
    (d * regionSize + granuleOf s d (chan % 32) (8 * page + w / 64) * 512 + w % 64 * 8) / 8
  else (bulkEnd + (chan * 2 ^ 22 + page) * 4096) / 8 + w

/-- Correct a single-bit error that a page correction left in a word: the re-check is one under R218, and only step 1 of
R220 counts. -/
def fixSingle (m : Mem) (chan slot w wa : Nat) : Mem :=
  match syndromeStat (wordSyndrome m chan slot w (isPoisoned m wa)) with
  | .single bit => toggleBit m chan slot w bit
  | _ => m

/-- Word references of an access, by ascending address. -/
def wordsOf (s : State) (a len : Nat) : List WordRef :=
  (List.range ((a + len + 7) / 8 - a / 8)).filterMap (fun i => wordRef s (8 * (a / 8 + i)))

/-- What a byte never written reads as: zero from the fill, or a free value in an open range (R223, R302). -/
def memDefault (m : Mem) (a : Nat) : Byte :=
  match m.opens.find? (fun r => decide (r.base ≤ a) && decide (a < r.base + r.len)) with
  | some r => Config.freeByte (r.seed + (a - r.base))
  | none => 0

/-- The data byte at an address, without any code check. -/
def memByte (m : Mem) (a : Nat) : Byte := mapGet (memDefault m) a m.data

/-- Set the data byte at an address. -/
def setMemByte (m : Mem) (a : Nat) (b : Byte) : Mem := { m with data := mapSet (memDefault m) a b m.data }

/-- Data bytes of a range. -/
def memBytes (m : Mem) (a len : Nat) : List Byte := (List.range len).map (fun i => memByte m (a + i))

/-- Set the data bytes of a range. -/
def setMemBytes (m : Mem) (a : Nat) : List Byte → Mem
  | [] => m
  | b :: r => setMemBytes (setMemByte m a b) (a + 1) r

/-- A byte as a read returns it: the data with any difference that the codes did not see. -/
def seenByte (s : State) (a : Nat) : Byte :=
  match locate s a with
  | some l => memByte s.mem a ^^^ flipAt s.mem l.chan l.slot (wordOff (64 * l.gran + l.word) + l.byte)
  | none => memByte s.mem a

/-- Whether every byte of a range can be reached. One 512-byte granule lies on one channel and page. -/
def rangeReachable (s : State) (a len : Nat) : Bool :=
  decide (a + len ≤ bulkEnd) &&
    (List.range ((a + len + 511) / 512 - a / 512)).all (fun i => reachable s (max a (512 * (a / 512 + i))))

/-- Whether an access covers a word fully. -/
def coversWord (a len wa : Nat) : Bool := decide (a ≤ 8 * wa) && decide (8 * wa + 8 ≤ a + len)

/-- Clear the differences of a word that is rewritten. -/
def clearWord (m : Mem) (r : WordRef) : Mem :=
  (List.range 9).foldl (fun m i => setFlip m r.chan r.slot (wordOff r.w + i) 0) m

/-- Keep the syndromes of an interleave when the difference of a stored byte goes by `d`: the parity follows the change of
the bytes stored, and not the bytes that should have been there (R219, R221). -/
def carryParity (m : Mem) (chan slot off d : Nat) : Mem :=
  let p1 := gfMul (d ^^^ gfMul d (gfPow 2 (145 - off / 32))) (gfInv 3)
  let j := off % 32
  let m := setFlip m chan slot (4608 + j) (flipAt m chan slot (4608 + j) ^^^ BitVec.ofNat 8 p1)
  setFlip m chan slot (4640 + j) (flipAt m chan slot (4640 + j) ^^^ BitVec.ofNat 8 (d ^^^ p1))

/-- A write to a word that decodes while some of its bytes differ from the good ones: the bytes written lose their
difference, the others keep theirs, the check byte fits what is stored, and the parity follows the change (R221). -/
def settleWord (m : Mem) (r : WordRef) (a len : Nat) : Mem :=
  let olds := (List.range 9).map (fun i => flipAt m r.chan r.slot (wordOff r.w + i))
  let kept := (List.range 8).foldl (fun m i =>
    if a ≤ 8 * r.wa + i ∧ 8 * r.wa + i < a + len then setFlip m r.chan r.slot (wordOff r.w + i) 0 else m) m
  let fit := setFlip kept r.chan r.slot (wordOff r.w + 8) (BitVec.ofNat 8 (checkByte (wordFlips kept r.chan r.slot r.w)))
  let done := olds.zipIdx.foldl (fun m o => carryParity m r.chan r.slot (wordOff r.w + o.2)
    (o.1 ^^^ flipAt fit r.chan r.slot (wordOff r.w + o.2)).toNat) fit
  setPoison done r.wa false

/-- The codes of a word that a write of a range covers (R221): a word that does not decode, covered fully, is stored
afresh with the page code recomputed from the whole slot; one that decodes has the parity updated from the difference. -/
def rewriteWord (m : Mem) (x : WordRef × Bool) (a len : Nat) : Mem :=
  if !x.2 then recomputeParity (setPoison (clearWord m x.1) x.1.wa false) x.1.chan x.1.slot
  else if wordFlips m x.1.chan x.1.slot x.1.w ≠ 0 ∨ isPoisoned m x.1.wa then settleWord m x.1 a len
  else m

/-! ### Reserved parts (R216) -/

/-- First page of manager memory (R216). -/
def managerPage : Nat := 3670016

/-- First page of the update journal. -/
def journalPage : Nat := 3672064

/-- Place of a part-local offset of a die: channel, page, granule of the page (R216). -/
def partLoc (d first off : Nat) : Nat × Nat × Nat :=
  let g := off / 512
  (32 * d + chanHash g, first + g / 32 / 8, g / 32 % 8)

/-- Name of a byte of a reserved part, above bulk memory. -/
def partKey (d first off : Nat) : Nat :=
  let l := partLoc d first off
  8 * (bulkEnd / 8 + (l.1 * 2 ^ 22 + l.2.1) * 512 + l.2.2 * 64) + off % 512

/-- Word reference of a reserved part. -/
def partRef (s : State) (d first off : Nat) : WordRef :=
  let l := partLoc d first off
  ⟨partKey d first off / 8, l.1, slotOf s l.1 l.2.1, 64 * l.2.2 + off % 512 / 8, l.2.1⟩

/-- Whether a reserved part's bytes can be reached: die awake, channel in service, page backed. -/
def partReachable (s : State) (d first off len : Nat) : Bool :=
  dieAwake s d && decide (modState s ≠ msStandby) &&
    (List.range ((off + len + 511) / 512 - off / 512)).all (fun i =>
      let l := partLoc d first (512 * (off / 512 + i))
      chanServes s l.1 && !(mapGet (fun _ => false) l.2.1 (chanOf s l.1).unbacked))

/-- Word references of a part access. -/
def partWords (s : State) (d first off len : Nat) : List WordRef :=
  (List.range ((off + len + 7) / 8 - off / 8)).map (fun i => partRef s d first (8 * (off / 8 + i)))

end Sys2Proof.Machine
end

