-- ==== Sys2Proof/Machine/LogOps.lean ====
section
/-!
DEFINITION. The event log of the health monitor (R460, R461, R533) and what every spare class writes to it (R447 to R449, R465,
R466): bring-ins that are done, dropped, or find no spare.
-/

namespace Sys2Proof.Machine

/-- Change the health monitor. -/
def setHealth (s : State) (h : Health) : State := { s with health := h }

/-! ### The event log -/

/-- The order of log entries: boot, then count (R533). -/
def entryKey (e : LogEntry) : Nat := e.boot * 2 ^ 40 + e.count

/-- The lowest-numbered awake die. -/
def logDie (s : State) : Option Nat := (List.range 4).find? (dieAwake s)

/-- Entries that wait in the manager buffer (R461). -/
def buffered (h : Health) : Nat := (h.log.filter (·.buf)).length

/-- Drop the oldest entry of a ring that is over its size; true where an unread one was overwritten (R461). -/
def trimRing (l : List LogEntry) (d : Nat) : List LogEntry × Bool :=
  if (l.filter (fun e => e.die == some d)).length ≤ 1048576 then (l, false) else
  match l.find? (fun e => e.die == some d) with
  | none => (l, false)
  | some e => (if e.sys then l.map (fun x => if x = e then { x with die := none } else x) else l.erase e, !e.read)

/-- Keep the system-area ring at 1,024 entries (R461). -/
def trimSys (l : List LogEntry) : List LogEntry :=
  if (l.filter (·.sys)).length ≤ 1024 then l else
  match l.find? (·.sys) with
  | none => l
  | some e => if e.die.isSome || e.buf then l.map (fun x => if x = e then { x with sys := false } else x) else l.erase e

/-- Whether an entry also goes to the system-area ring: kinds 1 and 2, and the events UE, CHANNEL_FAILED, TRIP and
END_OF_LIFE (R461). -/
def keptInSystem (page bit kind : Nat) : Bool :=
  decide (kind = 1 ∨ kind = 2) || (decide (kind = 0) &&
    ((decide (0x40 ≤ page) && decide (page < 0x50) && (decide (bit = evMemCtlUe) || decide (bit = evMemCtlChannelFailed)))
      || (decide (page = 5) && decide (bit = evThermalTrip)) || (decide (page = 8) && decide (bit = evStore0EndOfLife))))

/-- First page of the event logs (R216). -/
def logPage : Nat := 3672832

/-- Words of the event-log part that entry `slot` of a die's ring takes (R216, R460). -/
def slotWords (s : State) (d slot : Nat) : List WordRef := (List.range 4).map (fun i => partRef s d logPage (32 * slot + 8 * i))

/-- Whether an entry can be read back: from the system-area ring, from the manager buffer, or from its place in the
event-log part of an awake die, where that place has backing and its words decode (R216, R218, R461). -/
def entryHeld (s : State) (e : LogEntry) : Bool :=
  e.sys || e.buf || (match e.die with
    | none => false
    | some d => partReachable s d logPage (32 * e.slot) 32 && (slotWords s d e.slot).all (fun r => statOf s r != .bad))

/-- The next entry of a die's ring from `p` on whose place has backing; the monitor stops using pages that lost it (R229). -/
def ringSlot (s : State) (d : Nat) : Nat → Nat → Option Nat
  | 0, _ => none
  | n + 1, p => if partReachable s d logPage (32 * p) 32 then some p else ringSlot s d n ((p / 16 + 1) * 16 % 1048576)

/-- LOG_HEAD: newest and oldest entries held (R467). -/
def noteHead (s : State) : State :=
  match s.health.log with
  | [] => s
  | e :: r =>
    let n := (r.getLast?).getD e
    setWide s 6 wLogHead (wideOf [entryKey n % 2 ^ 32, entryKey n / 2 ^ 32, entryKey e % 2 ^ 32, entryKey e / 2 ^ 32])

/-- The codes of the words that a log entry is written to fit it again, and their poison is cleared (R221). -/
def freshSlot (s : State) (d slot : Nat) : State :=
  if s.mem.flips.isEmpty && s.mem.poison.isEmpty then s else
  setMem s ((slotWords s d slot).foldl (fun m r => rewriteWord m (r, false) (8 * r.wa) 8) s.mem)

/-- Put an entry of the list into the ring of a die, at the ring's next place. -/
def storeEntry (s : State) (l : List LogEntry) (e : LogEntry) (d : Nat) : State :=
  let p := (ringSlot s d 65536 (mapGet (fun _ => 0) d s.health.ringPos)).getD 0
  let l := l.map (fun x => if x = e then { x with die := some d, slot := p, buf := false } else x)
  let t := trimRing l d
  let s := setHealth s { s.health with log := trimSys t.1, lostRun := false,
                                       ringPos := mapSet (fun _ => 0) d ((p + 1) % 1048576) s.health.ringPos }
  raiseIf t.2 (freshSlot s d p) 6 evHealthLogWrapped

/-- Make a log entry: in the ring of the lowest awake die, else in the manager buffer; with the buffer full it is lost, but
for its copy in the system area (R460, R461, R533). -/
def makeEntry (s : State) (page bit kind : Nat) (data : List Nat) : State :=
  let h := s.health
  let die := logDie s
  let full := die.isNone && decide (256 ≤ buffered h)
  let sys := keptInSystem page bit kind
  let e : LogEntry := ⟨s.time, h.boot, h.logCount + 1, page, bit, kind, data.map (BitVec.ofNat 32), none, 0, die.isNone && !full, sys, false⟩
  let s := setHealth s { h with logCount := h.logCount + 1 }
  noteHead (match die with
    | some d => storeEntry s (h.log ++ [e]) e d
    | none =>
      if full then
        let s := bump (setHealth s { s.health with log := if sys then trimSys (h.log ++ [e]) else h.log, lostRun := true }) 6 fHealthLogLostCount
        raiseIf (!h.lostRun) s 6 evHealthLogLost
      else setHealth s { s.health with log := trimSys (h.log ++ [e]), lostRun := false })

/-- Make a log entry; the one that records LOG_LOST itself waits until the buffer has room (R461). -/
def logEntry (s : State) (page bit kind : Nat) (data : List Nat) : State :=
  if (logDie s).isNone && decide (256 ≤ buffered s.health) && decide (page = 6 ∧ bit = evHealthLogLost ∧ kind = 0) then
    setHealth s { s.health with lostOwed := true }
  else makeEntry s page bit kind data

/-- Entries of the manager buffer move to a ring once a die is awake, and the entry for LOG_LOST that waited is made (R461). -/
def flushLog (s : State) : State :=
  match logDie s with
  | none => s
  | some d =>
    let s := (s.health.log.filter (·.buf)).foldl (fun s e =>
      storeEntry s s.health.log e d) s
    if s.health.lostOwed then makeEntry (setHealth s { s.health with lostOwed := false }) 6 evHealthLogLost 0 [0, 0, 0] else s

/-! ### Spare classes (R447 to R449) -/

/-- A KIND 1 entry: class, unit, result (R533). -/
def logSpare (s : State) (cls unit result : Nat) : State := logEntry s 6 0xFF 1 [cls, unit, result]

/-- A request that finds its queue full is dropped and counted under its class (R448). -/
def dropSpare (s : State) (cls unit : Nat) : State :=
  logSpare (setHealth s { s.health with drops := mapUpd (fun _ => 0) cls (· + 1) s.health.drops }) cls unit 1

/-- A completed bring-in (R465, R466). -/
def spareIn (s : State) (cls unit : Nat) : State :=
  let s := setHealth s { s.health with used := mapUpd (fun _ => 0) cls (· + 1) s.health.used }
  logSpare (raise (bump s 6 fHealthSpareInCount) 6 evHealthSpareIn) cls unit 0

end Sys2Proof.Machine
end

