-- ==== Sys2Proof/Machine/MemOps.lean ====
section
/-!
DEFINITION. Accesses to bulk memory (08_memory.md): reads and writes under the two codes (R220, R221), poisoning (R222),
replacement candidates (R224), the reserved parts (R216), the memory-side adders with their watches (R192, R236).
-/

namespace Sys2Proof.Machine

/-- Report events of an input to the health monitor, capped at 255 per second (R457). -/
def noteInput (s : State) (i n : Nat) : State :=
  { s with health := { s.health with
      cur := mapUpd (fun _ => 0) i (fun v => min 255 (v + n)) s.health.cur } }

/-! ### Rows and candidates -/

/-- Queue a row for replacement; one that finds the queue full is dropped, and scrub finds it again (R224). -/
def addCandidate (s : State) (r : RowRef) : State :=
  let r := liveRow s r
  if s.mem.queue.contains r then s
  else if s.mem.queue.length ≥ 64 then
    let s := setMem s { s.mem with dropped := if s.mem.dropped.contains r then s.mem.dropped else s.mem.dropped ++ [r] }
    raise (dropSpare s 4 r.chan) 0x50 evInterleaveQueueFull
  else setMem s { s.mem with queue := s.mem.queue ++ [r], dropped := s.mem.dropped.filter (· != r) }

/-- Add a correction to a row of the 64-row table; a new row displaces the one with the fewest (R224). -/
def ceTable (l : List (RowRef × Nat)) (r : RowRef) : List (RowRef × Nat) × Nat :=
  match l.find? (fun e => e.1 == r) with
  | some e => (l.map (fun x => if x.1 == r then (r, e.2 + 1) else x), e.2 + 1)
  | none =>
    if l.length < 64 then (l ++ [(r, 1)], 1)
    else
      let least := l.foldl (fun a x => min a x.2) ((l.headD (r, 0)).2)
      match l.findIdx? (fun x => x.2 == least) with
      | some i => (l.eraseIdx i ++ [(r, 1)], 1)
      | none => (l, 1)

/-- Count a word correction in its row; at CE_ROW_LIMIT the row is a candidate (R220, R224). -/
def countCe (s : State) (chan slot off : Nat) : State :=
  let pg := pgMem (chan / 8)
  let s := noteInput (raise (bump s pg fMemCtlCeCount) pg evMemCtlCe) 0 1
  let r := liveRow s (rowOf chan slot off)
  let t := ceTable (chanOf s chan).ceRows r
  let s := setChan s chan { chanOf s chan with ceRows := t.1 }
  if t.2 ≥ fld s pg fMemCtlCeRowLimit then addCandidate s r else s

/-! ### Checked access -/

/-- Check one word: a single-bit error is corrected, written back and counted (R220 step 1). The flag says it decodes. -/
def checkWord (s : State) (r : WordRef) : State × Bool :=
  match statOf s r with
  | .good => (s, true)
  | .single bit =>
    let s := setMem s (toggleBit s.mem r.chan r.slot r.w bit)
    (countCe s r.chan r.slot (wordOff r.w), true)
  | .bad => (s, false)

/-- Decode the page code of a word's slot and apply the changes to words that then pass their check (R220 step 2). -/
def pageDecode (s : State) (r : WordRef) : State :=
  let corr := (List.range 32).filterMap (fun j => (pageCorrection s.mem r.chan r.slot j).map
    (fun c => (symbolOff j c.1, c.2)))
  let trial := corr.foldl (fun m c =>
    setFlip m r.chan r.slot c.1 (flipAt m r.chan r.slot c.1 ^^^ BitVec.ofNat 8 c.2)) s.mem
  let wordIdx (off : Nat) : Option Nat := if off < 4608 then some (off / 576 * 64 + off % 576 / 9) else none
  let passes (w : Nat) : Bool :=
    syndromeStat (wordSyndrome trial r.chan r.slot w (isPoisoned s.mem (wordAddr s r.chan r.page w))) != .bad
  let kept := corr.filter (fun c => match wordIdx c.1 with
    | some w => passes w
    | none => true)
  if kept.isEmpty then s else
  let m := kept.foldl (fun m c =>
    setFlip m r.chan r.slot c.1 (flipAt m r.chan r.slot c.1 ^^^ BitVec.ofNat 8 c.2)) s.mem
  let m := (kept.filterMap (fun c => wordIdx c.1)).foldl (fun m w => fixSingle m r.chan r.slot w (wordAddr s r.chan r.page w)) m
  let pg := pgMem (r.chan / 8)
  let s := noteInput (raise (bump (setMem s m) pg fMemCtlPageCorrCount) pg evMemCtlPageCorr) 1 1
  kept.foldl (fun s c => addCandidate s (rowOf r.chan r.slot c.1)) s

/-- First page of the reserved part that a page belongs to (R216). -/
def partFirst (page : Nat) : Nat := if page < journalPage then managerPage else if page < logPage then journalPage else logPage

/-- Part-local offset of word w of a page of a reserved part: R215 read backward, from the part's first page (R216). -/
def partOffset (chan page w : Nat) : Nat :=
  let i := (page - partFirst page) * 8 + w / 64
  (i * 32 + (chan % 32 ^^^ chanHash (i * 32))) * 512 + w % 64 * 8

/-- UE_LAST for a poisoned word (R246). -/
def ueLast (r : WordRef) (row : RowRef) (scrub : Bool) : Wide :=
  let a := if r.page ≥ 3670016 then partOffset r.chan r.page r.w else r.wa * 8
  wideOf [a, a / 2 ^ 32, r.page + r.chan % 8 * 2 ^ 22,
    row.bank + row.row * 16 + (if r.page ≥ 3670016 then 2 ^ 23 else 0) + (if scrub then 2 ^ 24 else 0)]

/-- Poison a word: stored with its check byte inverted, the page code recomputed (R222). A word that is poisoned already stays
as it is (log 29); scrub finds its row again where the row's candidate was dropped (R224). -/
def poisonWord (s : State) (r : WordRef) (scrub : Bool) : State :=
  if isPoisoned s.mem r.wa then
    (let row := liveRow s (rowOf r.chan r.slot (wordOff r.w))
     if scrub && s.mem.dropped.contains row then addCandidate s row else s)
  else
  let chk := checkByte (wordFlips s.mem r.chan r.slot r.w)
  let m := setFlip s.mem r.chan r.slot (wordOff r.w + 8) (BitVec.ofNat 8 chk)
  let m := recomputeParity (setPoison m r.wa true) r.chan r.slot
  let pg := pgMem (r.chan / 8)
  let row := liveRow s (rowOf r.chan r.slot (wordOff r.w))
  let s := raise (bump (setMem s m) pg fMemCtlUeCount) pg evMemCtlUe
  let s := noteInput (setWide s pg wUeLast (ueLast r row scrub)) 2 1
  addCandidate s row

/-- Check a list of words under R220 steps 1 and 2; the flag of each says whether it decodes. -/
def checkWords (s : State) (rs : List WordRef) : State × List (WordRef × Bool) :=
  if s.mem.flips.isEmpty && s.mem.poison.isEmpty then (s, rs.map (fun r => (r, true))) else
  let first := rs.foldl (fun (a : State × List (WordRef × Bool)) r =>
    let c := checkWord a.1 r
    (c.1, a.2 ++ [(r, c.2)])) (s, [])
  if first.2.all (·.2) then first else
  let badPages := (first.2.filter (fun x => !x.2)).map (·.1)
  let s2 := (badPages.foldl (fun (a : State × List (Nat × Nat)) r =>
    if a.2.contains (r.chan, r.slot) then a else (pageDecode a.1 r, (r.chan, r.slot) :: a.2)) (first.1, [])).1
  first.2.foldl (fun (a : State × List (WordRef × Bool)) x =>
    if x.2 then (a.1, a.2 ++ [x]) else
    let c := checkWord a.1 x.1
    (c.1, a.2 ++ [(x.1, c.2)])) (s2, [])

/-- Read a range of bulk memory: none is a bus error, and no byte is returned with one (R220, R234, R242). -/
def memRead (s : State) (a len : Nat) : State × Option (List Byte) :=
  if !(rangeReachable s a len) then (s, none) else
  let c := checkWords s (wordsOf s a len)
  if c.2.all (·.2) then
    (c.1, some ((List.range len).map (fun i => if c.1.mem.flips.isEmpty then memByte c.1.mem (a + i) else seenByte c.1 (a + i))))
  else
    ((c.2.filter (fun x => !x.2)).foldl (fun s x => poisonWord s x.1 false) c.1, none)

/-- Write a range of bulk memory: false is a bus error with nothing written (R221). -/
def memWrite (s : State) (a : Nat) (bytes : List Byte) : State × Bool :=
  let len := bytes.length
  if !(rangeReachable s a len) then (s, false) else
  let c := checkWords s (wordsOf s a len)
  let partialBad := c.2.filter (fun x => !x.2 && !(coversWord a len x.1.wa))
  if partialBad.isEmpty then
    let m := c.2.foldl (fun m x => rewriteWord m x a len) c.1.mem
    (setMem c.1 (setMemBytes m a bytes), true)
  else
    (partialBad.foldl (fun s x => poisonWord s x.1 false) c.1, false)

/-! ### Reserved parts (R216) -/

/-- Read a range of a reserved part; none is a bus error. -/
def partRead (s : State) (d first off len : Nat) : State × Option (List Byte) :=
  if !(partReachable s d first off len) then (s, none) else
  let c := checkWords s (partWords s d first off len)
  if c.2.all (·.2) then (c.1, some ((List.range len).map (fun i =>
      let r := partRef c.1 d first (off + i)
      memByte c.1.mem (partKey d first (off + i)) ^^^ flipAt c.1.mem r.chan r.slot (wordOff r.w + (off + i) % 8))))
  else ((c.2.filter (fun x => !x.2)).foldl (fun s x => poisonWord s x.1 false) c.1, none)

/-- Write whole words of a reserved part; false is a bus error. -/
def partWrite (s : State) (d first off : Nat) (bytes : List Byte) : State × Bool :=
  if !(partReachable s d first off bytes.length) then (s, false) else
  let c := checkWords s (partWords s d first off bytes.length)
  let m := c.2.foldl (fun m x => rewriteWord m x (8 * x.1.wa) 8) c.1.mem
  (setMem c.1 (bytes.zipIdx.foldl (fun m b => setMemByte m (partKey d first (off + b.2)) b.1) m), true)

/-- Read a little-endian number of `n` bytes. -/
def memReadNat (s : State) (a n : Nat) : State × Option Nat :=
  let r := memRead s a n
  (r.1, r.2.map leNat)

/-! ### Memory-side adders -/

/-- Bytes of an adder element (R144, R236). -/
def adderSize (fn : Nat) : Nat := if fn = 1 then 2 else if fn = 3 then 8 else 4

/-- The new element of an adder update and its counts (R236). -/
def adderResult (fn old v : Nat) : Nat × FmtCounts :=
  match fn with
  | 0 => let w := addFp32 .rne (BitVec.ofNat 32 old) (BitVec.ofNat 32 v); (w.toNat, countFp32 w)
  | 1 =>
    let h : BitVec 16 := BitVec.ofNat 16 (roundNum fmtBf16 .rne
      (Num.add (decodeBf16 (BitVec.ofNat 16 old)) (decodeBf16 (BitVec.ofNat 16 v))))
    (h.toNat, countBf16 h)
  | 2 => ((old + v) % 2 ^ 32, {})
  | 3 => ((old + v) % 2 ^ 64, {})
  | _ =>
    let a : Word := BitVec.ofNat 32 old
    let b : Word := BitVec.ofNat 32 v
    let isNan (w : Word) : Bool := decide (0x7F800000 < w.toNat % 2 ^ 31)
    let o := Num.order (decodeFp32 a) (decodeFp32 b)
    let w : Word := if isNan a || isNan b then 0x7FC00000
      else if o = 0 then (if fn = 4 then a &&& b else a ||| b)
      else if (o > 0) = (fn = 4) then a else b
    (w.toNat, countFp32 w)

/-- Whether a counter has reached a target, both signed (R192). -/
def counterReached (value target : Dword) : Bool := !(value.slt target)

/-- Free the fired watches of a dispatcher and put their records in line, marked with the update that fired them (R192, R193). -/
def fireWatches (x : Disp) (counter : Nat) (value : Dword) (fire : Nat) : Disp :=
  let hit (w : Watch) : Bool := w.counter == counter && counterReached value w.target
  { x with watches := x.watches.filter (fun w => !(hit w)),
           records := x.records ++ (x.watches.filter hit).map (fun w => ⟨w.record, fire, w.stamp⟩) }

/-- A number that no record that waits carries. -/
def nextFire (s : State) : Nat :=
  (List.range 4).foldl (fun n d => (dispOf s d).records.foldl (fun n r => max n r.fire) n) 0 + 1

/-- The place in the order of arming of the next watch (R193). -/
def nextStamp (s : State) : Nat :=
  (List.range 4).foldl (fun n d => (dispOf s d).watches.foldl (fun n w => max n w.stamp) n) 0 + 1

/-- Whether a start condition is met: its counter is the one updated and has reached its target, or it was met before. -/
def startMet (started : Bool) (ctr : Nat) (tgt : Dword) (counter : Nat) (value : Dword) : Bool :=
  started || (decide (ctr ≠ 0) && decide (ctr = counter) && counterReached value tgt)

/-- Compare an update of a counter with every watch armed on it on an awake die (R192, R205, R236), and with the start counters of
collectives, ledger checks and updates, which are watched likewise (R327, R331, R333). -/
def watchCompare (s : State) (a : Nat) : State :=
  let c := a / 8 * 8
  let v : Dword := BitVec.ofNat 64 (leNat ((List.range 8).map (fun i => seenByte s (c + i))))
  let fire := nextFire s
  let s := (List.range 4).foldl (fun s d =>
    if dieAwake s d && (dispOf s d).watches.any (fun w => w.counter == c) then setDisp s d (fireWatches (dispOf s d) c v fire) else s) s
  { s with
    net := { s.net with colls := s.net.colls.map (fun x => { x with started := startMet x.started x.desc.startCtr x.desc.startTgt c v }) },
    ledgers := s.ledgers.map (fun e => (e.1, if dieAwake s e.1 then
      e.2.map (fun x => { x with started := startMet x.started x.startCtr x.startTgt c v }) else e.2)),
    upds := s.upds.map (fun e => (e.1, if dieAwake s e.1 then
      { e.2 with armed := e.2.armed.map (fun x => { x with started := startMet x.started x.startCtr x.startTgt c v }) } else e.2)) }

/-- One memory-side update: true when it was applied (R236). -/
def adderUpdate (s : State) (fn a v : Nat) : State × Bool :=
  let n := adderSize fn
  if a % n ≠ 0 then (s, false) else
  let r := memReadNat s a n
  match r.2 with
  | none => (r.1, false)
  | some old =>
    let res := adderResult fn old (v % 256 ^ n)
    let w := memWrite r.1 a (leBytes n res.1)
    let pg := match locate s a with
      | some l => pgMem (l.chan / 8)
      | none => pgMem 0
    let s1 := bumpBy (bumpBy w.1 pg fMemCtlInfCount res.2.inf) pg fMemCtlNanCount res.2.nan
    let s2 := raiseIf (decide (res.2.inf + res.2.nan > 0)) s1 pg evMemCtlNonfinite
    (watchCompare s2 a, w.2)

/-- Read a start counter as at arming (R192, R195): whether it is at its target, or none where it cannot be read; address 0 is no
counter and starts at once. -/
def startNow (s : State) (ctr : Nat) (tgt : Dword) : State × Option Bool :=
  if ctr = 0 then (s, some true) else
  let r := memReadNat s ctr 8
  (r.1, r.2.map (fun v => counterReached (BitVec.ofNat 64 v) tgt))

/-- INT64 add of one at a counter (R189, R302, R337). -/
def addOne (s : State) (a : Nat) : State × Bool := adderUpdate s 3 a 1

/-- Make a range of bulk memory open: its bytes are free values until they are written (R302). -/
def openRange (s : State) (a len : Nat) : State :=
  let f := takeFree s len
  let m := s.mem
  setMem f.2 { m with
    opens := ⟨a, len, f.1⟩ :: m.opens,
    data := mapKeep (fun k _ => !(decide (a ≤ k) && decide (k < a + len))) m.data }

end Sys2Proof.Machine
end

