-- ==== Sys2Proof/Machine/Harts.lean ====
section
/-!
DEFINITION. The manager cores as the module's rules reach them (R16, R57, R468, R509): their registers, the access-fault exception
that a bus error takes, and the debug module's way to their memory map.
-/

namespace Sys2Proof.Machine

/-! ### Registers -/

/-- A manager core. -/
def hartOf (s : State) (n : Nat) : Hart := mapGet (fun _ => ({} : Hart)) n s.mgmt.harts
/-- Replace a manager core. -/
def setHart (s : State) (n : Nat) (h : Hart) : State :=
  { s with mgmt := { s.mgmt with harts := mapSet (fun _ => ({} : Hart)) n h s.mgmt.harts } }

/-- A control and status register by its RV64 number. -/
def csrOf (h : Hart) (n : Nat) : Dword := mapGet (fun _ => 0) n h.csr
/-- Write a control and status register. -/
def setCsr (h : Hart) (n : Nat) (v : Dword) : Hart := { h with csr := mapSet (fun _ => 0) n v h.csr }

/-- Numbers of the control and status registers of an RV64 trap (PRESUMED, log 70: the privileged architecture). -/
def csrMstatus : Nat := 0x300
/-- See `csrMstatus`. -/
def csrMedeleg : Nat := 0x302

/-- Where a trap into a mode keeps its vector, pc, cause and value: machine mode, else supervisor mode. -/
def trapCsrs (machine : Bool) : Nat × Nat × Nat × Nat :=
  if machine then (0x305, 0x341, 0x342, 0x343) else (0x105, 0x141, 0x142, 0x143)

/-- mstatus as a trap leaves it: the interrupt enable of the mode taken moves to its previous-enable bit and clears, and the
previous mode is noted. -/
def trapStatus (st : Dword) (machine : Bool) (mode : Nat) : Dword :=
  let w := st.toNat
  BitVec.ofNat 64 (if machine then
      insertBits (insertBits (insertBits w 7 1 (bitsOf w 3 1)) 3 1 0) 11 2 mode
    else insertBits (insertBits (insertBits w 5 1 (bitsOf w 1 1)) 1 1 0) 8 1 mode)

/-- An exception of a manager core from a mode, with its cause and value: to machine mode, or to supervisor mode where
medeleg hands it down from below machine mode. -/
def hartTrap (h : Hart) (mode cause : Nat) (value : Dword) : Hart :=
  let machine := decide (mode = 3) || !((csrOf h csrMedeleg).getLsbD cause)
  let r := trapCsrs machine
  let st := trapStatus (csrOf h csrMstatus) machine mode
  let h := setCsr (setCsr (setCsr (setCsr h r.2.1 h.pc) r.2.2.1 (BitVec.ofNat 64 cause)) r.2.2.2 value) csrMstatus st
  { h with mode := if machine then 3 else 1, pc := csrOf h r.1 &&& ~~~3 }

/-- The manager core of a master of class S, K or U, and the mode that the class stands for. -/
def hartMode : Master → Option (Nat × Nat)
  | .s mc => some (mc.val, 3)
  | .k mc => some (mc.val, 1)
  | .u mc => some (mc.val, 0)
  | .x => none
  | .c _ => none

/-- A bus error reaches its master (R57): a manager core takes a load (5) or store (7) access-fault exception on the address,
the others see the completion. -/
def busError (s : State) (m : Master) (addr : Nat) (store : Bool) : State :=
  let s := { s with resp := .busError }
  match hartMode m with
  | none => s
  | some x => setHart s x.1 (hartTrap (hartOf s x.1) x.2 (if store then 7 else 5) (BitVec.ofNat 64 addr))

/-! ### The private map (R468) -/

/-- A place of the manager's private map: the local store, or the manager-memory part of a die, with its offset. -/
inductive MgrPlace where
  | store (off : Nat)
  | part (die off : Nat)
  deriving DecidableEq, Repr

/-- The place of `n` bytes at an address with bit 47 set; none is an access fault. -/
def mgrPlace (a n : Nat) : Option MgrPlace :=
  if 0x800000000000 ≤ a ∧ a + n ≤ 0x800001000000 then some (.store (a - 0x800000000000))
  else if 0x800100000000 ≤ a ∧ a + n ≤ 0x800140000000 ∧ (a - 0x800100000000) / 0x10000000 = (a + n - 1 - 0x800100000000) / 0x10000000 then
    some (.part ((a - 0x800100000000) / 0x10000000) ((a - 0x800100000000) % 0x10000000))
  else none

/-- Read bytes of the private map; none is an access fault. -/
def mgrRead (s : State) (a n : Nat) : State × Option (List Byte) :=
  match mgrPlace a n with
  | none => (s, none)
  | some (.store o) => (s, some ((List.range n).map (fun i => mapGet (fun _ => (0 : Byte)) (o + i) s.mgmt.localStore)))
  | some (.part d o) => partRead s d managerPage o n

/-- Write bytes of the private map; false is an access fault. -/
def mgrWrite (s : State) (a : Nat) (bytes : List Byte) : State × Bool :=
  match mgrPlace a bytes.length with
  | none => (s, false)
  | some (.store o) =>
    let l := bytes.zipIdx.foldl (fun m b => mapSet (fun _ => (0 : Byte)) (o + b.2) b.1 m) s.mgmt.localStore
    ({ s with mgmt := { s.mgmt with localStore := l } }, true)
  | some (.part d o) => partWrite s d managerPage o bytes

end Sys2Proof.Machine
end

