-- ==== Sys2Proof/Machine/Fec.lean ====
section
/-!
DEFINITION. What stands on an optical lane: the field and the code RS(544,514) of IEEE 802.3 clause 91 (R252), the frame's bytes and
header bits (R253, R254), its CRC-32 (R530), and the place of each symbol on the lanes of a map (R252, R259). A lane's content is a list of
10-bit symbols; each stands for its five PAM4 unit intervals, bit 0 first (log 77).
-/

namespace Sys2Proof.Machine


/-! ### CRC-32 -/

/-- One bit of the reflected CRC-32 (R530). -/
def crcBit (c : Nat) : Nat := if c % 2 = 1 then (c / 2) ^^^ 0xEDB88320 else c / 2

/-- One byte of the CRC-32. -/
def crcByte (c : Nat) (b : Byte) : Nat :=
  crcBit (crcBit (crcBit (crcBit (crcBit (crcBit (crcBit (crcBit (c ^^^ b.toNat))))))))

/-- The CRC-32 of the IEEE 802.3 frame check sequence (R530). -/
def crc32 (l : List Byte) : Word := BitVec.ofNat 32 (l.foldl crcByte 0xFFFFFFFF ^^^ 0xFFFFFFFF)

/-! ### The field of 1,024 elements -/

/-- Multiply by the primitive element: the field polynomial is x^10 + x^3 + 1 (R252). -/
def symTwice (a : Nat) : Nat := if a < 512 then 2 * a else (2 * a) ^^^ 1033

/-- The product of `a` with the lowest `n` bits of `b`. -/
def symMulBits : Nat → Nat → Nat → Nat
  | 0, _, _ => 0
  | n + 1, a, b => (if b % 2 = 1 then a else 0) ^^^ symMulBits n (symTwice a) (b / 2)

/-- Product of two field elements. -/
def symMul (a b : Nat) : Nat := symMulBits 10 a b

/-- A power of the primitive element. -/
def symPrim : Nat → Nat
  | 0 => 1
  | n + 1 => symTwice (symPrim n)

/-- A power of a field element. -/
def symPow (a : Nat) : Nat → Nat
  | 0 => 1
  | n + 1 => symMul a (symPow a n)

/-- The inverse of a nonzero element: its power 1,022. -/
def symInv (a : Nat) : Nat := symPow a 1022

/-- Sum of two polynomials, lowest degree first. -/
def polyAdd : List Nat → List Nat → List Nat
  | [], q => q
  | p, [] => p
  | a :: p, b :: q => (a ^^^ b) :: polyAdd p q

/-- A polynomial times a field element. -/
def polyScale (c : Nat) (p : List Nat) : List Nat := p.map (symMul c)

/-- Value of a polynomial, lowest degree first, at a point. -/
def polyEval (p : List Nat) (x : Nat) : Nat := p.foldr (fun a v => a ^^^ symMul v x) 0

/-! ### RS(544,514) -/

/-- The generator polynomial without its leading 1, lowest degree first: its roots are the powers 0 to 29 of the primitive element. -/
def rsGenerator : List Nat :=
  ((List.range 30).foldl (fun g i => polyAdd (0 :: g) (polyScale (symPrim i) g)) [1]).take 30

/-- The 30 parity symbols of a message, highest degree first: the remainder of the message times x^30. -/
def rsParity (m : List Nat) : List Nat :=
  let g := rsGenerator.reverse
  m.foldl (fun r a => let f := r.headD 0 ^^^ a; polyAdd (r.tail ++ [0]) (polyScale f g)) (List.replicate 30 0)

/-- The codeword of 514 message symbols (R252). -/
def rsEncode (m : List Nat) : List Nat := m ++ rsParity m

/-- The 30 syndromes of a received word. -/
def rsSyndromes (r : List Nat) : List Nat := (List.range 30).map (fun i => polyEval r.reverse (symPrim i))

/-- The search for the shortest recurrence of the syndromes: the locator polynomial and what the search carries. -/
structure RsSearch where
  loc : List Nat := [1]
  old : List Nat := [1]
  len : Nat := 0
  gap : Nat := 1
  div : Nat := 1

/-- One syndrome of the search. -/
def rsSearchStep (syn : List Nat) (n : Nat) (b : RsSearch) : RsSearch :=
  let d := (List.range (b.len + 1)).foldl (fun a i => a ^^^ symMul (b.loc.getD i 0) (syn.getD (n - i) 0)) 0
  if d = 0 then { b with gap := b.gap + 1 } else
  let next := polyAdd b.loc (List.replicate b.gap 0 ++ polyScale (symMul d (symInv b.div)) b.old)
  if 2 * b.len ≤ n then { loc := next, old := b.loc, len := n + 1 - b.len, gap := 1, div := d }
  else { b with loc := next, gap := b.gap + 1 }

/-- Correct up to 15 symbols: the received word with its errors taken out; none where no codeword lies that near (R252). -/
def rsCorrect (r : List Nat) : Option (List Nat) :=
  let syn := rsSyndromes r
  let b := (List.range 30).foldl (fun b n => rsSearchStep syn n b) {}
  let omega := (List.range 30).map (fun k => (List.range (k + 1)).foldl (fun a i => a ^^^ symMul (b.loc.getD i 0) (syn.getD (k - i) 0)) 0)
  let slope := b.loc.zipIdx.tail.map (fun e => if e.2 % 2 = 1 then e.1 else 0)
  let fixed := r.zipIdx.map (fun e =>
    let inv := symPrim ((1023 - (543 - e.2)) % 1023)
    if polyEval b.loc inv = 0 then e.1 ^^^ symMul (symPrim (543 - e.2)) (symMul (polyEval omega inv) (symInv (polyEval slope inv))) else e.1)
  if b.len ≤ 15 ∧ rsParity (fixed.take 514) = fixed.drop 514 then some fixed else none

/-- The message of a received word, its errors corrected (R252). -/
def rsDecode (r : List Nat) : Option (List Nat) :=
  if rsParity (r.take 514) = r.drop 514 then some (r.take 514) else (rsCorrect r).map (·.take 514)

/-! ### Frames (R253, R254) -/

/-- A link frame: the header fields of R254, its payload bytes and its transmit time. -/
structure Frame where
  typ : BitVec 2 := 0
  vc : BitVec 2 := 0
  fill : BitVec 6 := 0
  seq : BitVec 12 := 0
  ack : BitVec 12 := 0
  nak : Bool := false
  crVc : BitVec 2 := 0
  crCount : BitVec 14 := 0
  laneCmd : BitVec 4 := 0
  laneArg : BitVec 4 := 0
  rsvd : BitVec 5 := 0
  payload : List Byte := []
  txTs : BitVec 48 := 0
  deriving DecidableEq, Repr

/-- Why a received frame is discarded under R255; of an uncorrectable codeword also whether its marker stands. -/
inductive BadFrame where
  | uncorrectable (marked : Bool)
  | markerOrCrc
  | fields
  | overrun
  deriving DecidableEq, Repr

/-- The 64 header bits (R254). -/
def headerBits (f : Frame) : Nat :=
  f.typ.toNat + 2 ^ 2 * f.vc.toNat + 2 ^ 4 * f.fill.toNat + 2 ^ 10 * f.seq.toNat + 2 ^ 22 * f.ack.toNat + 2 ^ 34 * f.nak.toNat
    + 2 ^ 35 * f.crVc.toNat + 2 ^ 37 * f.crCount.toNat + 2 ^ 51 * f.laneCmd.toNat + 2 ^ 55 * f.laneArg.toNat + 2 ^ 59 * f.rsvd.toNat

/-- The payload field: 39 units of 16 bytes; bytes that the sender does not use are open (log 78). -/
def payloadField (f : Frame) : List Byte :=
  f.payload.take 624 ++ (List.range (624 - f.payload.length)).map (fun i => Config.linePad (f.payload.length + i))

/-- Bytes 0 to 637 of a frame: header, payload, transmit time. -/
def frameBody (f : Frame) : List Byte := leBytes 8 (headerBits f) ++ payloadField f ++ leBytes 6 f.txTs.toNat

/-- The 642 bytes of a frame. -/
def frameBytes (f : Frame) : List Byte := frameBody f ++ leBytes 4 (crc32 (frameBody f)).toNat

/-- The 514 message symbols of a frame: the marker 0b1010 in bits [3:0], the bytes from bit 4, and message bit m is bit m mod 10 of
symbol m div 10 (R252, R253). -/
def frameSymbols (f : Frame) : List Nat :=
  let m := 10 + 16 * leNat (frameBytes f)
  (List.range 514).map (fun i => m / 1024 ^ i % 1024)

/-- The codeword of a frame. -/
def codeword (f : Frame) : List Nat := rsEncode (frameSymbols f)

/-- Read the fields of a frame from its bytes. -/
def readFrame (b : List Byte) : Frame :=
  let h := leNat (b.take 8)
  let n (lo w : Nat) : Nat := h / 2 ^ lo % 2 ^ w
  { typ := BitVec.ofNat 2 (n 0 2), vc := BitVec.ofNat 2 (n 2 2), fill := BitVec.ofNat 6 (n 4 6), seq := BitVec.ofNat 12 (n 10 12),
    ack := BitVec.ofNat 12 (n 22 12), nak := decide (n 34 1 = 1), crVc := BitVec.ofNat 2 (n 35 2), crCount := BitVec.ofNat 14 (n 37 14),
    laneCmd := BitVec.ofNat 4 (n 51 4), laneArg := BitVec.ofNat 4 (n 55 4), rsvd := BitVec.ofNat 5 (n 59 5),
    payload := (b.drop 8).take 624, txTs := BitVec.ofNat 48 (leNat ((b.drop 632).take 6)) }

/-- Whether a frame's fields obey R254: TYPE 0 to 2, FILL up to 39 and 0 in an IDLE or TIME frame (R271), RSVD zero. -/
def frameFieldsOk (f : Frame) : Bool :=
  decide (f.typ.toNat < 3) && decide (f.fill.toNat ≤ 39) && (decide (f.typ = 0) || decide (f.fill = 0)) && decide (f.rsvd = 0)

/-- Read the frame of a message: marker and CRC, then the fields (R253, R255). -/
def readMessage (m : List Nat) : Except BadFrame Frame :=
  let n := m.foldr (fun a v => a % 1024 + 1024 * v) 0
  let b := leBytes 642 (n / 16)
  if n % 16 ≠ 10 ∨ (crc32 (b.take 638)).toNat ≠ leNat (b.drop 638) then .error .markerOrCrc
  else if frameFieldsOk (readFrame b) then .ok (readFrame b) else .error .fields

/-! ### Lanes (R252, R259) -/

/-- The symbols of a codeword on the nine physical lanes: symbol s goes to logical lane s mod W, which the map places. -/
def onLanes (map : List Nat) (w : List Nat) : LaneWord :=
  (List.range 9).map (fun k =>
    (w.zipIdx.filter (fun e => map.getD (e.2 % map.length) 9 == k)).map (fun e => BitVec.ofNat 10 e.1))

/-- The received word that the lanes of a map carry: symbol s is the next one of logical lane s mod W. -/
def offLanes (map : List Nat) (lanes : LaneWord) : List Nat :=
  (List.range 544).map (fun s =>
    ((lanes.getD (map.getD (s % map.length) 9) []).getD (s / map.length) 0).toNat)

/-- What a receiver makes of one codeword on its lanes (R252, R255). -/
def hear (map : List Nat) (lanes : LaneWord) : Except BadFrame Frame :=
  let w := offLanes map lanes
  match rsDecode w with
  | none => .error (.uncorrectable (decide (w.headD 0 % 16 = 10)))
  | some m => readMessage m

end Sys2Proof.Machine
end

