-- ==== Sys2Proof/Machine/NetOps.lean ====
section
/-!
DEFINITION. Shared operations of links and transport: packet bytes (R279), virtual channels (R280), framing with
credits and the replay buffer (R254, R256 to R258), routes (R287), outstanding messages (R282, R284).
-/

namespace Sys2Proof.Machine

/-! ### Packets -/

/-- KIND codes of R280. -/
def kRdReq : Nat := 0x01
/-- See `kRdReq`. -/
def kWrReq : Nat := 0x02
/-- See `kRdReq`. -/
def kRdResp : Nat := 0x03
/-- See `kRdReq`. -/
def kWrAck : Nat := 0x04
/-- See `kRdReq`. -/
def kErrResp : Nat := 0x05
/-- See `kRdReq`. -/
def kCollReady : Nat := 0x08
/-- See `kRdReq`. -/
def kCollData : Nat := 0x09
/-- See `kRdReq`. -/
def kCollAck : Nat := 0x0A
/-- See `kRdReq`. -/
def kExchCount : Nat := 0x0B
/-- See `kRdReq`. -/
def kExchAdmit : Nat := 0x0C
/-- See `kRdReq`. -/
def kExchData : Nat := 0x0D
/-- See `kRdReq`. -/
def kExchReturn : Nat := 0x0E
/-- See `kRdReq`. -/
def kJoinReq : Nat := 0x10
/-- See `kRdReq`. -/
def kJoinResp : Nat := 0x11
/-- See `kRdReq`. -/
def kMemberUpdate : Nat := 0x12
/-- See `kRdReq`. -/
def kMemberSync : Nat := 0x13
/-- See `kRdReq`. -/
def kHeartbeat : Nat := 0x14
/-- See `kRdReq`. -/
def kBarrierArrive : Nat := 0x15
/-- See `kRdReq`. -/
def kBarrierBell : Nat := 0x16
/-- See `kRdReq`. -/
def kPower : Nat := 0x18
/-- See `kRdReq`. -/
def kCheckpoint : Nat := 0x19

/-- Virtual channel of a KIND (R280). -/
def kindVc (k : Nat) : Nat :=
  if k ≤ 2 then 0 else if k ≤ 5 then 1 else if k = kCollAck then 1 else if k ≤ 0x0E then 2 else 3

/-- Whether a KIND is defined (R280). -/
def kindDefined (k : Nat) : Bool :=
  (decide (1 ≤ k) && decide (k ≤ 5)) || (decide (8 ≤ k) && decide (k ≤ 0xE)) || (decide (0x10 ≤ k) && decide (k ≤ 0x16))
    || decide (k = 0x18) || decide (k = 0x19)

/-- Bytes of a packet: header of R279, then the payload. -/
def packetBytes (p : Packet) : List Byte :=
  leBytes 2 p.dst.toNat ++ leBytes 2 p.src.toNat ++ leBytes 1 p.kind.toNat ++ leBytes 1 p.ttl.toNat
    ++ leBytes 2 p.len.toNat ++ leBytes 2 p.epoch.toNat ++ leBytes 2 p.ctx.toNat ++ leBytes 4 p.msgId.toNat
    ++ leBytes 8 p.addr.toNat ++ leBytes 4 p.aux.toNat ++ leBytes 4 0 ++ p.payload

/-- Read a packet from the front of a byte stream: the packet and its length in bytes, once all bytes are there. -/
def parsePacket (l : List Byte) : Option (Packet × Nat) :=
  if l.length < 32 then none else
  let n (off k : Nat) : Nat := leNat ((l.drop off).take k)
  let units := n 6 2 % 512
  let total := 32 + 16 * units
  if l.length < total then none else
  let rsv := n 4 1 / 64 = 0 && n 6 2 / 512 = 0 && n 28 4 = 0
  some (⟨BitVec.ofNat 16 (n 0 2), BitVec.ofNat 16 (n 2 2), BitVec.ofNat 6 (n 4 1), BitVec.ofNat 8 (n 5 1),
    BitVec.ofNat 9 units, BitVec.ofNat 16 (n 8 2), BitVec.ofNat 16 (n 10 2), BitVec.ofNat 32 (n 12 4),
    BitVec.ofNat 64 (n 16 8), BitVec.ofNat 32 (n 24 4), rsv, (l.drop 32).take (16 * units)⟩, total)

/-- This module's identifier (R277). -/
def moduleId (s : State) : BitVec 16 := BitVec.ofNat 16 (fld s 0x31 fMembershipModuleId)

/-- The epoch in force (R290). -/
def epochNow (s : State) : BitVec 16 := BitVec.ofNat 16 (fld s 0x31 fMembershipEpoch)

/-! ### Ports: states, frames, credits -/

/-- State codes of R261. -/
def psOff : Nat := 0
/-- See `psOff`. -/
def psLaser : Nat := 1
/-- See `psOff`. -/
def psTrain : Nat := 2
/-- See `psOff`. -/
def psAlign : Nat := 3
/-- See `psOff`. -/
def psParam : Nat := 4
/-- See `psOff`. -/
def psTimeCal : Nat := 5
/-- See `psOff`. -/
def psActive : Nat := 6
/-- See `psOff`. -/
def psRetrain : Nat := 7
/-- See `psOff`. -/
def psDown : Nat := 8

/-- STATE of a port (R273). -/
def portState (s : State) (p : Nat) : Nat := fld s (pgPort p) stPortState

/-- Whether a port is ACTIVE and its die powered. -/
def portActive (s : State) (p : Nat) : Bool := decide (portState s p = psActive) && pageServed s (pgPort p)

/-- Partner identifier of a port (R276). -/
def partnerId (s : State) (p : Nat) : Nat := wideWord (wideVal s (pgPort p) wPartner) 0 % 2 ^ 16

/-- Element i of a list of four. -/
def four (l : List Nat) (i : Nat) : Nat := l.getD i 0

/-- Units a channel may still send: the partner's share less the units sent and not yet freed (R257). -/
def creditLeft (x : Port) (vc : Nat) : Nat :=
  let used := (four x.txTotal vc + 16384 - four x.peerCredit vc % 16384) % 16384
  64 * four x.peerShare vc - used

/-- Whether a channel has a unit to send and credit for it. -/
def vcReady (x : Port) (vc : Nat) : Bool := decide (16 ≤ (x.txq.getD vc []).length) && decide (0 < creditLeft x vc)

/-- The channel served next: VC3 first, else VC0, VC1, VC2 in rotation (R257). -/
def nextVc (x : Port) : Option Nat :=
  if vcReady x 3 then some 3 else ([x.turn % 3, (x.turn + 1) % 3, (x.turn + 2) % 3]).find? (vcReady x)

/-- The fabric unit takes units of a channel from the receive buffer up to the end of the packet it is taking, unless the packet
before it still waits: what it takes is freed for the partner's credit, and a whole packet stands in the inbox (R257, log 78). -/
def fabricTake (s : State) (p v : Nat) : State :=
  let x := portOf s p
  if (x.rxHead.getD v none).isSome then s else
  let buf := x.rxBuf.getD v []
  let part := x.rxPart.getD v []
  let freed (n : Nat) : List Nat := x.rxUnits.set v ((four x.rxUnits v + n / 16) % 16384)
  match parsePacket (part ++ buf) with
  | none => setPort s p { x with rxPart := x.rxPart.set v (part ++ buf), rxBuf := x.rxBuf.set v [], rxUnits := freed buf.length }
  | some (pk, k) =>
    let n := k - part.length
    let s := setPort s p { x with
      rxPart := x.rxPart.set v [], rxBuf := x.rxBuf.set v (buf.drop n), rxUnits := freed n, rxHead := x.rxHead.set v (some pk) }
    setNet s { s.net with inbox := s.net.inbox ++ [pk] }

/-! ### What a port sends -/

/-- LANE_CMD and LANE_ARG of the next header: CMD_ACK where one is owed, else the command that awaits its CMD_ACK (R260). -/
def laneHeader (x : Port) : Nat × Nat :=
  if x.ackDue then (4, ((x.cmdIn.map (·.lane)).getD 0))
  else match x.cmdOut, x.cmdAcked with
    | some c, false => (c.code, c.lane)
    | _, _ => (0, 0)

/-- The frame that a port sends at a time: its own fields, and the header fields that every transmission writes anew (R254, R256). -/
def frameAt (x : Port) (t typ vc seq : Nat) (payload : List Byte) : Frame :=
  let c := laneHeader x
  { typ := BitVec.ofNat 2 typ, vc := BitVec.ofNat 2 vc, fill := BitVec.ofNat 6 (if typ = 0 then payload.length / 16 else 0),
    seq := BitVec.ofNat 12 seq, ack := BitVec.ofNat 12 (x.rxNext + 4095), nak := x.nakDue, crVc := BitVec.ofNat 2 x.crTurn,
    crCount := BitVec.ofNat 14 (four x.rxUnits x.crTurn), laneCmd := BitVec.ofNat 4 c.1, laneArg := BitVec.ofNat 4 c.2,
    payload := payload, txTs := BitVec.ofNat 48 (16 * t) }

/-- Transmit a frame: its codeword goes onto the lanes of the transmit map, and CR_COUNT turns to the next channel (R252, R256). -/
def transmit (x : Port) (t typ vc seq : Nat) (payload : List Byte) : Port :=
  { x with line := x.line ++ [onLanes x.txMap (codeword (frameAt x t typ vc seq payload))],
           crTurn := (x.crTurn + 1) % 4, nakDue := false, ackDue := false }

/-- Send one DATA frame of a channel into the replay buffer (R254, R257, R258). -/
def sendFrame (x : Port) (vc t : Nat) : Port :=
  let q := x.txq.getD vc []
  let units := min 39 (min (q.length / 16) (creditLeft x vc))
  let x := transmit x t 0 vc x.nextSeq (q.take (16 * units))
  { x with
    replay := x.replay ++ [⟨x.nextSeq, vc, q.take (16 * units), 0⟩],
    nextSeq := (x.nextSeq + 1) % 4096,
    txq := x.txq.set vc (q.drop (16 * units)),
    txTotal := x.txTotal.set vc (four x.txTotal vc + units),
    turn := if vc = 3 then x.turn else (vc + 1) % 3,
    lastData := t }

/-- Send frames while a channel is ready and the replay buffer has room (R258: 2,048 frames). -/
def pumpFrames : Nat → Nat → Port → Port
  | 0, _, x => x
  | n + 1, t, x =>
    if x.replay.length ≥ 2048 then x else
    match nextVc x with
    | none => x
    | some vc => pumpFrames n t (sendFrame x vc t)

/-- Units waiting in a port's transmit queues. -/
def txWaiting (x : Port) : Nat := x.txq.foldl (fun a q => a + q.length / 16) 0

/-- Let an ACTIVE port send what it may. -/
def portPump (s : State) (p : Nat) : State :=
  if portActive s p then
    let x := portOf s p
    setPort s p (pumpFrames (txWaiting x) (now s) x)
  else s

/-- Put a packet into a port's transmit queue and send what the port may. -/
def portSend (s : State) (p : Nat) (pk : Packet) : State :=
  let x := portOf s p
  let vc := kindVc pk.kind.toNat
  let bytes := packetBytes pk
  let queued := (x.txq.getD vc []).length / 16
  let endAt := four x.txTotal vc + queued + bytes.length / 16
  portPump (setPort s p { x with txq := x.txq.set vc (x.txq.getD vc [] ++ bytes), txPkts := x.txPkts ++ [(vc, endAt, pk)] }) p

/-! ### Routes and messages -/

/-- Route entry for a module identifier (R286). -/
def routeEntry (s : State) (dst : BitVec 16) : BitVec 16 := mapGet (fun _ => (0 : BitVec 16)) dst.toNat s.net.routes

/-- The outgoing port of a packet (R287, steps 1 to 3). -/
def routePort (s : State) (dst : BitVec 16) : Option Nat :=
  match (List.range 16).find? (fun p => portActive s p && partnerId s p == dst.toNat) with
  | some p => some p
  | none =>
    let e := (routeEntry s dst).toNat
    if e.testBit 8 && portActive s (e % 16) then some (e % 16)
    else if e.testBit 9 && portActive s (e / 16 % 16) then some (e / 16 % 16)
    else none

/-- Whether a KIND is a response, which is dropped without reply when it cannot be routed (R287). -/
def isResponse (k : Nat) : Bool := decide (k = kRdResp) || decide (k = kWrAck) || decide (k = kErrResp) || decide (k = kCollAck)

/-- An ERR_RESP for a packet (R283). -/
def errResp (s : State) (pk : Packet) (code : Nat) : Packet :=
  ⟨pk.src, moduleId s, BitVec.ofNat 6 kErrResp, BitVec.ofNat 8 (fld s 0x30 fTransportTtlInit), 0, 0, 0, pk.msgId, 0,
    BitVec.ofNat 32 code, true, []⟩

/-- Send a packet on its route; a packet or a refusal that this module owes itself waits in its inbox (R287). -/
def emitVia (s : State) (pk : Packet) : State × Option Nat :=
  if pk.dst = moduleId s then (setNet s { s.net with inbox := s.net.inbox ++ [pk] }, none) else
  match routePort s pk.dst with
  | some p => (portSend s p pk, some p)
  | none =>
    let s := raise (bump s 0x30 fTransportNoRouteCount) 0x30 evTransportNoRoute
    if isResponse pk.kind.toNat then (s, none)
    else
      let e := errResp s pk 0x04
      if pk.src = moduleId s then (setNet s { s.net with inbox := s.net.inbox ++ [e] }, none)
      else match routePort s pk.src with
        | some p => (portSend s p e, none)
        | none => (raise (bump s 0x30 fTransportNoRouteCount) 0x30 evTransportNoRoute, none)

/-- Send a packet on its route. -/
def emit (s : State) (pk : Packet) : State := (emitVia s pk).1

/-- A packet of this module: TTL from TTL_INIT; EPOCH zero in kinds 0x01 to 0x05 (R279, R287). -/
def ownPacket (s : State) (dst : BitVec 16) (kind : Nat) (ctx : BitVec 16) (msgId : BitVec 32) (addr aux : Nat)
    (payload : List Byte) : Packet :=
  ⟨dst, moduleId s, BitVec.ofNat 6 kind, BitVec.ofNat 8 (fld s 0x30 fTransportTtlInit),
    BitVec.ofNat 9 (payload.length / 16), if kind ≤ 5 then 0 else epochNow s, ctx, msgId, BitVec.ofNat 64 addr,
    BitVec.ofNat 32 aux, true, payload⟩

/-- Take the next message number (R279). -/
def takeMsgId (s : State) : BitVec 32 × State := (s.net.nextMsg, setNet s { s.net with nextMsg := s.net.nextMsg + 1 })

/-- Send a control packet that no response answers. -/
def sendControl (s : State) (dst : BitVec 16) (kind : Nat) (ctx : BitVec 16) (addr aux : Nat) (payload : List Byte) : State :=
  let m := takeMsgId s
  emit m.2 (ownPacket m.2 dst kind ctx m.1 addr aux payload)

/-- Outstanding messages of a die's fabric unit (R282). -/
def outOfDie (s : State) (d : Nat) : Nat := (s.net.out.filter (fun m => m.die == d)).length

/-- Put a message on the wire and in its unit's table. -/
def launch (s : State) (m : Msg) : State :=
  let e := emitVia s m.pk
  setNet e.1 { e.1.net with out := e.1.net.out ++ [{ m with first := now s, last := now s, port := e.2 }] }

/-- Send a message that awaits a response; with 1,024 outstanding in its unit it waits (R282). -/
def sendMsg (s : State) (die : Nat) (dst : BitVec 16) (kind : Nat) (ctx : BitVec 16) (addr aux : Nat)
    (payload : List Byte) (owner : MsgOwner) : State × BitVec 32 :=
  let t := takeMsgId s
  let m : Msg := ⟨die, ownPacket t.2 dst kind ctx t.1 addr aux payload, owner, 0, 0, 0, none⟩
  if outOfDie t.2 die < 1024 then (launch t.2 m, t.1)
  else (setNet t.2 { t.2.net with waitq := t.2.net.waitq ++ [m] }, t.1)

/-- Send waiting messages that now find room. -/
def drainWaiting (s : State) : State :=
  s.net.waitq.foldl (fun s m =>
    if outOfDie s m.die < 1024 then
      launch (setNet s { s.net with waitq := s.net.waitq.filter (fun x => x.pk.msgId != m.pk.msgId) }) m
    else s) s

/-- Remove an outstanding message. -/
def dropMsg (s : State) (id : BitVec 32) : State :=
  drainWaiting (setNet s { s.net with
    out := s.net.out.filter (fun m => m.pk.msgId != id),
    waitq := s.net.waitq.filter (fun m => m.pk.msgId != id) })

/-- Remove every outstanding message of some owners. -/
def dropMsgsOf (s : State) (own : MsgOwner → Bool) : State :=
  drainWaiting (setNet s { s.net with
    out := s.net.out.filter (fun m => !(own m.owner)),
    waitq := s.net.waitq.filter (fun m => !(own m.owner)) })

/-- Resend an outstanding message with the same MSG_ID (R284). -/
def resendMsg (s : State) (m : Msg) : State :=
  let e := emitVia (bump s 0x30 fTransportMsgRetryCount) m.pk
  setNet e.1 { e.1.net with
    out := e.1.net.out.map (fun x => if x.pk.msgId == m.pk.msgId then { x with last := now s, resends := x.resends + 1, port := e.2 } else x) }

/-- Whether a request was applied before: the pair (SRC, MSG_ID) is kept for 16 ms (R284). -/
def wasApplied (s : State) (src : BitVec 16) (id : BitVec 32) : Bool :=
  s.net.applied.any (fun e => e.1 == src && e.2.1 == id && decide (now s < e.2.2 + 16000000))

/-- Remember that a request was applied, dropping pairs older than 16 ms. -/
def noteApplied (s : State) (src : BitVec 16) (id : BitVec 32) : State :=
  setNet s { s.net with
    applied := (s.net.applied.filter (fun e => decide (now s < e.2.2 + 16000000))) ++ [(src, id, now s)] }

/-- Count a discarded packet (R280, R281). -/
def packetBad (s : State) : State := raise (bump s 0x30 fTransportPktBadCount) 0x30 evTransportPktBad

/-- Whether a packet passes R281. -/
def packetOk (pk : Packet) : Bool :=
  pk.rsvdZero && decide (pk.len.toNat ≤ 256) && decide (pk.payload.length = 16 * pk.len.toNat)
    && decide (pk.dst ≠ 0) && decide (pk.dst.toNat < 0xFFF0)

/-- The port and channel whose received packet the fabric unit holds, where it is `pk`. -/
def headOf (s : State) (pk : Packet) : Option (Nat × Nat) :=
  (List.range 16).findSome? (fun p => (List.range 4).findSome? (fun v =>
    if (portOf s p).rxHead.getD v none = some pk then some (p, v) else none))

/-- Take a packet out of the inbox when the links delivered it there; the fabric unit then takes on from that channel's buffer. -/
def takeInbox (s : State) (pk : Packet) : State :=
  if !(s.net.inbox.contains pk) then s else
  let s := setNet s { s.net with inbox := s.net.inbox.erase pk }
  match headOf s pk with
  | some (p, v) => fabricTake (setPort s p { portOf s p with rxHead := (portOf s p).rxHead.set v none }) p v
  | none => s

/-! ### The membership table (R290) -/

/-- JSTATE codes (R314). -/
def jsUnjoined : Nat := 0
/-- See `jsUnjoined`. -/
def jsJoining : Nat := 1
/-- See `jsUnjoined`. -/
def jsMember : Nat := 2
/-- See `jsUnjoined`. -/
def jsStandby : Nat := 3
/-- See `jsUnjoined`. -/
def jsManager : Nat := 4
/-- See `jsUnjoined`. -/
def jsStandalone : Nat := 5

/-- JSTATE (R314). -/
def jstate (s : State) : Nat := fld s 0x31 stMembershipJstate

/-- The module identifier of the group manager, as GM_ID stood at JOIN (R315). -/
def gmId (s : State) : BitVec 16 := s.net.gm

/-- Whether this module is a member or standby member of a group. -/
def isMember (s : State) : Bool := decide (jstate s = jsMember) || decide (jstate s = jsStandby)

/-- STATE of a membership entry (R290). -/
def entryState (e : BitVec 32) : Nat := bitsOf e.toNat 16 3
/-- ID of a membership entry. -/
def entryId (e : BitVec 32) : BitVec 16 := e.extractLsb' 0 16
/-- A membership entry. -/
def memEntry (id : BitVec 16) (st : Nat) : BitVec 32 := BitVec.ofNat 32 (id.toNat + st * 2 ^ 16)

/-- Whether rank 0 is this module by its role: a group manager or a standalone module (R278). -/
def holdsRankZero (s : State) : Bool := decide (jstate s = jsManager) || decide (jstate s = jsStandalone)

/-- Entry of a rank in a table; rank 0 of a group manager or standalone module is itself. -/
def entryIn (s : State) (m : SMap (BitVec 32)) (r : Nat) : BitVec 32 :=
  if r = 0 ∧ holdsRankZero s then memEntry (moduleId s) 1 else mapGet (fun _ => (0 : BitVec 32)) r m

/-- Entry of a rank in the table in force. -/
def memberEntry (s : State) (r : Nat) : BitVec 32 := entryIn s s.net.members r

/-- Ranks in a table that are not ABSENT, ascending. -/
def listedRanks (s : State) (m : SMap (BitVec 32)) : List Nat :=
  (if holdsRankZero s then [0] else []) ++ (m.map (·.1)).filter (fun r => !(r == 0 && holdsRankZero s))

/-- Working ranks: ACTIVE entries below 16,384, in rank order (R278). -/
def workingRanks (s : State) : List Nat :=
  (listedRanks s s.net.members).filter (fun r => decide (r < 16384) && decide (entryState (memberEntry s r) = 1))

/-- STANDBY entries. -/
def standbyRanks (s : State) : List Nat :=
  (listedRanks s s.net.members).filter (fun r => decide (entryState (memberEntry s r) = 2))

/-- Rank of a module identifier in a table. -/
def rankIn (s : State) (m : SMap (BitVec 32)) (id : BitVec 16) : Option Nat :=
  (listedRanks s m).find? (fun r => entryId (entryIn s m r) == id && entryState (entryIn s m r) != 3)

/-- Rank of a module identifier. -/
def rankOf (s : State) (id : BitVec 16) : Option Nat := rankIn s s.net.members id

/-- Members other than this module to which the group manager speaks: ACTIVE, STANDBY and JOINING entries. -/
def otherMembers (s : State) (m : SMap (BitVec 32)) : List (BitVec 16) :=
  ((listedRanks s m).filter (fun r => [1, 2, 4].contains (entryState (entryIn s m r)))).map (fun r => entryId (entryIn s m r))
    |>.filter (· != moduleId s)

/-- Set WORKING_COUNT and STANDBY_COUNT from the table in force (R315). -/
def setCounts (s : State) : State :=
  setFld (setFld s 0x31 fMembershipWorkingCount (workingRanks s).length) 0x31 fMembershipStandbyCount (standbyRanks s).length

/-- The sixteen port reports of this module (R295). -/
def portReports (s : State) : List (BitVec 32) :=
  (List.range 16).map (fun p =>
    let w := wideWord (wideVal s (pgPort p) wPartner) 0
    let on := decide (portState s p = psActive)
    let known := decide (w ≠ 2 ^ 32 - 1)
    BitVec.ofNat 32 (p + (if known then bitsOf w 16 4 * 16 else 0) + (if on then 256 else 0)
      + (if known then w % 2 ^ 16 * 2 ^ 16 else 0)))

/-- Note that a port came up or went down, for the next heartbeat (R288, R295). -/
def markReports (s : State) : State := setNet s { s.net with reportsDirty := true }

/-- The time base stops following a group manager: what it had taken from the upstream port is dropped (R202, R211, R268). -/
def unfollow (s : State) : State :=
  setFlag (setFlag (setNet s { s.net with slew := 0, offRuns := 0 }) 3 stTimeBaseGroupSync false) 3 stTimeBaseSynced false

/-- Make one port the TIME_UPSTREAM port. -/
def setUpstream (s : State) (p : Nat) : State :=
  if flag s (pgPort p) fPortTimeUpstream then s
  else (List.range 16).foldl (fun s k => setFlag s (pgPort k) fPortTimeUpstream (k == p)) (unfollow s)

/-- On a member, TIME_UPSTREAM follows the route to the group manager (R289). -/
def chooseUpstream (s : State) : State :=
  if !(isMember s) then s else
  let e := (routeEntry s (gmId s)).toNat
  if e.testBit 8 && (decide (portState s (e % 16) = psActive) || !(e.testBit 9)) then setUpstream s (e % 16)
  else if e.testBit 9 then setUpstream s (e / 16 % 16) else s

/-- A fabric unit's non-finite results (R300, R312). -/
def fabCounts (s : State) (die : Nat) (c : FmtCounts) : State :=
  let at' (f : FieldDef) : FieldDef := { f with off := f.off + 16 * die }
  let s := bumpBy (bumpBy s 0x30 (at' fTransportInfCount0) c.inf) 0x30 (at' fTransportNanCount0) c.nan
  let s := raiseIf (decide (c.inf + c.nan > 0)) s 0x30 evTransportNonfinite
  raiseIf (decide (c.rsvdScale > 0)) (bumpBy s 0x30 (at' fTransportRsvdScaleCount0) c.rsvdScale) 0x30 evTransportReservedScale

end Sys2Proof.Machine
end

