-- ==== Sys2Proof/Machine/ClutchOps.lean ====
section
/-!
DEFINITION. Clutches (13_checkpoint.md): the layout of a clutch over the working ranks (R374), its start (R371, R377), its
end (R370, R376, R379) and the note of its capture bell (R372).
-/

namespace Sys2Proof.Machine

/-- The checkpoint store with a change. -/
def setStore (s : State) (x : Store) : State := { s with store := x }

/-! ### Layout (R374) -/

/-- k of a layout: K when it fits N, else the automatic k. -/
def layoutK (n k : Nat) : Nat := if k = 0 ∨ n < k + 2 then min 14 (n - 2) else k

/-- Stride of a layout: 1, or for an odd clutch the least g from k + 2 to N − k − 2 prime to N. -/
def layoutStride (n k num : Nat) (stride : Bool) : Nat :=
  if num % 2 = 1 ∧ stride then
    (((List.range (n - k - 1)).filter (fun g => decide (k + 2 ≤ g))).find? (fun g => decide (Nat.gcd g n = 1))).getD 1
  else 1

/-- Position at ring place j. -/
def ringPos (n g j : Nat) : Nat := j * g % n
/-- Stripes of a round. -/
def stripeCount (n k : Nat) : Nat := (n + k - 1) / k
/-- Data units of stripe t. -/
def stripeData (n k t : Nat) : Nat := min k (n - t * k)
/-- Position whose unit is data i of stripe t in round r. -/
def dataPos (n k g r t i : Nat) : Nat := ringPos n g ((r % n + t * k + i) % n)
/-- Position that holds P of a stripe. -/
def pPos (n k g r t : Nat) : Nat := ringPos n g ((r % n + t * k + stripeData n k t) % n)
/-- Position that holds Q of a stripe. -/
def qPos (n k g r t : Nat) : Nat := ringPos n g ((r % n + t * k + stripeData n k t + 1) % n)

/-- Stripe and data place of a position's unit in round r. -/
def placeOf (n k g r pos : Nat) : Option (Nat × Nat) :=
  ((List.range n).find? (fun j => ringPos n g ((r % n + j) % n) == pos)).map (fun j => (j / k, j % k))

/-- Parity units that a position holds in round r: stripe, and whether it is Q. -/
def parityOf (n k g r pos : Nat) : List (Nat × Bool) :=
  ((List.range (stripeCount n k)).map (fun t =>
    (if pPos n k g r t = pos then [(t, false)] else []) ++ (if qPos n k g r t = pos then [(t, true)] else []))).flatten

/-- Whether a clutch of N working ranks carries parity (R389). -/
def hasParity (n : Nat) : Bool := decide (4 ≤ n)

/-- Position of this module in rank set 0, where it is a working rank. -/
def myPos (s : State) : Option Nat := (workingRanks s).findIdx? (fun r => decide (r = fld s 0x31 fMembershipRank))

/-- Whether this module writes its stream to a clutch: a working rank, or a standalone module. -/
def capturesHere (s : State) : Bool := decide (jstate s = jsMember) || holdsRankZero s

/-! ### The clutch directory (R370, R395) -/

/-- Directory entry of a clutch. -/
def clutchOf (s : State) (num : Nat) : ClutchRec := mapGet (fun _ => ({} : ClutchRec)) num s.store.dir
/-- Set a directory entry. -/
def setClutch (s : State) (num : Nat) (c : ClutchRec) : State :=
  setStore s { s.store with dir := mapSet (fun _ => ({} : ClutchRec)) num c s.store.dir }

/-- LATEST (R394). -/
def latestClutch (s : State) : Nat := fld s 9 fStore1Latest
/-- PREVIOUS (R394). -/
def previousClutch (s : State) : Nat := fld s 9 fStore1Previous

/-- Free the units of a clutch; a block left without units is erased (R367, R370). -/
def freeClutch (s : State) (num : Nat) : State :=
  let keep := s.store.units.filter (fun u => u.clutch != num)
  let gone := (s.store.units.filter (fun u => u.clutch == num)).foldl (fun (l : List (Nat × Nat)) u =>
    if l.contains (u.die, u.block) || keep.any (fun v => v.die == u.die && v.block == u.block) then l else (u.die, u.block) :: l) []
  let dies := gone.foldl (fun m b => mapUpd (fun _ => ({} : FlashState)) b.1 (fun f =>
    { f with erases := mapUpd (fun _ => 0) b.2 (· + 1) f.erases, programmed := mapErase b.2 f.programmed }) m) s.store.dies
  setStore s { s.store with units := keep, dies := dies }

/-- End the capture under way: no clutch captures, nothing streams. -/
def closeCapture (s : State) : State :=
  setFlag (setFlag (setFld (setStore s { s.store with capture := none }) 9 fStore1Capture 0) 9 stStore1Capturing false)
    9 stStore1Streaming false

/-- End a clutch FAILED with its reason (R379, R380). -/
def failClutch (s : State) (num reason : Nat) : State :=
  let s := setClutch s num { clutchOf s num with st := 4, reason := reason }
  closeCapture (raise (bump (freeClutch s num) 9 fStore1ClutchFailedCount) 9 evStore1ClutchFailed)

/-- Enter a retained clutch DEGRADED (R370). -/
def degradeClutch (s : State) (num : Nat) : State :=
  if (clutchOf s num).st = 2 then
    raise (setClutch s num { clutchOf s num with st := 3 }) 9 evStore1ClutchDegraded
  else s

/-- Mark a clutch secured and release the older of the two retained ones (R370, R376). -/
def secureClutch (s : State) (num : Nat) (degraded : Bool) : State :=
  let old := previousClutch s
  let s := setClutch s num { clutchOf s num with st := 2 }
  let s := if degraded then degradeClutch s num else s
  let s := if old = 0 then s else freeClutch (setClutch s old { clutchOf s old with st := 5 }) old
  let s := setFld (setFld s 9 fStore1Previous (latestClutch s)) 9 fStore1Latest num
  closeCapture (raise (bump s 9 fStore1ClutchSecuredCount) 9 evStore1ClutchSecured)

/-! ### Packets of KIND 0x19 (R377, R378) -/

/-- Subtype of a checkpoint packet. -/
def ckSub (pk : Packet) : Nat := bitsOf pk.aux.toNat 0 8
/-- Send a checkpoint packet to a member. -/
def sendCk (s : State) (dst : BitVec 16) (sub clutch addr auxHi : Nat) (payload : List Byte) : State :=
  sendControl s dst kCheckpoint (BitVec.ofNat 16 clutch) addr (sub + auxHi * 2 ^ 8) payload

/-- Payload of CLUTCH_START. -/
def startBytes (num k g : Nat) (barrier : BitVec 16) (u : Nat) : List Byte :=
  leBytes 4 num ++ leBytes 2 k ++ leBytes 2 g ++ leBytes 2 barrier.toNat ++ leBytes 2 0 ++ leBytes 4 u

/-- Send a checkpoint packet to every other member of the table. -/
def ckToAll (s : State) (sub clutch auxHi : Nat) (payload : List Byte) : State :=
  (otherMembers s s.net.members).foldl (fun s m => sendCk s m sub clutch 0 auxHi payload) s

/-- A member takes the first CLUTCH_START of a clutch (R377). -/
def takeStart (s : State) (num k g : Nat) (barrier : BitVec 16) : State :=
  let n := (workingRanks s).length
  let s := setClutch s num { st := 1, k := k, n := n, epoch := (epochNow s).toNat, g := g }
  let s := setFlag (setFld s 9 fStore1Capture num) 9 stStore1Capturing true
  setStore s { s.store with capture := some { num := num, k := k, g := g, n := n, barrier := barrier } }

/-- The group manager starts a clutch whose capture point is the bell of a barrier (R371, R374, R377). K that does not fit
N raises CTRL_BAD and the automatic k is used; a group without parity sends k 0 and stride 1. -/
def startClutch (s : State) (barrier : BitVec 16) : State :=
  let num := s.store.next
  let n := (workingRanks s).length
  let want := fld s 9 fStore1K
  let s := raiseIf (hasParity n && decide (want ≠ 0) && decide (n < want + 2)) s 9 evStore1CtrlBad
  let k := if hasParity n then layoutK n want else 0
  let g := if hasParity n then layoutStride n k num (flag s 9 fStore1StrideEn) else 1
  let x := s.store
  let s := setStore s { x with next := num + 1, due := false, asked := false, dueRisk := false,
                               riskTimes := if x.dueRisk then x.riskTimes ++ [now s] else x.riskTimes }
  takeStart (ckToAll s 1 num 0 (startBytes num k g barrier 0)) num k g barrier

/-- The first arrival of a step barrier at the group manager: a clutch that is due starts there (R371, R372). -/
def startDueClutch (s : State) (barrier : BitVec 16) : State :=
  if s.store.due && s.store.capture.isNone && s.store.restore.isNone && holdsRankZero s then startClutch s barrier else s

/-- A barrier's bell is fixed: a capture that names it takes it as its capture bell (R372). -/
def noteCaptureBell (s : State) (barrier : BitVec 16) (t : Nat) : State :=
  match s.store.capture with
  | some c =>
    if c.barrier = barrier ∧ c.bell = none then
      setStore s { s.store with capture := some { c with bell := some t }, lastBell := some t }
    else s
  | none => s

end Sys2Proof.Machine
end

