-- ==== Sys2Proof/Machine/ArrayOps.lean ====
section
/-!
DEFINITION. Matrix arrays (04_arrays.md): the pass descriptor and its refusal (R100 to R102), convolution addresses
(R119, R120), the sums of a pass (R73, R74, R106, R107, R112) and the rows it writes (R109, R111).
-/

namespace Sys2Proof.Machine

/-- Size of the operand cache in bytes (R33). -/
def ocSize : Nat := 0x180000

/-- Operand families (R72, R94). -/
inductive Family where
  | block | fp8 | bf16
  deriving DecidableEq, Repr

/-- Family of a format code; BX4 and BI4 do not mix (R72, R101). -/
def passFamily (a b : Nat) : Option Family :=
  if (a = 0 ∧ b = 0) ∨ (a = 1 ∧ b = 1) then some .block
  else if (a = 2 ∨ a = 3) ∧ (b = 2 ∨ b = 3) then some .fp8
  else if a = 4 ∧ b = 4 then some .bf16
  else none

/-- Bytes of `k` elements (R97). -/
def elemBytes (f : Family) (k : Nat) : Nat :=
  match f with
  | .block => k / 2
  | .fp8 => k
  | .bf16 => 2 * k

/-- The fields of a descriptor and whether its reserved bits are zero (R100). -/
def readPassDesc (v : Nat) : PassDesc × Bool :=
  let w (off : Nat) : Nat := bitsOf v (8 * off) 32
  let d : PassDesc :=
    { wide := decide (bitsOf v 0 1 = 1), array := bitsOf v 1 2, conv := decide (bitsOf v 3 1 = 1),
      fmtA := bitsOf v 4 3, fmtB := bitsOf v 7 3, stoch := decide (bitsOf v 10 1 = 1),
      overwrite := decide (bitsOf v 11 1 = 1), rows := bitsOf v 32 11 + 1, slot := bitsOf v 43 6,
      trow := bitsOf v 49 5, tsp := BitVec.ofNat 32 (w 8), kgroups := bitsOf v 96 6 + 1,
      aVal := bitsOf v 128 21, aPitch := bitsOf v 160 21, aScl := bitsOf v 192 21, bVal := bitsOf v 224 21,
      bPitch := bitsOf v 256 21, bScl := bitsOf v 288 21, convDesc := bitsOf v 320 21, indexBase := bitsOf v 384 64 }
  let rsvdZero := bitsOf v 12 20 = 0 && bitsOf v 54 10 = 0 && bitsOf v 102 26 = 0
    && [0x10, 0x14, 0x18, 0x1C, 0x20, 0x24, 0x28].all (fun o => decide (w o < 2 ^ 21))
    && w 0x2C = 0 && bitsOf v 448 64 = 0
  (d, rsvdZero)

/-- Whether an operand of `count` records meets R98. -/
def operandOk (f : Family) (val pitch scl count k : Nat) : Bool :=
  decide (val % 16 = 0) && decide (pitch % 16 = 0) && decide (scl % 2 = 0)
    && decide (val + (count - 1) * pitch + elemBytes f k ≤ ocSize)
    && (match f with
      | .block => decide (scl + (count - 1) * pitch / 8 + k / 16 ≤ ocSize)
      | _ => true)

/-- The fields of a convolution descriptor and whether its reserved bits are zero (R119). -/
def readConvDesc (v : Nat) : ConvDesc × Bool :=
  let w (off : Nat) : Nat := bitsOf v (8 * off) 32
  (⟨bitsOf v 0 16, bitsOf v 16 16, bitsOf v 32 21, bitsOf v 64 21, bitsOf v 96 16, bitsOf v 128 16, bitsOf v 144 16,
    bitsOf v 160 4, bitsOf v 164 4, bitsOf v 168 4, bitsOf v 172 4, bitsOf v 176 8, bitsOf v 184 8, bitsOf v 192 8,
    bitsOf v 200 8⟩,
   decide (w 4 < 2 ^ 21) && decide (w 8 < 2 ^ 21) && decide (w 0xC < 2 ^ 16) && decide (w 0x18 < 2 ^ 16) && w 0x1C = 0)

/-- Whether a convolution descriptor is good for an operand (R119, R98). -/
def convOk (f : Family) (d : PassDesc) (c : ConvDesc) (rsvdZero : Bool) : Bool :=
  let dim (x : Nat) : Bool := decide (1 ≤ x) && decide (x ≤ 4096)
  let top := (c.inH - 1) * c.rowPitch + (c.inW - 1) * c.pixPitch
  rsvdZero && dim c.inW && dim c.inH && dim c.outW && decide (c.rowPitch % 16 = 0) && decide (c.pixPitch % 16 = 0)
    && decide (c.ox0 < c.outW) && decide (1 ≤ c.sy) && decide (1 ≤ c.sx) && decide (1 ≤ c.dy) && decide (1 ≤ c.dx)
    && decide (d.aVal + top + elemBytes f 32 ≤ ocSize)
    && decide (d.aVal % 16 = 0) && decide (d.aScl % 2 = 0)
    && (match f with
      | .block => decide (d.aScl + top / 8 + 2 ≤ ocSize)
      | _ => true)

/-- What the array accepts: the descriptor and its convolution descriptor, or none where R102 refuses it. The caller
has checked the descriptor's own place; `rd` reads bytes of the operand cache. -/
def checkPass (rd : Nat → Nat → List Byte) (limit slots : Nat) (desc : Nat) : Option (PassDesc × Option ConvDesc) :=
  let r := readPassDesc (leNat (rd desc 64))
  let d := r.1
  match passFamily d.fmtA d.fmtB with
  | none => none
  | some f =>
    let k := if d.wide then 32 * d.kgroups else 32
    let tspOk := f == .bf16 || (decide (0 < d.tsp.toNat) && decide (d.tsp.toNat < 0x7F800000))
    let last := d.slot * 32 + d.trow + (d.rows - 1)
    let shapeOk := if d.wide then
        decide (d.array = 0) && !d.conv && decide (d.rows ≤ 8) && decide (d.trow = 0) && decide (k ≤ limit)
          && decide (d.slot < slots)
      else decide (d.kgroups = 1) && decide (last ≤ 2047) && decide (d.rows ≤ limit) && decide (last / 32 < slots)
    let bOk := operandOk f d.bVal d.bPitch d.bScl (if d.wide then 512 else 32) k
    if !(r.2 && tspOk && shapeOk && bOk) then none
    else if d.conv then
      if d.convDesc % 32 ≠ 0 ∨ d.convDesc + 32 > ocSize then none else
      let c := readConvDesc (leNat (rd d.convDesc 32))
      if convOk f d c.1 c.2 then some (d, some c.1) else none
    else if operandOk f d.aVal d.aPitch d.aScl d.rows k then some (d, none) else none

/-- Byte offset from the operand base of input row i, or none outside a convolution's input (R97, R120). -/
def rowOffset (d : PassDesc) (c : Option ConvDesc) (i : Nat) : Option Nat :=
  match c with
  | none => some (i * d.aPitch)
  | some c =>
    let p := c.ox0 + i
    let oy := c.oy0 + p / c.outW
    let ox := p % c.outW
    let iy : Int := (oy * c.sy + c.kr * c.dy : Nat) - (c.padT : Int)
    let ix : Int := (ox * c.sx + c.ks * c.dx : Nat) - (c.padL : Int)
    if 0 ≤ iy ∧ iy < c.inH ∧ 0 ≤ ix ∧ ix < c.inW then some (iy.toNat * c.rowPitch + ix.toNat * c.pixPitch) else none

/-- How a pass reads the operand cache: record number (input row i, or 4096 + weight column) and byte offset. -/
abbrev PassRead := Nat → Nat → Byte

/-- Elements of a half: 16 elements of K starting at element `k` of a record that starts at offset `x` (R69, R97). -/
def halfElems (rd : PassRead) (fmt rec base x k : Nat) : List Num :=
  (List.range 16).map (fun e =>
    let j := k + e
    match fmt with
    | 0 | 1 =>
      let b := rd rec (base + x + j / 2)
      decodeElem (fmt == 1) (if j % 2 = 0 then b.extractLsb' 0 4 else b.extractLsb' 4 4)
    | 2 => decodeE4m3 (rd rec (base + x + j))
    | 3 => decodeE5m2 (rd rec (base + x + j))
    | _ => decodeBf16 (rd rec (base + x + 2 * j + 1) ++ rd rec (base + x + 2 * j)))

/-- Scale byte of the block whose first value byte lies at offset x + k / 2 (R97). -/
def halfScale (rd : PassRead) (rec scl x k : Nat) : Byte := rd rec (scl + (x + k / 2) / 8)

/-- A half of an operand record: its elements and, for the block formats, its scale byte; none when a convolution row
lies outside the input (R120). -/
structure Half where
  elems : List Num
  scale : Byte
  outside : Bool
  deriving DecidableEq, Repr

/-- Half h (16 elements from `k`) of input row i. -/
def inputHalf (rd : PassRead) (d : PassDesc) (c : Option ConvDesc) (i k : Nat) : Half :=
  match rowOffset d c i with
  | none => ⟨[], 0, true⟩
  | some x => ⟨halfElems rd d.fmtA i d.aVal x k, if d.fmtA ≤ 1 then halfScale rd i d.aScl x k else 0, false⟩

/-- Half of weight record j. -/
def weightHalf (rd : PassRead) (d : PassDesc) (j k : Nat) : Half :=
  ⟨halfElems rd d.fmtB (4096 + j) d.bVal (j * d.bPitch) k,
   if d.fmtB ≤ 1 then halfScale rd (4096 + j) d.bScl (j * d.bPitch) k else 0, false⟩

/-- The sum of one half, or none when R74 skips it. The tree of a BF16 half adds adjacent K elements at each level, a pairing that
R93 leaves open; a half of FP8 or BF16 outside the input, which has no scale blocks, is skipped whatever the weights (R120): both
are the model's choice (log 73). -/
def halfSum (f : Family) (a b : Half) : Option Num :=
  match f with
  | .block =>
    let sa := if a.outside then .zero else blockScale a.scale
    let sb := blockScale b.scale
    match sa, sb with
    | .nan, _ => some .nan
    | _, .nan => some .nan
    | .used ma ea, .used mb eb =>
      some (Num.mul (Num.mul (Num.sum (List.zipWith Num.mul a.elems b.elems)) (.fin false ma ea)) (.fin false mb eb))
    | _, _ => none
  | .fp8 => if a.outside then none else some (Num.sum (List.zipWith Num.mul a.elems b.elems))
  | .bf16 =>
    if a.outside then none else
    let ps := List.zipWith Num.mul a.elems b.elems
    let first := (List.range 8).map (fun i =>
      toFp32 .rne (Num.add (ps.getD (2 * i) (.fin false 0 0)) (ps.getD (2 * i + 1) (.fin false 0 0))))
    some (decodeFp32 (treeAdd 3 first))

/-- The pair of two halves: one rounding to FP32, or the other half alone; none when both are skipped (R73, R74). -/
def pairSum (m : Rnd) (h0 h1 : Option Num) : Option Word :=
  match h0, h1 with
  | none, none => none
  | some x, none => some (toFp32 m x)
  | none, some y => some (toFp32 m y)
  | some x, some y => some (toFp32 m (Num.add x y))

/-- One accumulate: acc := round(acc + pair * tsp), or round(pair * tsp) on an overwrite (R73, R112). -/
def accumulate (m : Rnd) (overwrite : Bool) (tsp : Num) (acc pair : Word) : Word :=
  let p := Num.mul (decodeFp32 pair) tsp
  toFp32 m (if overwrite then p else Num.add (decodeFp32 acc) p)

/-- Stream of the pair add (R113). -/
def streamPair : Word := 0xFFFF0000
/-- Stream of the accumulate (R113). -/
def streamAcc : Word := 0xFFFF0001

/-- What the rounding of a pass needs: mode, key, step. -/
structure PassNoise where
  stoch : Bool
  key : NoiseWords
  step : Word
  deriving DecidableEq, Repr

/-- One accumulate of a column with its two roundings at element index `e`; a skipped one keeps the value (R74). -/
def columnStep (nz : PassNoise) (f : Family) (d : PassDesc) (overwrite : Bool) (e : Nat) (acc : Word)
    (h0 h1 : Option Num) : Word × FmtCounts :=
  let tsp := if f == .bf16 then Num.fin false 1 0 else decodeFp32 d.tsp
  match pairSum (siteRnd nz.stoch ⟨nz.key, nz.step, streamPair⟩ e) h0 h1 with
  | none => (acc, {})
  | some p =>
    let w := accumulate (siteRnd nz.stoch ⟨nz.key, nz.step, streamAcc⟩ e) overwrite tsp acc p
    (w, countFp32 w)

/-- Zero-block and reserved-scale counts of a list of scale bytes (R96). -/
def scaleCounts (l : List Byte) : FmtCounts :=
  { zeroBlock := (l.filter (· == 0)).length, rsvdScale := (l.filter (fun b => b.getLsbD 7)).length }

/-- A tile row that a pass writes: array, physical slot, tile row, its 32 values. -/
structure RowWrite where
  array : Nat
  slot : Nat
  row : Nat
  vals : List Word
  deriving DecidableEq, Repr

/-- Key of a tile row of the accumulators. -/
def accKey (array slot row : Nat) : Nat := (array * 64 + slot) * 32 + row

/-- Values of a tile row; an invalid row reads as +0 (R112). -/
def accRow (m : SMap (List Word)) (array slot row : Nat) : List Word :=
  (mapFind (accKey array slot row) m).getD (List.replicate 32 0)

/-- Rows and counts of a square pass (R104, R111, R112). -/
def squarePass (rd : PassRead) (nz : PassNoise) (d : PassDesc) (c : Option ConvDesc) (base : Nat)
    (acc : SMap (List Word)) : SMap (List Word) × FmtCounts :=
  match passFamily d.fmtA d.fmtB with
  | none => (acc, {})
  | some f =>
    let ws := (List.range 32).map (fun n => (weightHalf rd d n 0, weightHalf rd d n 16))
    let wc := if f == .block then scaleCounts (ws.flatMap (fun w => [w.1.scale, w.2.scale])) else {}
    (List.range d.rows).foldl (fun (st : SMap (List Word) × FmtCounts) i =>
      let a0 := inputHalf rd d c i 0
      let a1 := inputHalf rd d c i 16
      let ic := if f == .block && !a0.outside then scaleCounts [a0.scale, a1.scale] else {}
      let slot := base + d.slot + (d.trow + i) / 32
      let row := (d.trow + i) % 32
      let old := accRow st.1 d.array slot row
      let cols := ws.zipIdx.map (fun w =>
        columnStep nz f d d.overwrite (d.indexBase + 32 * i + w.2) (old.getD w.2 0)
          (halfSum f a0 w.1.1) (halfSum f a1 w.1.2))
      (mapPut (accKey d.array slot row) (cols.map (·.1)) st.1,
        (cols.map (·.2)).foldl FmtCounts.add (st.2.add ic))) (acc, wc)

/-- One wide column over its K groups (R107). -/
def wideColumn (rd : PassRead) (nz : PassNoise) (f : Family) (d : PassDesc) (m j : Nat) (old : Word) : Word × FmtCounts :=
  (List.range d.kgroups).foldl (fun (st : Word × FmtCounts) g =>
    let r := columnStep nz f d (d.overwrite && decide (g = 0)) (d.indexBase + 4096 * g + 512 * m + j) st.1
      (halfSum f (inputHalf rd d none m (32 * g)) (weightHalf rd d j (32 * g)))
      (halfSum f (inputHalf rd d none m (32 * g + 16)) (weightHalf rd d j (32 * g + 16)))
    (r.1, st.2.add r.2)) (old, {})

/-- Rows and counts of a wide pass (R106, R107, R109). -/
def widePass (rd : PassRead) (nz : PassNoise) (d : PassDesc) (base : Nat) (acc : SMap (List Word)) :
    SMap (List Word) × FmtCounts :=
  match passFamily d.fmtA d.fmtB with
  | none => (acc, {})
  | some f =>
    let blocks := List.range (2 * d.kgroups)
    let wc := if f == .block then
        scaleCounts ((List.range 512).flatMap (fun j => blocks.map (fun b => (weightHalf rd d j (16 * b)).scale)))
      else {}
    let ic := if f == .block then
        scaleCounts ((List.range d.rows).flatMap (fun m => blocks.map (fun b => (inputHalf rd d none m (16 * b)).scale)))
      else {}
    (List.range d.rows).foldl (fun st m =>
      (List.range 16).foldl (fun (st : SMap (List Word) × FmtCounts) aq =>
        let a := aq / 4
        let q := aq % 4
        let row := 8 * q + m
        let old := accRow st.1 a (base + d.slot) row
        let cols := (List.range 32).map (fun n => wideColumn rd nz f d m (128 * a + 32 * q + n) (old.getD n 0))
        (mapPut (accKey a (base + d.slot) row) (cols.map (·.1)) st.1,
          (cols.map (·.2)).foldl FmtCounts.add st.2)) st) (acc, wc.add ic)

/-- Whether an accepted pass writes a tile row of the tile's window. -/
def passWrites (d : PassDesc) (array slot row : Nat) : Bool :=
  if d.wide then decide (slot = d.slot) && decide (row % 8 < d.rows)
  else decide (array = d.array) &&
    (let at_ := 32 * slot + row
     decide (32 * d.slot + d.trow ≤ at_) && decide (at_ < 32 * d.slot + d.trow + d.rows))

/-- Whether a pass occupies an array (R110). -/
def passOn (d : PassDesc) (a : Nat) : Bool := d.wide || decide (d.array = a)

end Sys2Proof.Machine
end

