-- ==== Sys2Proof/Machine/Curve.lean ====
section
/-!
DEFINITION. The curve functions of R168: the exact mathematical value rounded once to FP32. RCP and RSQRT are
exact rational or square-root computations; EXP2 and LOG2 carry more than 90 guard bits (log 8).
-/

namespace Sys2Proof.Machine

/-- Square root bits from bit `k` down: the greatest r with r * r at most n. -/
def isqrtFrom : Nat → Nat → Nat → Nat
  | 0, r, n => if (r + 1) * (r + 1) ≤ n then r + 1 else r
  | k + 1, r, n =>
    let t := r + 2 ^ (k + 1)
    isqrtFrom k (if t * t ≤ n then t else r) n

/-- floor(sqrt n) for n below 2^(2 * (k + 1)). -/
def isqrt (k n : Nat) : Nat := isqrtFrom k 0 n

/-- Round a value known to lie strictly between n and n + 1 units of 2^e. -/
def roundBetween (neg : Bool) (n : Nat) (e : Int) : Word :=
  BitVec.ofNat 32 (roundRatio fmtFp32 .rne neg (2 * n + 1) 1 (e - 1))

/-- Canonical NaN of FP32 (R67). -/
def nan32 : Word := 0x7FC00000
/-- FP32 +infinity. -/
def inf32 : Word := 0x7F800000
/-- FP32 -infinity. -/
def negInf32 : Word := 0xFF800000
/-- FP32 one. -/
def one32 : Word := 0x3F800000

/-- RCP: 1/x (R168). -/
def curveRcp (w : Word) : Word :=
  match decodeFp32 w with
  | .nan => nan32
  | .inf neg => if neg then 0x80000000 else 0
  | .fin neg m e =>
    if m = 0 then (if neg then negInf32 else inf32)
    else BitVec.ofNat 32 (roundRatio fmtFp32 .rne neg 1 m (-e))

/-- RSQRT: 1/sqrt(x) (R168). -/
def curveRsqrt (w : Word) : Word :=
  match decodeFp32 w with
  | .nan => nan32
  | .inf neg => if neg then nan32 else 0
  | .fin neg m e =>
    if m = 0 then (if neg then negInf32 else inf32)
    else if neg then nan32
    else
      let odd := e % 2 = 1
      let m' := if odd then 2 * m else m
      let h := (if odd then e - 1 else e) / 2
      let s := isqrt 80 (2 ^ 160 / m')
      if s * s * m' = 2 ^ 160 then BitVec.ofNat 32 (roundRatio fmtFp32 .rne false s 1 (-80 - h))
      else roundBetween false s (-80 - h)

/-- Bits of log2 of y / 2^P in [1, 2) by repeated squaring, `n` of them. -/
def log2Bits (p : Nat) : Nat → Nat → Nat → Nat
  | 0, _, acc => acc
  | n + 1, y, acc =>
    let sq := y * y / 2 ^ p
    if sq ≥ 2 ^ (p + 1) then log2Bits p n (sq / 2) (2 * acc + 1) else log2Bits p n sq (2 * acc)

/-- LOG2 (R168). -/
def curveLog2 (w : Word) : Word :=
  match decodeFp32 w with
  | .nan => nan32
  | .inf neg => if neg then nan32 else inf32
  | .fin neg m e =>
    if m = 0 then negInf32
    else if neg then nan32
    else
      let l := m.log2
      let i : Int := (l : Int) + e
      if m = 2 ^ l then
        BitVec.ofNat 32 (roundRatio fmtFp32 .rne (decide (i < 0)) i.natAbs 1 0)
      else
        let f := log2Bits 320 120 (m * 2 ^ (320 - l)) 0
        let n : Int := i * 2 ^ 120 + f
        if n < 0 then roundBetween true (n.natAbs - 1) (-120) else roundBetween false n.natAbs (-120)

/-- The product of 2^(2^-i) over the set bits of a fraction given most significant bit first, in units of 2^-200. -/
def exp2Product : Nat → Nat → Nat → Nat → Nat
  | 0, _, _, acc => acc
  | n + 1, root, frac, acc =>
    let bit := frac / 2 ^ n % 2
    let acc' := if bit = 1 then acc * root / 2 ^ 200 else acc
    exp2Product n (isqrt 201 (root * 2 ^ 200)) frac acc'

/-- EXP2 (R168). -/
def curveExp2 (w : Word) : Word :=
  match decodeFp32 w with
  | .nan => nan32
  | .inf neg => if neg then 0 else inf32
  | .fin neg m e =>
    if m = 0 then one32
    else if (m.log2 : Int) + e < -26 then one32
    else if (m.log2 : Int) + e ≥ 8 then (if neg then 0 else inf32)
    else
      -- |x| in units of 2^-50
      let u := if e ≥ -50 then m * 2 ^ (e + 50).toNat else m / 2 ^ (-50 - e).toNat
      let v : Int := if neg then -(u : Int) else u
      let i := v / 2 ^ 50
      let f := (v % 2 ^ 50).toNat
      if i ≥ 128 then inf32
      else if i < -150 || (i = -150 && f = 0) then 0
      else if f = 0 then BitVec.ofNat 32 (roundRatio fmtFp32 .rne false 1 1 i)
      else roundBetween false (exp2Product 50 (isqrt 201 (2 ^ 401)) f (2 ^ 200)) (i - 200)

/-- VCURVE by FN (R143, R168). -/
def curveFn (fn : Nat) (w : Word) : Word :=
  match fn with
  | 0 => curveExp2 w
  | 1 => curveLog2 w
  | 2 => curveRcp w
  | _ => curveRsqrt w

end Sys2Proof.Machine
end

