-- ==== Sys2Proof/Machine/Vec.lean ====
section
/-!
DEFINITION. Lane arithmetic of the vector engine (R164 to R168), scalar operations (R143) and mask operations, as
functions of register contents. A vector register is its list of 64 lanes, lane 0 first.
-/

namespace Sys2Proof.Machine

/-- Contents of a vector register: 64 lanes (R136). -/
abbrev Vec := List Word

/-- Every lane zero. -/
def vecZero : Vec := List.replicate 64 0

/-- The vector whose lane i is `f i`. -/
def vecOf (f : Nat → Word) : Vec := (List.range 64).map f

/-- Lane i. -/
def lane (v : Vec) (i : Nat) : Word := v.getD i 0

/-- Bytes of a vector register, lane i at 4i to 4i + 3 (R136). -/
def vecBytes (v : Vec) : List Byte := (vecOf (lane v)).flatMap (fun w => leBytes 4 w.toNat)

/-- A vector register from 256 bytes. -/
def vecOfBytes (b : List Byte) : Vec := (pieces 4 64 b).map (fun x => BitVec.ofNat 32 (leNat x))

/-- What a lane becomes under MK and MZ (R163). -/
def maskLane (mk : Dword) (mz : Bool) (old new : Word) (i : Nat) : Word :=
  if mk.getLsbD i then new else if mz then 0 else old

/-- A vector written under MK and MZ (R163). -/
def maskVec (mk : Dword) (mz : Bool) (old : Vec) (f : Nat → Word) : Vec :=
  vecOf (fun i => maskLane mk mz (lane old i) (f i) i)

/-- Whether a word is an FP32 NaN. -/
def isNan32 (w : Word) : Bool := decide (0x7F800000 < magBits w)

/-- FMIN and FMAX with the sign rules of R164. -/
def minMaxFp32 (isMax : Bool) (a b : Word) : Word :=
  if isNan32 a || isNan32 b then nan32 else
  let o := Num.order (decodeFp32 a) (decodeFp32 b)
  if o = 0 then (if isMax then a &&& b else a ||| b)
  else if (o > 0) = isMax then a else b

/-- FABS and FNEG: only the sign bit of a non-NaN value changes (R164). -/
def signFp32 (negate : Bool) (a : Word) : Word :=
  if isNan32 a then nan32 else if negate then a ^^^ 0x80000000 else a &&& 0x7FFFFFFF

/-- A lane of VOP by FN; FN 32 to 34 are handled by `vopLane`. -/
def vopArith (fn : Nat) (a b c : Word) : Word :=
  match fn with
  | 0 => addFp32 .rne a b
  | 1 => toFp32 .rne (Num.add (decodeFp32 a) (decodeFp32 b).negate)
  | 2 => mulFp32 .rne a b
  | 3 => fmaFp32 .rne a b c
  | 4 => minMaxFp32 false a b
  | 5 => minMaxFp32 true a b
  | 6 => signFp32 false a
  | 7 => signFp32 true a
  | 16 => a + b
  | 17 => a - b
  | 18 => a * b
  | 19 => a &&& b
  | 20 => a ||| b
  | 21 => a ^^^ b
  | 22 => a <<< (b.toNat % 32)
  | 23 => a >>> (b.toNat % 32)
  | 24 => a.sshiftRight (b.toNat % 32)
  | 25 => if a.slt b then a else b
  | 26 => if a.slt b then b else a
  | 27 => if a.ult b then a else b
  | _ => if a.ult b then b else a

/-- Lane `i` of VOP by FN (R143). -/
def vopLane (fn : Nat) (a b c : Vec) (i : Nat) : Word :=
  match fn with
  | 32 => lane a i
  | 33 => BitVec.ofNat 32 i
  | 34 => lane a ((lane b i).toNat % 64)
  | _ => vopArith fn (lane a i) (lane b i) (lane c i)

/-- Whether a VOP code gives an FP32 result that is counted when not finite (R143). -/
def vopIsFp (fn : Nat) : Bool := decide (fn < 8)

/-- A lane of VCMP by FN (R143). -/
def vcmpLane (fn : Nat) (a b : Word) : Bool :=
  let un := isNan32 a || isNan32 b
  let o := Num.order (decodeFp32 a) (decodeFp32 b)
  match fn with
  | 0 => !un && decide (o = 0)
  | 1 => !un && decide (o < 0)
  | 2 => !un && decide (o ≤ 0)
  | 3 => un
  | 4 => a == b
  | 5 => a.slt b
  | _ => a.ult b

/-- A 64-bit mask from its bits. -/
def maskOf (f : Nat → Bool) : Dword :=
  BitVec.ofNat 64 ((List.range 64).foldl (fun a i => if f i then a + 2 ^ i else a) 0)

/-- One level of the reduction tree: combine neighbours (R166). -/
def pairUp {α : Type} (f : α → α → α) : List α → List α
  | a :: b :: r => f a b :: pairUp f r
  | l => l

/-- The six levels of the reduction tree (R166). -/
def treeSix {α : Type} (f : α → α → α) (l : List α) : List α :=
  pairUp f (pairUp f (pairUp f (pairUp f (pairUp f (pairUp f l)))))

/-- A lane's entry to the tree: the identity where the mask is clear; a NaN is canonical (R166). -/
def redLane (mk : Dword) (ident : Word) (a : Vec) (i : Nat) : Word :=
  if mk.getLsbD i then (if isNan32 (lane a i) then nan32 else lane a i) else ident

/-- FP32 VRED result by FN 0 to 2 (R166). -/
def vredFp (fn : Nat) (mk : Dword) (a : Vec) : Word :=
  match fn with
  | 0 => (treeSix (addFp32 .rne) ((List.range 64).map (redLane mk 0 a))).headD 0
  | 1 => (treeSix (minMaxFp32 true) ((List.range 64).map (redLane mk negInf32 a))).headD 0
  | _ => (treeSix (minMaxFp32 false) ((List.range 64).map (redLane mk inf32 a))).headD 0

/-- The selected lanes, in order. -/
def selLanes (mk : Dword) (a : Vec) : List Word :=
  ((List.range 64).filter (fun i => mk.getLsbD i)).map (lane a)

/-- VRED by FN: the 64-bit scalar result and its counts (R143, R166). -/
def vred (fn : Nat) (mk : Dword) (a : Vec) : Dword × FmtCounts :=
  match fn with
  | 3 => (BitVec.ofInt 64 ((selLanes mk a).foldl (fun s w => s + w.toInt) 0), {})
  | 4 => (BitVec.ofInt 64 ((selLanes mk a).foldl (fun s w => max s w.toInt) (-2147483648)), {})
  | _ => let w := vredFp fn mk a; (w.zeroExtend 64, countFp32 w)

/-- SOP by FN (R143). -/
def sopFn (fn : Nat) (a b : Dword) : Dword :=
  match fn with
  | 0 => a + b
  | 1 => a - b
  | 2 => a * b
  | 3 => BitVec.ofNat 64 (a.toNat * b.toNat / 2 ^ 64)
  | 4 => a &&& b
  | 5 => a ||| b
  | 6 => a ^^^ b
  | 7 => a <<< (b.toNat % 64)
  | 8 => a >>> (b.toNat % 64)
  | 9 => a.sshiftRight (b.toNat % 64)
  | 10 => if a.slt b then a else b
  | 11 => if a.slt b then b else a
  | 12 => if a.ult b then a else b
  | 13 => if a.ult b then b else a
  | 14 => if a.slt b then 1 else 0
  | 15 => if a.ult b then 1 else 0
  | 16 => if b = 0 then BitVec.allOnes 64 else BitVec.ofNat 64 (a.toNat / b.toNat)
  | _ => if b = 0 then a else BitVec.ofNat 64 (a.toNat % b.toNat)

/-- The compare of BR by FN (R143). -/
def brFn (fn : Nat) (a b : Dword) : Bool :=
  match fn with
  | 0 => a == b
  | 1 => a != b
  | 2 => a.slt b
  | 3 => !(a.slt b)
  | 4 => a.ult b
  | _ => !(a.ult b)

/-- The mask result of MOP by FN 0 to 4 (R143). -/
def mopFn (fn : Nat) (a b : Dword) : Dword :=
  match fn with
  | 0 => a &&& b
  | 1 => a ||| b
  | 2 => a ^^^ b
  | 3 => a &&& ~~~b
  | _ => ~~~a

/-- Number of bits set. -/
def popCount (w : Dword) : Nat := ((List.range 64).filter (fun i => w.getLsbD i)).length

/-- VCVT to BF16: 128 values packed two to a lane, with per-value rounding (R143, codes 0 and 128). -/
def vcvtBf16 (rnd : Nat → Rnd) (a b : Vec) : Vec × FmtCounts :=
  let src (j : Nat) : Word := if j < 64 then lane a j else lane b (j - 64)
  let out (j : Nat) : BitVec 16 := toBf16 (rnd j) (src j)
  let hs := (List.range 128).map out
  (vecOf (fun i => hs.getD (2 * i + 1) 0 ++ hs.getD (2 * i) 0),
   hs.foldl (fun c h => c.add (countBf16 h)) {})

/-- VCVT from BF16: packed elements 0 to 63 or 64 to 127 of Va (R143, codes 1 and 2). -/
def vcvtFromBf16 (upper : Bool) (a : Vec) : Vec :=
  vecOf (fun i =>
    let j := if upper then 64 + i else i
    let w := lane a (j / 2)
    let h : BitVec 16 := if j % 2 = 0 then w.extractLsb' 0 16 else w.extractLsb' 16 16
    toFp32 .rne (decodeBf16 h))

/-- VCVT to FP8: lane i to byte i, lanes 16 to 63 zero (R143, codes 3, 4, 131, 132). -/
def vcvtFp8 (f : Fmt) (rnd : Nat → Rnd) (a : Vec) : Vec × FmtCounts :=
  let rs := (List.range 64).map (fun i => toFp8 f (rnd i) one32 (lane a i))
  (vecOf (fun i => if i < 16 then BitVec.ofNat 32 (leNat ((rs.map (·.1)).drop (4 * i) |>.take 4)) else 0),
   (rs.map (·.2)).foldl FmtCounts.add {})

/-- VCVT from FP8: bytes 0 to 63 of Va (R143, codes 5 and 6). -/
def vcvtFromFp8 (e5m2 : Bool) (a : Vec) : Vec :=
  vecOf (fun i => toFp32 .rne (fromFp8 e5m2 one32 ((lane a (i / 4)).extractLsb' (8 * (i % 4)) 8)))

/-- VCVT by FN with its rounding sites; `site` and `base` are the stream and the element-index base of codes 128,
131 and 132 (R143). -/
def vcvt (fn : Nat) (site : NoiseSite) (base : Nat) (a b : Vec) : Vec × FmtCounts :=
  let st (i : Nat) : Rnd := .sr (noiseDraw site (base + i))
  match fn with
  | 0 => vcvtBf16 (fun _ => .rne) a b
  | 1 => let v := vcvtFromBf16 false a; (v, countFp32s v)
  | 2 => let v := vcvtFromBf16 true a; (v, countFp32s v)
  | 3 => vcvtFp8 fmtE4m3 (fun _ => .rne) a
  | 4 => vcvtFp8 fmtE5m2 (fun _ => .rne) a
  | 5 => let v := vcvtFromFp8 false a; (v, countFp32s v)
  | 6 => let v := vcvtFromFp8 true a; (v, countFp32s v)
  | 128 => vcvtBf16 st a b
  | 131 => vcvtFp8 fmtE4m3 st a
  | _ => vcvtFp8 fmtE5m2 st a

end Sys2Proof.Machine
end

