-- ==== Sys2Proof/Machine/CoreOps.lean ====
section
/-!
DEFINITION. Shared operations of a core (04_arrays.md, 05_core_isa.md, 06_vector_gather.md): register files, operand
cache, the sequencer's step from one instruction to the next (R146), ends of a tile (R124, R152, R154, R531), starts and
resumes (R133, R134, R156), asynchronous operations (R149, R176, R180) and passes (R103, R105, R110, R123).
-/

namespace Sys2Proof.Machine

/-! ### Cause codes (R155) -/

/-- ILLEGAL (R155). -/
def causeIllegal : Nat := 0x01
/-- CODE_RANGE (R155). -/
def causeCodeRange : Nat := 0x02
/-- CODE_LOAD (R155). -/
def causeCodeLoad : Nat := 0x03
/-- OC_RANGE (R155). -/
def causeOcRange : Nat := 0x04
/-- ACC_RANGE (R155). -/
def causeAccRange : Nat := 0x05
/-- MEM_ERR (R155). -/
def causeMemErr : Nat := 0x06
/-- REG_ERR (R155). -/
def causeRegErr : Nat := 0x07
/-- PASS_BAD (R155). -/
def causePassBad : Nat := 0x08
/-- QDESC_BAD (R155). -/
def causeQdescBad : Nat := 0x09
/-- ATOM_REPLAYABLE (R155). -/
def causeAtomReplayable : Nat := 0x0A
/-- STAGE_FULL (R155). -/
def causeStageFull : Nat := 0x0B
/-- STACK (R155). -/
def causeStack : Nat := 0x0C
/-- TIME_LIMIT (R155). -/
def causeTimeLimit : Nat := 0x0D
/-- ABORT (R155). -/
def causeAbort : Nat := 0x0E

/-! ### Register files (R136) -/

/-- Whether a flipped bit lies in a scalar register. -/
def inScalar (r : Nat) : SoftError → Bool
  | .scalar x => decide (x.val = r)
  | _ => false
/-- Whether a flipped bit lies in a vector register. -/
def inVector (r : Nat) : SoftError → Bool
  | .vector x _ => decide (x.val = r)
  | _ => false
/-- Read a scalar register; S0 reads zero. -/
def getS (x : Ctx) (r : Nat) : Dword := if r = 0 then 0 else mapGet (fun _ => (0 : Dword)) r x.s
/-- Write a scalar register: no flipped bit stays in it; a write of S0 is discarded. -/
def putS (x : Ctx) (r : Nat) (v : Dword) : Ctx :=
  if r = 0 then x
  else { x with s := mapSet (fun _ => (0 : Dword)) r v x.s, soft := x.soft.filter (fun e => !(inScalar r e)) }
/-- Read a vector register. -/
def getV (x : Ctx) (r : Nat) : Vec := mapGet (fun _ => vecZero) r x.v
/-- Write a vector register: no flipped bit stays in it. -/
def putV (x : Ctx) (r : Nat) (v : Vec) : Ctx :=
  { x with v := mapSet (fun _ => vecZero) r v x.v, soft := x.soft.filter (fun e => !(inVector r e)) }
/-- Read a mask register; M0 reads all ones. -/
def getM (x : Ctx) (r : Nat) : Dword := if r = 0 then BitVec.allOnes 64 else mapGet (fun _ => (0 : Dword)) r x.m
/-- Write a mask register; a write of M0 is discarded. -/
def putM (x : Ctx) (r : Nat) (v : Dword) : Ctx :=
  if r = 0 then x else { x with m := mapSet (fun _ => (0 : Dword)) r v x.m }

/-! ### Operand cache (R33, R99, R139, R174) -/

/-- Whether an access lies in the operand cache. -/
def inOc (a len : Nat) : Bool := decide (a + len ≤ ocSize)
/-- A byte of the operand cache; bytes never written read zero (log 7). -/
def ocByte (c : Core) (a : Nat) : Byte := mapGet (fun _ => (0 : Byte)) a c.oc
/-- Bytes of the operand cache. -/
def ocRead (c : Core) (a len : Nat) : List Byte := (List.range len).map (fun i => ocByte c (a + i))
/-- A little-endian number from the operand cache. -/
def ocNat (c : Core) (a len : Nat) : Nat := leNat (ocRead c a len)

/-- Store bytes without noting them. -/
def ocStore (m : SMap Byte) (a : Nat) : List Byte → SMap Byte
  | [] => m
  | b :: r => ocStore (mapSet (fun _ => (0 : Byte)) a b m) (a + 1) r

/-- Note in an accepted pass the old content of the 16-byte units that a write touches (R99). -/
def noteDirty (c : Core) (a len : Nat) (p : Pass) : Pass :=
  if p.st == .withdrawn then p else
  { p with dirty := (List.range ((a + len + 15) / 16 - a / 16)).foldl (fun m i =>
      let u := a / 16 + i
      if mapHas u m then m else mapPut u (ocRead c (16 * u) 16) m) p.dirty }

/-- Whether a flipped bit lies in an operand-cache word that a range of bytes touches. -/
def inCache (a len : Nat) : SoftError → Bool
  | .cache w => decide (8 * w.val < a + len) && decide (a < 8 * w.val + 8)
  | _ => false

/-- Whether a flipped bit lies in an operand-cache word that a range of bytes covers. -/
def underCache (a len : Nat) : SoftError → Bool
  | .cache w => decide (a ≤ 8 * w.val) && decide (8 * w.val + 8 ≤ a + len)
  | _ => false

/-- Write bytes of the operand cache: no flipped bit stays in a word that the write covers (log 75). -/
def ocWrite (c : Core) (a : Nat) (bytes : List Byte) : Core :=
  if bytes.isEmpty then c else
  { c with passes := c.passes.map (noteDirty c a bytes.length), oc := ocStore c.oc a bytes,
           soft := c.soft.filter (fun e => !(underCache a bytes.length e)) }

/-- Whether a pre-empting tile may write a range (R174, R182). -/
def guardOk (s : State) (g : Nat) (c : Core) (a len : Nat) : Bool :=
  let p := pgCore g
  let lo := fld s p fCoreBaseB * 16384
  c.shadow.isNone || !(flag s p fCoreEn) || (decide (lo ≤ a) && decide (a + len ≤ lo + fld s p fCoreSize * 16384))

/-! ### Events and reports -/

/-- Set a bit of ARR_EVENT and with it the ARRAY event (R129). -/
def arrEvent (s : State) (g : Nat) (f : FieldDef) : State := raise (setFlag s (pgCore g) f true) (pgCore g) evCoreArray

/-- Put a report in line at a core's dispatcher. -/
def addReport (s : State) (g : Nat) (k : EndKind) (entry : Nat) : State :=
  let d := coreDie g
  let x := dispOf s d
  setDisp s d { x with reports := x.reports ++ [⟨k, g, entry⟩] }

/-- Queue a row of an operand cache or accumulator for a spare, once; a full queue drops it (R448, R454). -/
def addRowCandidate (s : State) (r : RowReq) : State :=
  if s.health.rowQ.any (fun x => x.core == r.core && x.oc == r.oc && x.part == r.part && x.row == r.row) then
    { s with health := { s.health with rowQ := s.health.rowQ.map (fun x =>
        if x.core == r.core && x.oc == r.oc && x.part == r.part && x.row == r.row then { x with zero := x.zero || r.zero } else x) } }
  else if (s.health.rowQ.filter (fun x => x.oc == r.oc)).length ≥ 64 then
    dropSpare s (if r.oc then 2 else 3) r.core
  else { s with health := { s.health with rowQ := s.health.rowQ ++ [r] } }

/-- Key of a row of a core's SRAM. -/
def rowKey (r : RowReq) : Nat := ((r.core * 2 + (if r.oc then 1 else 0)) * 64 + r.part) * 4096 + r.row

/-- 24 hours in ticks. -/
def dayTicks : Nat := 86400000000000

/-- Count a correction in an SRAM row; two within 24 h make it a candidate (R454). -/
def noteRowCe (s : State) (r : RowReq) : State :=
  let k := rowKey r
  let old := (mapGet (fun _ => ([] : List Nat)) k s.health.rowCe).filter (fun t => decide (now s < t + dayTicks))
  let s1 := { s with health := { s.health with rowCe := mapSet (fun _ => ([] : List Nat)) k (old ++ [now s]) s.health.rowCe } }
  if old.isEmpty then s1 else addRowCandidate s1 r

/-- The row of an operand-cache offset: bank and bank row (R170). -/
def ocRow (g off : Nat) (zero : Bool) : RowReq := ⟨g, true, off / 16 % 48, off / 16 / 48, zero⟩
/-- The row of an accumulator tile row. -/
def accRowReq (g array slot row : Nat) (zero : Bool) : RowReq := ⟨g, false, array, 32 * slot + row, zero⟩

/-- A corrected operand-cache word (R173, R457). -/
def ocCe (s : State) (g off : Nat) : State :=
  noteRowCe (noteInput (bump s (pgCore g) fCoreOcCeCount) 3 1) (ocRow g off false)
/-- A corrected accumulator value (R117, R457). -/
def accCe (s : State) (g array slot row : Nat) : State :=
  noteRowCe (arrEvent (noteInput (bump s (pgCore g) fCoreAccCeCount) 3 1) g fCoreAccCe) (accRowReq g array slot row false)
/-- A corrected error of a sequencer file (R137, R457). -/
def regCe (s : State) (g : Nat) : State :=
  raise (noteInput (bump s (pgCore g) fCoreRegCeCount) 3 1) (pgCore g) evCoreRegCe

/-! ### Single-bit errors (R117, R137, R173)

A bit flips in a core's files or SRAM at a time of its own and is met when the value is next read (log 75). -/

/-- Count one correction. -/
def countSoft (s : State) (g : Nat) : SoftError → State
  | .cache w => ocCe s g (8 * w.val)
  | .acc a slot row _ => accCe s g a slot row
  | .code _ | .scalar _ | .vector _ _ => regCe s g

/-- A read of the instruction buffer, operand cache or accumulators meets the flipped bits that `p` names: each is corrected,
written back and counted. -/
def meet (s : State) (g : Nat) (p : SoftError → Bool) : State :=
  let c := coreOf s g
  if c.soft.any p then
    (c.soft.filter p).foldl (fun s e => countSoft s g e) (setCore s g { c with soft := c.soft.filter (fun e => !(p e)) })
  else s

/-- A read of operand-cache bytes. -/
def meetOc (s : State) (g a len : Nat) : State := meet s g (inCache a len)

/-- Whether a flipped bit lies in a tile row of the accumulators. -/
def inAccRow (array slot row : Nat) : SoftError → Bool
  | .acc a x r _ => decide (a.val = array) && decide (x.val = slot) && decide (r.val = row)
  | _ => false

/-- A core whose accumulator rows that `p` names hold no flipped bit, as after a write of them. -/
def accClean (c : Core) (p : SoftError → Bool) : Core := { c with soft := c.soft.filter (fun e => !(p e)) }

/-- Add flipped bits to a list once each. -/
def addFlips (l flips : List SoftError) : List SoftError := flips.foldl (fun l e => if l.contains e then l else l ++ [e]) l

/-- Where a core holds a value that a flipped bit can lie in: a valid accumulator row, an instruction of the image, a word of the
operand cache. -/
def flipLives (c : Core) : SoftError → Bool
  | .acc a slot row _ => mapHas (accKey a slot row) c.acc
  | .code i => match c.image with
    | some im => decide (i.val < im.words.length)
    | none => false
  | .cache _ => true
  | .scalar _ | .vector _ _ => false

/-- Whether a flipped bit lies in the scalar or the vector file. -/
def inFiles : SoftError → Bool
  | .scalar r => decide (r.val ≠ 0)
  | .vector _ _ => true
  | _ => false

/-- Bits of a core have flipped. -/
def plant (s : State) (g : Nat) (flips : List SoftError) : State :=
  if flips.isEmpty then s else
  let c := coreOf s g
  setCore s g { c with
    soft := addFlips c.soft (flips.filter (flipLives c)),
    tile := c.tile.map (fun t => { t with ctx := { t.ctx with soft := addFlips t.ctx.soft (flips.filter inFiles) } }) }

/-! ### Windows, passes and ends of a tile -/

/-- Clear the valid bits of a slot window in all four arrays (R115). -/
def clearWindow (base slots : Nat) (m : SMap (List Word)) : SMap (List Word) :=
  mapKeep (fun k _ => !(decide (base ≤ k / 32 % 64) && decide (k / 32 % 64 < base + slots))) m

/-- A core without its running tile: passes, staging entries, operations and window of that tile are gone (R154). A
task that was to pre-empt it becomes the next task. A pass that is stopped part-way adds nothing to the format counters for the
rows it had fed (R96, log 73). -/
def endRunning (c : Core) : Core :=
  match c.tile with
  | none => c
  | some t =>
    { c with tile := none, passes := c.passes.filter (·.suspended), staging := c.staging.filter (·.suspended),
             asyncs := c.asyncs.filter (·.suspended), acc := clearWindow t.accBase t.task.slots c.acc,
             undo := [], asked := false, given := c.given.or c.preempt, preempt := none }

/-- A core without its suspended tile (R531). A task that had not yet taken its place becomes the next task. -/
def endSuspended (c : Core) : Core :=
  match c.shadow with
  | none => c
  | some t =>
    { c with shadow := none, passes := c.passes.filter (fun p => !p.suspended),
             staging := c.staging.filter (fun e => !e.suspended), asyncs := c.asyncs.filter (fun a => !a.suspended),
             acc := clearWindow t.accBase t.task.slots c.acc,
             given := if c.tile.isNone then c.given.or c.preempt else c.given,
             preempt := if c.tile.isNone then none else c.preempt }

/-- First slot and count of the slots that ACC_INV clears: the running tile's window, else all but a suspended tile's (R123, R131). -/
def invWindow (c : Core) : Nat × Nat :=
  match c.tile, c.shadow with
  | some t, _ => (t.accBase, t.task.slots)
  | none, some t => (t.task.slots, 64 - t.task.slots)
  | none, none => (0, 64)

/-- Clear the valid bits of one array's slots that ACC_INV names (R131). -/
def invSlots (c : Core) (a : Nat) : Core :=
  let w := invWindow c
  { c with acc := mapKeep (fun k _ =>
      !(decide (k / 2048 = a) && decide (w.1 ≤ k / 32 % 64) && decide (k / 32 % 64 < w.1 + w.2))) c.acc }

/-- Address of element j of an indexed operation, or none where R176 makes it a failure. -/
def elemAddr (fab : Bool) (base : Dword) (size j : Nat) : Option Nat :=
  let v := base.toNat + j * size
  let al := min size 64
  if fab then
    if v ≥ 2 ^ 60 ∨ v % al ≠ 0 then none else some v
  else if v + size > bulkEnd ∨ v % al ≠ 0 then none else some v

/-- Index j of an index list in the operand cache (R144). -/
def indexAt (c : Core) (idx : Nat) (idx64 : Bool) (j : Nat) : Nat :=
  if idx64 then ocNat c (idx + 8 * j) 8 else ocNat c (idx + 4 * j) 4

/-- Addresses of the elements of an indexed operation, in index order. -/
def elemAddrs (c : Core) (fab : Bool) (base : Dword) (idx count size : Nat) (idx64 : Bool) : List (Option Nat) :=
  (List.range count).map (fun j => elemAddr fab base size (indexAt c idx idx64 j))

/-- Requests of a GATHER after merging: consecutive elements of one 64-byte unit, at most 16 to a request (R177). -/
def gatherRequests (size : Nat) (addrs : List Nat) : Nat :=
  if size > 64 then addrs.length * (size / 64)
  else (addrs.foldl (fun (a : Nat × Option Nat × Nat) x =>
    if a.2.1 = some (x / 64) ∧ a.2.2 < 16 then (a.1, a.2.1, a.2.2 + 1) else (a.1 + 1, some (x / 64), 1)) (0, none, 0)).1

/-- Whether a list holds no element twice. -/
def allDistinct : List Nat → Bool
  | [] => true
  | a :: r => !(r.contains a) && allDistinct r

/-- Insert by a key. -/
def insertByKey (key : Nat → Nat) (x : Nat) : List Nat → List Nat
  | [] => [x]
  | y :: r => if key x ≤ key y then x :: y :: r else y :: insertByKey key x r

/-- Positions 0 to n - 1 in an order that the manual leaves open: sorted by free keys. -/
def freeOrder (seed n : Nat) : List Nat :=
  (List.range n).foldl (fun l i => insertByKey (fun j => (Config.freeWord (seed + j)).toNat) i l) []

/-- Whether some element is at risk of order: repeated addresses. -/
def updateOrder (s : State) (addrs : List Nat) : List Nat × State :=
  if allDistinct addrs then (List.range addrs.length, s)
  else
    let f := takeFree s addrs.length
    (freeOrder f.1 addrs.length, f.2)

/-- Bytes that a draining operation returned, each aligned unit of `n` bytes written or not by a free choice (R154). -/
def mixUnits (seed n : Nat) (c : Core) (dst : Nat) (data : List Byte) : Core :=
  (List.range ((data.length + n - 1) / n)).foldl (fun c i =>
    if Config.freeBool (seed + i) then ocWrite c (dst + n * i) ((data.drop (n * i)).take n) else c) c

/-- Requests of an element of a GATHER or SCATTER: one, or one per 64-byte unit (R177). -/
def elemRequests (size : Nat) : Nat := max 1 (size / 64)

/-- An element of a draining GATHER was processed, and made up to `n` requests, or not, by free choice (R154, R177, R183). -/
def countDrained (s : State) (g seed n : Nat) : State :=
  if Config.freeBool (seed + 2 ^ 41) then
    bumpBy (bump s (pgCore g) fCoreGatherElemCount) (pgCore g) fCoreGatherReqCount
      ((Config.freeWord (seed + 2 ^ 42)).toNat % (n + 1))
  else s

/-- Bytes of an operation's data that have arrived from another module, from a FAB address on. -/
def gotBytes (got : SMap Byte) (v len : Nat) : List Byte := (List.range len).map (fun k => mapGet (fun _ => (0 : Byte)) (v + k) got)

/-- Units of `n` bytes of a draining operation that have arrived, each written or not by a free choice. Data that arrive after
the tile has failed are never written: R154 lets them be written or not (log 74). -/
def mixArrived (seed n : Nat) (got : SMap Byte) (v len : Nat) (c : Core) (dst : Nat) : Core :=
  (List.range ((len + n - 1) / n)).foldl (fun c i =>
    if mapHas (v + n * i) got && Config.freeBool (seed + i) then ocWrite c (dst + n * i) (gotBytes got (v + n * i) (min n (len - n * i)))
    else c) c

/-- Drain one operation of a tile that has failed: what it issued completes and is discarded; data may or may not be
written, ATOM elements may or may not take effect (R154 step 2). -/
def drainOp (s : State) (g : Nat) (a : AsyncOp) : State :=
  let c := coreOf s g
  match a.kind with
  | .dmaBm dst src len =>
    (List.range ((len + 63) / 64)).foldl (fun s i =>
      let n := min 64 (len - 64 * i)
      let r := memRead s (src + 64 * i) n
      match r.2 with
      | none => r.1
      | some b => let f := takeFree r.1 1; setCore f.2 g (mixUnits f.1 64 (coreOf f.2 g) (dst + 64 * i) b)) s
  | .dmaOc dst src len =>
    let f := takeFree s len
    setCore f.2 g (mixUnits f.1 16 c dst (ocRead c src len))
  | .dmaFab dst src len =>
    let f := takeFree s len
    setCore f.2 g (mixArrived f.1 16 a.got src len c dst)
  | .gather fab dst base idx count esize idx64 =>
    (List.range count).foldl (fun s j =>
      let f0 := takeFree s 9
      let f := (f0.1, countDrained f0.2 g f0.1 (elemRequests esize))
      match elemAddr fab base esize (indexAt c idx idx64 j) with
      | none => f0.2
      | some v =>
        if fab && decide (v / 2 ^ 44 ≠ (moduleId s).toNat) then
          setCore f.2 g (mixArrived f.1 (min 64 esize) a.got v esize (coreOf f.2 g) (dst + esize * j))
        else
          let r := memRead f.2 (v % 2 ^ 44) esize
          match r.2 with
          | none => r.1
          | some b => setCore r.1 g (mixUnits f.1 (min 64 esize) (coreOf r.1 g) (dst + esize * j) b)) s
  | .atom fn vals base idx count idx64 =>
    (List.range count).foldl (fun s j =>
      let f := takeFree s 1
      match elemAddr false base (adderSize fn) (indexAt c idx idx64 j) with
      | none => f.2
      | some v =>
        if Config.freeBool f.1 then
          bump (bump (adderUpdate f.2 fn v (ocNat c (vals + adderSize fn * j) (adderSize fn))).1 (pgCore g) fCoreGatherElemCount)
            (pgCore g) fCoreGatherReqCount
        else f.2) s

/-- Operand-cache bytes that an asynchronous operation reads: copied bytes, index lists, values (R142, R144, R177). -/
def opSources : AsyncKind → List (Nat × Nat)
  | .dmaBm _ _ _ | .dmaFab _ _ _ => []
  | .dmaOc _ src len => [(src, len)]
  | .gather _ _ _ idx count _ idx64 => [(idx, count * if idx64 then 8 else 4)]
  | .atom fn vals _ idx count idx64 => [(idx, count * if idx64 then 8 else 4), (vals, count * adderSize fn)]

/-- An asynchronous operation reads its operand-cache bytes. -/
def opReads (s : State) (g : Nat) (k : AsyncKind) : State := (opSources k).foldl (fun s r => meetOc s g r.1 r.2) s

/-- Drain the operations of the running or the suspended tile. -/
def drainOps (s : State) (g : Nat) (susp : Bool) : State :=
  ((coreOf s g).asyncs.filter (fun a => a.suspended == susp)).foldl (fun s a => drainOp (opReads s g a.kind) g a) s

/-- Writes that a COMMIT left outstanding when its tile ended early: their results are discarded (R153, R154). -/
def disownCommits (s : State) (g : Nat) : State :=
  let f (m : Msg) : Msg := if m.owner == .commit g then { m with owner := .control } else m
  setNet s { s.net with out := s.net.out.map f, waitq := s.net.waitq.map f }

/-- Write CAUSE, FAIL_PC, FAIL_INFO and count the failure (R154 step 5, R161). -/
def recordFail (s : State) (g cause pc addr code : Nat) (ref : Word) : State :=
  let p := pgCore g
  let s := setFld (setFld s p fCoreCause cause) p fCoreFailPc pc
  let s := setWide s p wFailInfo (wideOf [addr, addr / 2 ^ 32, ref.toNat, code % 2 ^ 16 + cause * 2 ^ 16])
  raise (bump s p fCoreFailCount) p evCoreTaskFailed

/-- Bus-error completion of the running tile (R154). -/
def tileFail (s : State) (g cause pc addr code : Nat) : State :=
  match (coreOf s g).tile with
  | none => s
  | some t =>
    let s := disownCommits (drainOps s g false) g
    let s := setCore s g (endRunning (coreOf s g))
    let s := recordFail s g cause pc addr code t.task.ref
    addReport s g (.failed cause) t.entryId

/-- Bus-error completion of the suspended tile (R531). -/
def suspendedFail (s : State) (g cause pc addr : Nat) : State :=
  match (coreOf s g).shadow with
  | none => s
  | some t =>
    let s := drainOps s g true
    let s := setCore s g (endSuspended (coreOf s g))
    let s := recordFail s g cause pc addr 0 t.task.ref
    addReport s g (.failed cause) t.entryId

/-- Restore, by free choice, the old bytes of each aligned 64-byte unit that an interrupted COMMIT wrote (R153). -/
def mixCommit (s : State) (undo : List (Nat × Byte)) : State :=
  let f := takeFree s 1
  undo.foldr (fun e s =>
    if Config.freeBool (f.1 + 2 ^ 40 * (e.1 / 64)) then (memWrite s e.1 [e.2]).1 else s) f.2

/-- Abandon the running tile (R124, R153). -/
def abandonRunning (s : State) (g : Nat) : State :=
  match (coreOf s g).tile with
  | none => s
  | some t =>
    let undo := (coreOf s g).undo
    let s := disownCommits (drainOps s g false) g
    let s := if undo.isEmpty then s else mixCommit s undo
    let s := setCore s g { endRunning (coreOf s g) with abandonedAt := some (now s) }
    let s := arrEvent (bump s (pgCore g) fCoreAbandonCount) g fCoreTileAbandoned
    addReport s g .abandoned t.entryId

/-- Abandon the suspended tile. -/
def abandonSuspended (s : State) (g : Nat) : State :=
  match (coreOf s g).shadow with
  | none => s
  | some t =>
    let s := drainOps s g true
    let s := setCore s g (endSuspended (coreOf s g))
    let s := arrEvent (bump s (pgCore g) fCoreAbandonCount) g fCoreTileAbandoned
    addReport s g .abandoned t.entryId

/-- Abandon both tiles; a task given to the core and not yet started goes back like an abandoned one (R124, R452). -/
def abandonAll (s : State) (g : Nat) : State :=
  let s := abandonSuspended (abandonRunning s g) g
  match (coreOf s g).given with
  | none => s
  | some p => addReport (setCore s g { coreOf s g with given := none }) g .abandoned p.2

/-! ### From one instruction to the next -/

/-- Replace the running tile. -/
def setTile (s : State) (g : Nat) (t : Tile) : State := setCore s g { coreOf s g with tile := some t }

/-- Keep the outermost loop entries whose bodies hold the target (R146: the list is innermost first). -/
def keepLoops (target : Nat) (l : List LoopEntry) : List LoopEntry :=
  l.foldr (fun e acc => if acc.2 && decide (e.first ≤ target) && decide (target ≤ e.last) then (e :: acc.1, true)
    else (acc.1, false)) (([] : List LoopEntry), true) |>.1

/-- Go on after the instruction at `pc`: at the end of a loop body its next iteration starts, or the loop ends (R146). -/
def stepLoops : List LoopEntry → Ctx → Nat → Ctx
  | [], x, pc => { x with loops := [], pc := pc + 1 }
  | e :: r, x, pc =>
    if e.last = pc then
      if e.index + 1 < e.count then
        { putS x e.d (BitVec.ofNat 64 (e.index + 1)) with loops := { e with index := e.index + 1 } :: r, pc := e.first }
      else stepLoops r x pc
    else { x with loops := e :: r, pc := pc + 1 }

/-- Registers and PC after the instruction at `x.pc` falls through. -/
def advance (x : Ctx) : Ctx := stepLoops x.loops x x.pc
/-- Registers and PC after a branch. -/
def jumpTo (x : Ctx) (target : Nat) : Ctx := { x with pc := target, loops := keepLoops target x.loops }

/-- Install the next registers; a PC at or beyond the image length ends the tile with CODE_RANGE, charged to the
instruction that led there (R146, R155). -/
def moveOn (s : State) (g : Nat) (t : Tile) (pc : Nat) (x : Ctx) : State :=
  let s := setTile s g { t with ctx := x, wait := .none }
  if x.pc ≥ t.task.len then tileFail s g causeCodeRange pc 0 0 else s

/-- Finish an instruction that falls through with new registers. -/
def finish (s : State) (g : Nat) (t : Tile) (x : Ctx) : State := moveOn s g t t.ctx.pc (advance x)

/-- Hold the sequencer at the instruction. -/
def holdAt (s : State) (g : Nat) (t : Tile) (w : Wait) : State := setTile s g { t with wait := w }

/-- The running tile when its sequencer may issue (R156: not while a pre-emption waits). -/
def issuing (s : State) (g : Nat) : Option Tile :=
  let c := coreOf s g
  match c.tile with
  | none => none
  | some t =>
    if t.phase == .running && t.wait == .none && c.preempt.isNone && c.image.isSome then some t else none

/-- The instruction word at the PC of the resident image. -/
def fetchWord (s : State) (g : Nat) (t : Tile) : Option Dword :=
  match (coreOf s g).image with
  | none => none
  | some im => im.words[t.ctx.pc]?

/-- Fields of a format-A or format-L word as numbers. -/
structure TileFields where
  d : Nat
  a : Nat
  b : Nat
  c : Nat
  mask : Nat
  mz : Bool
  fn : Nat
  imm : Nat
  simm : Int
  deriving DecidableEq, Repr

/-- The fields of a split word. -/
def fieldsOf : TileWord → TileFields
  | .fmtA _ d a b c mk mz fn imm =>
    ⟨d.toNat, a.toNat, b.toNat, c.toNat, mk.toNat, mz == 1, fn.toNat, imm.toNat, imm.toInt⟩
  | .fmtL _ d a fn imm => ⟨d.toNat, a.toNat, 0, 0, 0, false, fn.toNat, imm.toNat, imm.toInt⟩

/-- The scalar registers that an instruction reads (R142). -/
def scalarSources (op : Nat) (f : TileFields) : List Nat :=
  if op ∈ [0x03, 0x11, 0x14, 0x16, 0x30, 0x32, 0x33, 0x44, 0x45, 0x46, 0x61] then [f.a]
  else if op ∈ [0x02, 0x13, 0x17] then [f.a, f.b]
  else if op ∈ [0x20, 0x21, 0x22, 0x4A, 0x50, 0x51, 0x52, 0x60] then [f.a, f.b, f.c]
  else if op = 0x12 then [f.d]
  else if op = 0x15 then [f.a, f.d]
  else if op = 0x47 then [f.b]
  else if op = 0x49 then [f.c, f.c + 1]
  else if op = 0x4B ∧ f.fn = 5 then [f.a]
  else []

/-- The vector registers that an instruction reads; one that keeps lanes of its destination reads it too (R142, R163). -/
def vectorSources (op : Nat) (f : TileFields) : List Nat :=
  (if op = 0x40 then [f.a, f.b, f.c]
    else if op ∈ [0x41, 0x42, 0x49] then [f.a, f.b]
    else if op ∈ [0x43, 0x47, 0x48] then [f.a]
    else if op ∈ [0x33, 0x45] then [f.d]
    else [])
  ++ (if op ∈ [0x40, 0x43, 0x44, 0x46] ∧ f.mask ≠ 0 ∧ !f.mz then [f.d] else [])

/-- Whether a flipped bit lies in a register that an instruction reads. -/
def inSources (op : Nat) (f : TileFields) (e : SoftError) : Bool :=
  (scalarSources op f).any (fun r => inScalar r e) || (vectorSources op f).any (fun r => inVector r e)

/-- The running tile with the flipped bits of its files corrected and counted that `p` names (R137). -/
def meetFiles (s : State) (g : Nat) (t : Tile) (p : SoftError → Bool) : State × Tile :=
  if t.ctx.soft.any p then
    let u := { t with ctx := { t.ctx with soft := t.ctx.soft.filter (fun e => !(p e)) } }
    (setTile ((t.ctx.soft.filter p).foldl (fun s e => countSoft s g e) s) g u, u)
  else (s, t)

/-- An instruction word and the registers that it names are read (R137). -/
def readSources (s : State) (g : Nat) (t : Tile) (i : TileWord) : State × Tile :=
  let s := meet s g (fun e => match e with
    | .code k => decide (k.val = t.ctx.pc)
    | _ => false)
  if i.legal then meetFiles s g t (inSources i.op.toNat (fieldsOf i)) else (s, t)

/-- Issue one instruction of opcode `op`: the fetched word must be of that opcode, else the row has no effect, except
that a word of an opcode that no row has, or one that breaks R140 to R144, ends the tile with ILLEGAL (R141). -/
def issue (s : State) (g op : Nat) (eff : State → Tile → TileWord → State) : State :=
  match issuing s g with
  | none => s
  | some t =>
    match fetchWord s g t with
    | none => tileFail s g causeCodeRange t.ctx.pc 0 0
    | some w =>
      let i := decodeTile w
      if i.op.toNat = op ∨ !(tileOpListed i.op) then
        let r := readSources s g t i
        if i.op.toNat = op ∧ i.legal then eff r.1 r.2 i else tileFail r.1 g causeIllegal t.ctx.pc 0 0
      else s

/-- Register plus immediate in 64 bits (R142). -/
def regImm (x : Ctx) (r : Nat) (imm : Int) : Nat := (getS x r + BitVec.ofInt 64 imm).toNat

/-! ### Waits on operations and passes -/

/-- Whether an operation of the running tile with a tag in the mask is outstanding: those of a suspended tile hold no DWAIT of
the tile that pre-empted it (log 74). -/
def tagBusy (c : Core) (mask : Nat) : Bool := c.asyncs.any (fun a => !a.suspended && mask.testBit a.tag)
/-- Whether an accepted pass of the running tile is on a named array. -/
def passBusy (c : Core) (mask : Nat) : Bool :=
  c.passes.any (fun p => !p.suspended && (p.desc.wide && decide (mask % 16 ≠ 0) || !p.desc.wide && mask.testBit p.desc.array))

/-- Release a DWAIT or PWAIT whose condition now holds (R142). -/
def settleWait (s : State) (g : Nat) : State :=
  let c := coreOf s g
  match c.tile with
  | none => s
  | some t =>
    if c.preempt.isSome then s else
    match t.wait with
    | .tags mask => if tagBusy c mask then s else finish s g t t.ctx
    | .passes mask => if passBusy c mask then s else finish s g t t.ctx
    | _ => s

/-- Whether the condition of a WAITC holds (R143). -/
def waitcMet (equal : Bool) (v target : Dword) : Bool := if equal then v == target else counterReached v target

/-- Read the counter of a WAITC: the wait ends with 0, goes on, or the tile ends with MEM_ERR (R139, R148). -/
def waitcRead (s : State) (g : Nat) (t : Tile) (d addr : Nat) (target : Dword) (equal : Bool) (deadline : Option Nat) : State :=
  let r := memReadNat s addr 8
  match r.2 with
  | none => tileFail r.1 g causeMemErr t.ctx.pc addr 0
  | some v =>
    if waitcMet equal (BitVec.ofNat 64 v) target then finish r.1 g t (putS t.ctx d 0)
    else holdAt r.1 g t (.counter d addr target equal deadline)

/-! ### Tile start and resume -/

/-- RNG_STEP of a core's die (R85). -/
def rngStep (s : State) (g : Nat) : Word := BitVec.ofNat 32 (fld s (pgDie (coreDie g)) fWorkerDieStep)
/-- RNG_KEY of a core's die (R86). -/
def rngKey (s : State) (g : Nat) : BitVec 128 := (wideVal s (pgDie (coreDie g)) wRngKey).extractLsb' 0 128

/-- Whether an image is resident: address, length and tag of the image last loaded, and no flush since (R134). -/
def resident (c : Core) (k : Task) : Bool :=
  match c.image with
  | none => false
  | some im => !c.flush && im.addr == k.img && im.words.length == k.len && im.tag == k.tag

/-- Registers of a starting tile (R133) with the step and the job key that it latches (R85, R86). -/
def startCtx (step : Word) (key : BitVec 128) (k : Task) : Ctx :=
  let x : Ctx := { pc := k.entry, step := step, key := key }
  putS ((k.args.take 4).zipIdx.foldl (fun x a => putS x (a.2 + 1) a.1) x) 5 (step.zeroExtend 64)

/-- With the image resident, steps 2 to 5 of R133: latch, clear the slot window, or all slots where no tile is suspended, initialise the registers, set the PC; an entry
beyond the image ends the tile with CODE_RANGE (R85, R86, R115, R133). -/
def beginRun (s : State) (g : Nat) (t : Tile) : State :=
  let c := coreOf s g
  let t := { t with phase := .running, since := now s, begun := true, ctx := startCtx (rngStep s g) (rngKey s g) t.task }
  let s := setCore s g { c with acc := if t.accBase = 0 then [] else clearWindow t.accBase t.task.slots c.acc, tile := some t }
  if t.ctx.pc ≥ t.task.len then tileFail s g causeCodeRange t.ctx.pc 0 0 else s

/-- Start a tile on a core: its slots follow those of a suspended tile, and its image is loaded unless it is resident
(R115, R133, R134, R160). -/
def startTile (s : State) (g : Nat) (k : Task) (entryId : Nat) : State :=
  let c := coreOf s g
  let base := match c.shadow with
    | none => 0
    | some t => t.task.slots
  let res := resident c k
  let t : Tile := ⟨k, entryId, base, { pc := k.entry }, .loading, .none, now s, false, now s, 0⟩
  let s := setCore s g { c with
    tile := some t, given := none, preempt := none, asked := false, abandonedAt := none,
    image := if res then c.image else none, flush := false }
  if res then beginRun s g t else bump s (pgCore g) fCoreCodeLoadCount

/-- The words of an image from its bytes. -/
def imageWords (n : Nat) (b : List Byte) : List Dword := (pieces 8 n b).map (fun x => BitVec.ofNat 64 (leNat x))

/-- Whether an image's place is legal (R134). -/
def imageOk (k : Task) : Bool :=
  decide (k.img % 64 = 0) && decide (k.img + 8 * k.len ≤ bulkEnd) && decide (1 ≤ k.len) && decide (k.len ≤ 8192)

/-- Whether two passes share an array. -/
def passesMeet (p q : PassDesc) : Bool := p.wide || q.wide || decide (p.array = q.array)

/-- Re-accept the withdrawn passes of the resumed tile in their order: the first of an array runs, the next is queued (R123). -/
def reaccept (c : Core) : Core :=
  { c with passes := c.passes.foldl (fun (acc : List Pass) p =>
      let taken := acc.any (fun q => passesMeet q.desc p.desc)
      acc ++ [{ p with suspended := false, st := if p.st != .withdrawn then p.st else if taken then .queued else .running }]) [] }

/-- Continue a resumed tile: a wait it was held in is re-entered and its condition re-checked (R156). The limit of a WAITC is
the time it was given at issue, so that time under suspension counts (R148, log 74). -/
def continueTile (s : State) (g : Nat) (t : Tile) : State :=
  let t := { t with phase := .running, since := now s }
  let s := setTile s g t
  match t.wait with
  | .counter d addr target equal deadline => waitcRead s g t d addr target equal deadline
  | .time d target => if wardTime s (coreWard g) ≥ target then finish s g t (putS t.ctx d 0) else s
  | _ => settleWait s g

/-- Finish a tile's image load (R134): the words are in the buffer, or CODE_LOAD. A CODE_FLUSH written meanwhile stands and
applies at the next tile start or resume (R159, log 74). -/
def finishLoad (s : State) (g : Nat) (t : Tile) : State :=
  if !(imageOk t.task) then tileFail s g causeCodeLoad t.ctx.pc t.task.img 0 else
  let r := memRead s t.task.img (8 * t.task.len)
  match r.2 with
  | none => tileFail r.1 g causeCodeLoad t.ctx.pc t.task.img 0
  | some b =>
    let c := coreOf r.1 g
    let s := setCore r.1 g (accClean { c with image := some ⟨t.task.img, t.task.tag, imageWords t.task.len b⟩ } (fun e => match e with
      | .code _ => true
      | _ => false))
    if t.begun then continueTile s g t else beginRun s g t

/-! ### Passes -/

/-- Whether an array that a pass needs has a queued pass already (R103, R110). -/
def queueTaken (c : Core) (d : PassDesc) : Bool :=
  c.passes.any (fun p => !p.suspended && p.st == .queued && passesMeet p.desc d)

/-- Whether an array that a pass needs has a running pass. -/
def arrayTaken (c : Core) (d : PassDesc) : Bool :=
  c.passes.any (fun p => !p.suspended && p.st == .running && passesMeet p.desc d)

/-- Accept a pass: running on an idle array, else queued (R103). -/
def acceptPass (s : State) (g : Nat) (t : Tile) (d : PassDesc) (cv : Option ConvDesc) : State :=
  let c := coreOf s g
  let f := takeFree s (2 ^ 40)
  setCore f.2 g { c with
    passes := c.passes ++ [⟨c.nextId, d, cv, t.accBase, t.ctx.step, t.ctx.key, false,
      if arrayTaken c d then .queued else .running, false, [], f.1⟩],
    nextId := c.nextId + 1 }

/-- The pass that starts next on an array: the first in order of acceptance that has not begun (R105). -/
def nextToBegin (c : Core) (a : Nat) : Option Pass :=
  c.passes.find? (fun p => !p.suspended && !p.begun && p.st != .withdrawn && passOn p.desc a)

/-- Whether an ACC_INV action holds a pass back (R131). -/
def invHolds (c : Core) (p : Pass) : Bool :=
  c.invWait.any (fun e => passOn p.desc e.1 && !(e.2.contains p.id))

/-- Whether a pass may reach its cycle 0: everything accepted before it on its arrays has begun; a wide pass waits until square
passes before it have completed, and a square pass until wide ones have (R105, R108, R110). -/
def mayBegin (c : Core) (p : Pass) : Bool :=
  let before := (c.passes.takeWhile (fun q => q.id != p.id)).filter (fun q => !q.suspended && passesMeet q.desc p.desc)
  !(invHolds c p) &&
    before.all (fun q => q.begun && q.desc.wide == p.desc.wide)

/-- A pass reaches its cycle 0: the one before it on the array has fed its last row. -/
def beginPass (c : Core) (p : Pass) : Core :=
  { c with passes := c.passes.map (fun q =>
      if q.id = p.id then { q with st := .running, begun := true }
      else if !q.suspended && q.begun && passesMeet q.desc p.desc then { q with st := .draining }
      else q) }

/-- Reader of operand bytes: a unit written since acceptance reads old or new by a free choice (R99). -/
def passReader (c : Core) (p : Pass) : PassRead := fun rec off =>
  match mapFind (off / 16) p.dirty with
  | none => ocByte c off
  | some old => if Config.freeBool (p.seed + rec * 2 ^ 20 + off / 16) then old.getD (off % 16) 0 else ocByte c off

/-- Make the first queued pass of each array without a running pass its running pass. -/
def promote (c : Core) : Core :=
  { c with passes := c.passes.foldl (fun (acc : List Pass) p =>
      acc ++ [if p.st == .queued && !(acc.any (fun q => !q.suspended && (q.st == .running || q.st == .queued) && passesMeet q.desc p.desc))
        then { p with st := .running } else p]) [] }

/-- Operand-cache bytes that a pass reads: the values and, for block formats, the scales of its input and weight records (R97). -/
def passRanges (d : PassDesc) (cv : Option ConvDesc) : List (Nat × Nat) :=
  match passFamily d.fmtA d.fmtB with
  | none => []
  | some f =>
    let k := if d.wide then 32 * d.kgroups else 32
    let rec' (x val scl : Nat) : List (Nat × Nat) :=
      (val + x, elemBytes f k) :: (if f == .block then [(scl + x / 8, k / 16)] else [])
    (List.range d.rows).flatMap (fun i => match rowOffset d cv i with
      | none => []
      | some x => rec' x d.aVal d.aScl)
    ++ (List.range (if d.wide then 512 else 32)).flatMap (fun j => rec' (j * d.bPitch) d.bVal d.bScl)

/-- Whether a flipped bit lies in an accumulator row that a pass writes. -/
def inPassRow (p : Pass) : SoftError → Bool
  | .acc a slot row _ => decide (p.accBase ≤ slot.val) && passWrites p.desc a.val (slot.val - p.accBase) row.val
  | _ => false

/-- A pass reads its operands and, unless it overwrites them, its accumulator rows (R112, R117, R173). -/
def passMeets (s : State) (g : Nat) (p : Pass) : State :=
  let c := coreOf s g
  if c.soft.isEmpty then s else
  let l := passRanges p.desc p.conv
  meet s g (fun e => l.any (fun r => inCache r.1 r.2 e) || (!p.desc.overwrite && flipLives c e && inPassRow p e))

/-- Complete a pass: its rows are written, its counts added, PWAIT released (R104, R108, R130). -/
def completePass (s : State) (g : Nat) (p : Pass) : State :=
  let s := passMeets s g p
  let c := coreOf s g
  let nz : PassNoise := ⟨p.desc.stoch, keyWords p.key, p.step⟩
  let rd := passReader c p
  let r := if p.desc.wide then widePass rd nz p.desc p.accBase c.acc else squarePass rd nz p.desc p.conv p.accBase c.acc
  let c := promote { accClean c (inPassRow p) with acc := r.1, passes := c.passes.filter (fun q => q.id != p.id) }
  let s := addCounts (bump (setCore s g c) (pgCore g) fCorePassCount) g r.2
  settleWait s g

/-- Complete every pass of the running tile in the order of acceptance (R102). -/
def completeAll (s : State) (g : Nat) : State :=
  ((coreOf s g).passes.filter (fun p => !p.suspended)).foldl (fun s p => completePass s g p) s

/-! ### Asynchronous operations -/

/-- An outstanding operation by its number. -/
def findOp (c : Core) (op : Nat) : Option AsyncOp := c.asyncs.find? (fun a => a.id == op)

/-- Remove an operation and release a DWAIT that waited for it (R149). -/
def dropOp (s : State) (g op : Nat) : State :=
  let c := coreOf s g
  settleWait (setCore s g { c with asyncs := c.asyncs.filter (fun a => a.id != op) }) g

/-- Add an outstanding operation; its number is the core's next. -/
def addOp (s : State) (g tag pc : Nat) (k : AsyncKind) : State :=
  let c := coreOf s g
  setCore s g { c with asyncs := c.asyncs ++ [⟨c.nextId, tag, pc, k, false, [], [], [], none⟩], nextId := c.nextId + 1 }

/-- Whether all requests of an operation are sent and answered. -/
def opAnswered (a : AsyncOp) : Bool := a.todo.isEmpty && a.msgs.isEmpty

/-- Data of a completed copy or gather, or the address at which it fails. -/
inductive OpData where
  | writes (l : List (Nat × List Byte))
  | fails (addr : Nat)
  deriving DecidableEq, Repr

/-- Read the elements of a gather in index order. -/
def gatherData (s : State) (a : AsyncOp) (fab : Bool) (dst esize : Nat) (base : Dword) (idx : Nat) (idx64 : Bool) (c : Core) :
    List Nat → State × OpData
  | [] => (s, .writes [])
  | j :: r =>
    match elemAddr fab base esize (indexAt c idx idx64 j) with
    | none => (s, .fails (base.toNat + indexAt c idx idx64 j * esize))
    | some v =>
      if fab && decide (v / 2 ^ 44 ≠ (moduleId s).toNat) then
        let rest := gatherData s a fab dst esize base idx idx64 c r
        match rest.2 with
        | .fails x => (rest.1, .fails x)
        | .writes l => (rest.1, .writes ((dst + esize * j, gotBytes a.got v esize) :: l))
      else
        let m := memRead s (v % 2 ^ 44) esize
        match m.2 with
        | none => (m.1, .fails v)
        | some b =>
          let rest := gatherData m.1 a fab dst esize base idx idx64 c r
          match rest.2 with
          | .fails x => (rest.1, .fails x)
          | .writes l => (rest.1, .writes ((dst + esize * j, b) :: l))

/-- What a copy or gather delivers when it completes (R142, R144, R177). -/
def opData (s : State) (g : Nat) (a : AsyncOp) : State × OpData :=
  let s := opReads s g a.kind
  let c := coreOf s g
  match a.failed with
  | some x => (s, .fails x)
  | none =>
    match a.kind with
    | .dmaBm dst src len =>
      let r := memRead s src len
      match r.2 with
      | none => (r.1, .fails src)
      | some b => (r.1, .writes [(dst, b)])
    | .dmaOc dst src len => (s, .writes [(dst, ocRead c src len)])
    | .dmaFab dst src len => (s, .writes [(dst, gotBytes a.got src len)])
    | .gather fab dst base idx count esize idx64 => gatherData s a fab dst esize base idx idx64 c (List.range count)
    | .atom fn _ base idx count idx64 =>
      match (elemAddrs c false base idx count (adderSize fn) idx64).findIdx? (·.isNone) with
      | some j => (s, .fails (base.toNat + indexAt c idx idx64 j * adderSize fn))
      | none => (s, .writes [])

/-- Apply the writes of a completed operation to the operand cache. -/
def applyWrites (s : State) (g : Nat) (l : List (Nat × List Byte)) : State :=
  setCore s g (l.foldl (fun c w => ocWrite c w.1 w.2) (coreOf s g))

/-- Apply the updates of an ATOM; the flag and address say whether and where one failed (R180). -/
def atomUpdates (s : State) (fn : Nat) : List (Nat × Nat) → State × Option Nat
  | [] => (s, none)
  | e :: r =>
    let u := adderUpdate s fn e.1 e.2
    if u.2 then atomUpdates u.1 fn r else (u.1, some e.1)

/-- The address and value pairs of an ATOM in the order they take effect. -/
def atomList (s : State) (g : Nat) (fn vals : Nat) (base : Dword) (idx count : Nat) (idx64 : Bool) :
    List (Nat × Nat) × State :=
  let c := coreOf s g
  let n := adderSize fn
  let addrs := (elemAddrs c false base idx count n idx64).map (·.getD 0)
  let o := updateOrder s addrs
  (o.1.map (fun j => (addrs.getD j 0, ocNat c (vals + n * j) n)), o.2)

/-- Fail an operation at an address: the running tile ends, or the suspended one (R149, R531). -/
def failOp (s : State) (g : Nat) (a : AsyncOp) (addr : Nat) : State :=
  if a.suspended then suspendedFail s g causeMemErr a.pc addr else tileFail s g causeMemErr a.pc addr 0

/-! ### Remote accesses of tiles (R282, R283) -/

/-- Split an access at 4 KiB of the target address: offset, address and length of each part. -/
def splitAccess : Nat → Nat → Nat → Nat → List (Nat × Nat × Nat)
  | 0, _, _, _ => []
  | n + 1, off, addr, len =>
    if len = 0 then [] else
    let k := min len (4096 - addr % 4096)
    (off, addr, k) :: splitAccess n (off + k) (addr + k) (len - k)

/-- Parts of an access of `len` bytes. -/
def accessParts (addr len : Nat) : List (Nat × Nat × Nat) := splitAccess (len / 4096 + 2) 0 addr len

/-- Add a message number to an operation. -/
def opSent (s : State) (g op : Nat) (id : BitVec 32) : State :=
  let c := coreOf s g
  setCore s g { c with asyncs := c.asyncs.map (fun a => if a.id == op then { a with msgs := a.msgs ++ [id] } else a) }

/-- Send a read request of an operation: module, address and bytes, a multiple of 16. -/
def sendRead (s : State) (g op : Nat) (r : Nat × Nat × Nat) : State :=
  let m := sendMsg s (coreDie g) (BitVec.ofNat 16 r.1) kRdReq 0 r.2.1 (r.2.2 / 16) [] (.async g op)
  opSent m.1 g op m.2

/-- One more element in the requests of a remote GATHER: merged with the last request where both lie in one 64-byte unit and
that request serves fewer than 16 elements; the last component counts its elements (R177). A request asks for the 16-byte units
that hold its elements (log 74). -/
def mergeRequest (l : List (Nat × Nat × Nat × Nat)) (v size : Nat) : List (Nat × Nat × Nat × Nat) :=
  let m := v / 2 ^ 44
  let lo := v % 2 ^ 44 / 16 * 16
  let hi := (v % 2 ^ 44 + size + 15) / 16 * 16
  match l with
  | (m', a, n, k) :: rest =>
    if m' = m ∧ a / 64 = lo / 64 ∧ k < 16 then (m, min a lo, max (a + n) hi - min a lo, k + 1) :: rest
    else (m, lo, hi - lo, 1) :: l
  | [] => [(m, lo, hi - lo, 1)]

/-- Requests of a remote GATHER in index order: elements of 64 B or less merge, a larger one takes one per 64-byte unit (R177). -/
def remoteRequests (size : Nat) (addrs : List Nat) : List (Nat × Nat × Nat) :=
  if size ≤ 64 then ((addrs.foldl (fun l v => mergeRequest l v size) []).reverse).map (fun r => (r.1, r.2.1, r.2.2.1))
  else addrs.flatMap (fun v => (List.range (size / 64)).map (fun u => (v / 2 ^ 44, v % 2 ^ 44 + 64 * u, 64)))

/-- Requests of GATHERs that a core has outstanding. -/
def gatherOut (c : Core) : Nat :=
  c.asyncs.foldl (fun n a => match a.kind with
    | .gather _ _ _ _ _ _ _ => n + a.msgs.length
    | _ => n) 0

/-- Send requests of GATHERs while the core has fewer than 128 outstanding (R177). -/
def pumpGathers : Nat → State → Nat → State
  | 0, s, _ => s
  | n + 1, s, g =>
    let c := coreOf s g
    if gatherOut c ≥ 128 then s else
    match c.asyncs.findSome? (fun a => a.todo.head?.map (fun r => (a.id, r))) with
    | none => s
    | some (op, r) =>
      pumpGathers n (sendRead (setCore s g { c with asyncs := c.asyncs.map (fun a =>
        if a.id == op then { a with todo := a.todo.tail } else a) }) g op r) g

/-! ### COMMIT (R152) -/

/-- Elements of a SCATTER: address and bytes, in index order. -/
def scatterList (c : Core) (src : Nat) (base : Dword) (idx count esize : Nat) (idx64 : Bool) :
    List (Option Nat × List Byte) :=
  (List.range count).map (fun j => (elemAddr false base esize (indexAt c idx idx64 j), ocRead c (src + esize * j) esize))

/-- Write a range at COMMIT, keeping the old bytes for R153; the flag says it was accepted. -/
def commitWrite (s : State) (g addr : Nat) (bytes : List Byte) : State × Bool :=
  let old := (List.range bytes.length).map (fun i => (addr + i, memByte s.mem (addr + i)))
  let w := memWrite s addr bytes
  if w.2 then
    let c := coreOf w.1 g
    (setCore w.1 g { c with undo := old.filter (fun e => !(c.undo.any (fun u => u.1 == e.1))) ++ c.undo }, true)
  else (w.1, false)

/-- Write the elements of a SCATTER in index order, the first of them number `j`; the number of one that fails. -/
def commitElems (s : State) (g : Nat) : Nat → List (Option Nat × List Byte) → State × Option Nat
  | _, [] => (s, none)
  | j, (none, _) :: _ => (s, some j)
  | j, (some a, b) :: r =>
    let w := commitWrite s g a b
    if w.2 then commitElems w.1 g (j + 1) r else (w.1, some j)

/-- Elements of a SCATTER for which requests were issued: all, or up to one that failed, which itself made some where it has an
address (R176, R177, R183). -/
def elemsTried (l : List (Option Nat × List Byte)) (failed : Option Nat) : Nat :=
  match failed with
  | none => l.length
  | some j => j + match l[j]? with
    | some (some _, _) => 1
    | _ => 0

/-- Operand-cache bytes that a staged entry reads when it is performed. -/
def stagedSources : Staged → List (Nat × Nat)
  | .put _ src len => [(src, len)]
  | .fput _ src len => [(src, len)]
  | .scatter src _ idx count esize idx64 => [(idx, count * if idx64 then 8 else 4), (src, count * esize)]

/-- Perform one staged entry; the failing address where its target fails (R151, R152 step 2). -/
def commitEntry (s : State) (g : Nat) (e : Staged) : State × Option Nat :=
  let s := (stagedSources e).foldl (fun s r => meetOc s g r.1 r.2) s
  let c := coreOf s g
  match e with
  | .put dst src len =>
    if dst % 16 ≠ 0 ∨ dst + len > bulkEnd then (s, some dst) else
    let w := commitWrite s g dst (ocRead c src len)
    (w.1, if w.2 then none else some dst)
  | .fput dst src len =>
    if dst ≥ 2 ^ 60 ∨ dst % 16 ≠ 0 then (s, some dst) else
    let m := dst / 2 ^ 44
    let a := dst % 2 ^ 44
    if m = (moduleId s).toNat then
      if a + len > bulkEnd then (s, some dst) else
      let w := commitWrite s g a (ocRead c src len)
      (w.1, if w.2 then none else some dst)
    else
      ((accessParts a len).foldl (fun s p =>
        (sendMsg s (coreDie g) (BitVec.ofNat 16 m) kWrReq 0 p.2.1 0 (ocRead c (src + p.1) p.2.2) (.commit g)).1) s, none)
  | .scatter src base idx count esize idx64 =>
    let l := scatterList c src base idx count esize idx64
    let p := pgCore g
    let r := commitElems s g 0 l
    let n := elemsTried l r.2
    (bumpBy (bumpBy r.1 p fCoreGatherElemCount n) p fCoreGatherReqCount (n * elemRequests esize),
      r.2.map (fun j => base.toNat + indexAt c idx idx64 j * esize))

/-- Perform staged entries in staging order until one fails. -/
def commitEntries (s : State) (g : Nat) : List StageEntry → State × Option Nat
  | [] => (s, none)
  | e :: r =>
    let w := commitEntry s g e.what
    match w.2 with
    | none => commitEntries w.1 g r
    | some a => (w.1, some a)

/-- Whether a COMMIT still waits for acknowledgements. -/
def commitOwed (s : State) (g : Nat) : Bool :=
  (s.net.out ++ s.net.waitq).any (fun m => m.owner == .commit g)

end Sys2Proof.Machine
end

