-- ==== Sys2Proof/Machine/DispOps.lean ====
section
/-!
DEFINITION. Shared operations of a dispatcher (07_dispatch_bell.md): descriptors (R184, R185), the choice of a task
(R186, R187), completion and failure (R189 to R191), watches (R192, R195), release records and lists (R194, R196), bells
and ramps (R197).
-/

namespace Sys2Proof.Machine

/-! ### Failure record -/

/-- Record a failure (R191): `core` is the number on the die, 0x1FF where no core was involved. -/
def addFailure (s : State) (d : Nat) (ref : Word) (reason cause core : Nat) : State :=
  let p := pgDisp d
  let s := bump s p fDispatcherTasksFailed
  let x := dispOf s d
  if x.failures.length ≥ 64 then raise (bump s p fDispatcherFailOverflowCount) p evDispatcherFailOverflow
  else setDisp s d { x with failures := x.failures ++ [⟨ref, reason, cause, core, s.time⟩] }

/-- The words of a failure entry (R191). -/
def failureWide (f : Failure) : Wide :=
  wideOf [f.ref.toNat, f.reason + f.cause * 2 ^ 8 + f.core * 2 ^ 16, f.time.toNat, f.time.toNat / 2 ^ 32]

/-! ### Descriptors -/

/-- The task of a 64-byte descriptor and whether it passes R185 (R184). -/
def readTask (v : Nat) : Task × Bool :=
  let w (off : Nat) : Nat := bitsOf v (8 * off) 32
  let len := bitsOf (w 4) 12 14
  let entry := bitsOf (w 0xC) 0 13
  let slots := bitsOf (w 0xC) 13 7
  let done := w 0x14 + bitsOf (w 0x18) 0 12 * 2 ^ 32
  let t : Task :=
    { img := w 0 + bitsOf (w 4) 0 12 * 2 ^ 32, len := len, tag := BitVec.ofNat 32 (w 8), entry := entry, slots := slots,
      nonReplay := (w 0xC).testBit 20, prio := bitsOf (w 0xC) 21 3, preempt := (w 0xC).testBit 24,
      ref := BitVec.ofNat 32 (w 0x10), done := done,
      args := [BitVec.ofNat 64 (bitsOf v 256 64), BitVec.ofNat 64 (bitsOf v 320 64),
        BitVec.ofNat 64 (bitsOf v 384 64), BitVec.ofNat 64 (bitsOf v 448 64)] }
  let ok := decide (w 4 < 2 ^ 26) && decide (w 0xC < 2 ^ 25) && decide (w 0x18 < 2 ^ 12) && decide (w 0x1C = 0)
    && decide (1 ≤ len) && decide (len ≤ 8192) && decide (1 ≤ slots) && decide (slots ≤ 64) && decide (entry < len)
    && decide (w 0x10 ≠ 0) && (decide (done = 0) || (decide (done % 8 = 0) && decide (done + 8 ≤ bulkEnd)))
  (t, ok)

/-! ### Bells and the ramp -/

/-- The time at which a bell rings for ward w of die d (R197). -/
def rampTime (t stepsLog2 stepTicks d w : Nat) : Nat := t + (4 * w + d) * 2 ^ stepsLog2 / 32 * stepTicks

/-- The wards of a die, as bits, for which a bell has rung by their copies of the time counter. -/
def rungNow (s : State) (d : Nat) (b : Bell) : BitVec 8 :=
  match b with
  | .barrier _ => 0
  | .at t l k => BitVec.ofNat 8 ((List.range 8).foldl (fun a w =>
      if rampTime t l k d w ≤ wardTime s (8 * d + w) then a + 2 ^ w else a) 0)

/-- A bell fixed now at a time, with the ramp of die d's dispatcher (R208). -/
def bellAt (s : State) (d t : Nat) : Bell :=
  .at t (fld s (pgDisp d) fDispatcherStepsLog2) (fld s (pgDisp d) fDispatcherStepTicks)

/-- Whether a bell has passed by a dispatcher's copy of the time counter. -/
def bellPassed (s : State) (d : Nat) (b : Bell) : Bool :=
  match b with
  | .at t _ _ => decide (t < dispTime s d)
  | .barrier _ => false

/-- Raise and count BELL_LATE (R196, R209). -/
def bellLate (s : State) (d : Nat) : State :=
  raise (bump s (pgDisp d) fDispatcherBellLateCount) (pgDisp d) evDispatcherBellLate

/-! ### The choice of a task -/

/-- What a task has waited: from its bell or its arrival, whichever is later (R187). -/
def waited (s : State) (d : Nat) (e : StoreEntry) : Nat :=
  match e.bell with
  | .at t _ _ => dispTime s d - max t e.arrived
  | .barrier _ => 0

/-- Whether a task counts as aged (R187). -/
def aged (s : State) (d : Nat) (e : StoreEntry) : Bool :=
  let n := fld s (pgDisp d) fDispatcherAgeLimit
  decide (n ≠ 0) && decide (1024 * n ≤ waited s d e)

/-- Whether entry `a` is served before entry `b`: aged ones first, the longest wait first among them, else by priority
and then by order (R186, R187). -/
def servedBefore (s : State) (d : Nat) (a b : StoreEntry) : Bool :=
  match aged s d a, aged s d b with
  | true, false => true
  | false, true => false
  | true, true => decide (waited s d a > waited s d b) || (decide (waited s d a = waited s d b) && decide (a.order < b.order))
  | false, false => decide (a.task.prio > b.task.prio) || (decide (a.task.prio = b.task.prio) && decide (a.order < b.order))

/-- The entry served first of a list. -/
def bestEntry (s : State) (d : Nat) (l : List StoreEntry) : Option StoreEntry :=
  l.foldl (fun acc e => match acc with
    | none => some e
    | some b => if servedBefore s d e b then some e else some b) none

/-- Entries that a core of ward w of the die may pull (R186). -/
def pullable (x : Disp) (w : Nat) : List StoreEntry := x.store.filter (fun e => e.core.isNone && e.rung.getLsbD w)

/-- State of a core (R450): cores 288 to 303 of a die leave the factory as spares (log 6). -/
def coreState (s : State) (g : Nat) : Nat := mapGet (fun g => if g % 304 < 288 then 0 else 1) g s.health.coreState

/-- Cores in service on awake dies (R463). -/
def serviceable (s : State) : Nat :=
  ((List.range 1216).filter (fun g => decide (coreState s g = 0) && dieAwake s (coreDie g))).length

/-- Whether the die's cores are released: the module accepts work and the die is awake (R490, R493). -/
def coresReleased (s : State) (d : Nat) : Bool :=
  dieAwake s d && (decide (modState s = msReady) || decide (modState s = msRunning))

/-- Whether a row of the core waits at the head of its class queue, so that the core takes no task (R454). -/
def rowBlocks (s : State) (g : Nat) : Bool :=
  [true, false].any (fun oc => match s.health.rowQ.find? (fun r => r.oc == oc) with
    | some r => r.core == g
    | none => false)

/-- Whether a core in service is idle: no tile on it and no task given to it (R186, R188). -/
def coreIdle (s : State) (g : Nat) : Bool :=
  let c := coreOf s g
  c.tile.isNone && c.shadow.isNone && c.given.isNone && decide (coreState s g = 0)

/-- Whether a core is idle and may ask: released, its ward not napping (R186, R450). -/
def mayAsk (s : State) (g : Nat) : Bool :=
  coreIdle s g && coresReleased s (coreDie g) && !(flag s (pgWard (coreWard g)) stWardNap) && !(rowBlocks s g)

/-- Change one entry of a store. -/
def updEntry (x : Disp) (id : Nat) (f : StoreEntry → StoreEntry) : Disp :=
  { x with store := x.store.map (fun e => if e.id = id then f e else e) }

/-- Answer a core's request (R186, R209). -/
def askTask (s : State) (g : Nat) : State :=
  let d := coreDie g
  let x := dispOf s d
  let best := if flag s (pgDisp d) fDispatcherEnable then bestEntry s d (pullable x (coreWard g % 8)) else none
  match best with
  | none => setCore s g { coreOf s g with asked := true }
  | some e =>
    let s := setDisp s d (updEntry x e.id (fun e => { e with core := some g }))
    let s := setCore s g { coreOf s g with given := some (e.task, e.id), asked := false }
    bump s (pgDisp d) fDispatcherTasksIssued

/-! ### Pre-emption (R188, R123) -/

/-- Global numbers of a die's cores. -/
def dieCores (d : Nat) : List Nat := (List.range 304).map (304 * d + ·)

/-- Whether the running tile of a core may be pre-empted by a task; one that itself pre-empted another, whose slots follow that
one's, may not (R115, R123, R188). -/
def admits (s : State) (g : Nat) (e : StoreEntry) : Bool :=
  let c := coreOf s g
  match c.tile with
  | none => false
  | some t => decide (t.accBase = 0) && c.shadow.isNone && c.preempt.isNone && decide (t.task.prio < e.task.prio)
      && decide (t.task.slots + e.task.slots ≤ 64) && e.rung.getLsbD (coreWard g % 8)

/-- The admitting core whose tile has the lowest priority, the last started among equals. -/
def victim (s : State) (d : Nat) (e : StoreEntry) : Option (Nat × Tile) :=
  ((dieCores d).filterMap (fun g => if admits s g e then (coreOf s g).tile.map (fun t => (g, t)) else none)).foldl
    (fun acc v => match acc with
      | none => some v
      | some b => if v.2.task.prio < b.2.task.prio ∨ (v.2.task.prio = b.2.task.prio ∧ v.2.started > b.2.started) then some v
                  else some b) none

/-- Tasks that may pre-empt: PREEMPT set, waited long enough, not aged. -/
def preempting (s : State) (d : Nat) : List StoreEntry :=
  let delay := fld s (pgDisp d) fDispatcherPreemptDelay
  (dispOf s d).store.filter (fun e => e.core.isNone && e.task.preempt && decide (delay ≠ 0)
    && decide (delay ≤ waited s d e) && e.rung != 0 && !(aged s d e) && (victim s d e).isSome)

/-- Withdraw the passes whose row 0 has not been fed (R123 step 1), one on an idle array among them; those of a tile in its COMMIT
stay, so that the COMMIT can complete (R156, log 73). -/
def withdrawPasses (c : Core) : Core :=
  if c.tile.any (fun t => t.phase == .commitWait) then c else
  { c with passes := c.passes.map (fun p => if !p.suspended && !p.begun then { p with st := .withdrawn } else p) }

/-- Pre-empt a core for a task. -/
def preemptCore (s : State) (d g : Nat) (e : StoreEntry) : State :=
  let s := setDisp s d (updEntry (dispOf s d) e.id (fun e => { e with core := some g }))
  let s := setCore s g { withdrawPasses (coreOf s g) with preempt := some (e.task, e.id) }
  bump (bump s (pgDisp d) fDispatcherTasksIssued) (pgDisp d) fDispatcherPreemptCount

/-! ### Reports -/

/-- The first report of a kind at a dispatcher. -/
def firstReport (x : Disp) (p : EndKind → Bool) : Option Report := x.reports.find? (fun r => p r.kind)

/-- Remove the first report that equals `r`. -/
def dropReport (x : Disp) (r : Report) : Disp := { x with reports := x.reports.erase r }

/-- Free a store entry (R189). -/
def freeEntry (x : Disp) (id : Nat) : Disp := { x with store := x.store.filter (fun e => e.id != id) }

/-- The task of a reported entry. -/
def entryOf (x : Disp) (id : Nat) : Option StoreEntry := x.store.find? (fun e => e.id == id)

/-- Take a report and free its entry. -/
def closeReport (s : State) (d : Nat) (r : Report) : State := setDisp s d (freeEntry (dropReport (dispOf s d) r) r.entryId)

/-- Head of a priority queue: an order before every entry of that priority (R190). -/
def headOrder (x : Disp) (prio : Nat) : Int :=
  (x.store.filter (fun e => e.task.prio == prio)).foldl (fun a e => min a (e.order - 1)) (x.nextOrder - 1)

/-- Handle an abandoned tile (R190). -/
def handleAbandon (s : State) (d : Nat) (r : Report) (e : StoreEntry) : State :=
  let p := pgDisp d
  let s := setDisp s d (dropReport (dispOf s d) r)
  if e.task.nonReplay then
    addFailure (setDisp (raise s p evDispatcherTileLost) d (freeEntry (dispOf s d) e.id)) d e.task.ref 0x02 0 (r.core % 304)
  else if e.reissues < fld s p fDispatcherReissueLimit then
    let x := dispOf s d
    bump (setDisp s d (updEntry x e.id (fun e =>
      { e with core := none, reissues := e.reissues + 1, order := headOrder x e.task.prio }))) p fDispatcherReissueCount
  else addFailure (setDisp s d (freeEntry (dispOf s d) e.id)) d e.task.ref 0x03 0 (r.core % 304)

/-! ### Lists -/

/-- Free entries of a store. -/
def storeFree (x : Disp) : Nat := 4096 - x.store.length

/-- Put a good task into the store (R186). -/
def addEntry (s : State) (d : Nat) (t : Task) (bell : Bell) (order : Int) : State :=
  let x := dispOf s d
  setDisp s d { x with
    store := x.store ++ [⟨x.nextId, t, order, bell, dispTime s d, rungNow s d bell, 0, none⟩], nextId := x.nextId + 1 }

/-- Fetch one descriptor: queued, or recorded as DESC_BAD or FETCH_ERR (R185, R190). -/
def fetchOne (s : State) (d addr : Nat) (bell : Bell) (order : Int) : State :=
  let r := memRead s addr 64
  match r.2 with
  | none => addFailure r.1 d 0 0x05 0 0x1FF
  | some b =>
    let t := readTask (leNat b)
    if t.2 then addEntry r.1 d t.1 bell order else addFailure r.1 d t.1.ref 0x04 0 0x1FF

/-- Fetch descriptors of a list while the store has room: the state and what is left. -/
def fetchMany : Nat → State → Nat → FetchList → State × FetchList
  | 0, s, _, l => (s, l)
  | n + 1, s, d, l =>
    if l.left = 0 ∨ storeFree (dispOf s d) = 0 then (s, l)
    else fetchMany n (fetchOne s d l.addr l.bell l.order) d { l with addr := l.addr + 64, left := l.left - 1, order := l.order + 1 }

/-- Report a bell that passed before the list was whole in the store, once per list (R196). -/
def lateCheck (s : State) (d : Nat) (l : FetchList) : State × FetchList :=
  if bellPassed s d l.bell && !l.late then (bellLate s d, { l with late := true }) else (s, l)

/-- Whether every die of the module has its list of a barrier in store, or its store full (R204). -/
def barrierReady (s : State) (id : BitVec 16) : Bool :=
  (List.range 4).all (fun d => (dispOf s d).lists.all (fun l => l.overflowed || l.bell != .barrier id))

/-- Fix the bell of a barrier on this member's dispatchers (R204, R294); a late one raises BELL_LATE and is reported to
the group manager (log 26). The flag says whether it was late on some die. -/
def fixBell (s : State) (id : BitVec 16) (t : Nat) : State × Bool :=
  (List.range 4).foldl (fun (a : State × Bool) d =>
    let s := a.1
    let x := dispOf s d
    let mine := x.store.any (fun e => e.bell == .barrier id) || x.lists.any (fun l => l.bell == .barrier id)
    if !mine then a else
    let late := decide (t < dispTime s d)
    let b := bellAt s d t
    let s1 := setDisp s d { x with
      store := x.store.map (fun e => if e.bell == .barrier id then { e with bell := b, rung := rungNow s d b } else e),
      lists := x.lists.map (fun l => if l.bell == .barrier id then { l with bell := b, late := late } else l) }
    (if late then report (bellLate s1 d) (pgDisp d) [evDispatcherBellLate, id.toNat] else s1, a.2 || late)) (s, false)

/-- A member takes the bell of a barrier: its lists ring then, a late bell is reported, and nothing is owed any more
(R204, R294). -/
def takeBell (s : State) (id : BitVec 16) (t : Nat) : State :=
  let s := setNet s { s.net with waiting := s.net.waiting.filter (fun w => w.1 != id) }
  (fixBell (noteCaptureBell s id t) id t).1

/-- GROUP_LEAD (R312). -/
def groupLead (s : State) : Nat := fld s 0x30 fTransportGroupLead

/-- An arrival of a rank at the group manager's barrier; with every working rank in, the bell goes out (R204, R294). -/
def barrierArrival (s : State) (id : BitVec 16) (rank : Nat) : State :=
  let l := s.net.barriers
  let have' := l.find? (fun b => b.id == id)
  if have'.isNone && decide (l.length ≥ 1024) then raise s 0x31 evMembershipBarrierFull
  else
    let s := if have'.isNone then startDueClutch s id else s
    let arrived := (match have' with
      | some b => b.arrived.filter (· != rank)
      | none => []) ++ [rank]
    let rest := l.filter (fun b => b.id != id)
    if (workingRanks s).all arrived.contains then
      let bell := now s + groupLead s
      let s := setNet s { s.net with barriers := rest }
      let s := ((workingRanks s).map (fun r => entryId (memberEntry s r))).foldl (fun s m =>
        if m = moduleId s then s else sendControl s m kBarrierBell id bell (groupLead s) []) s
      takeBell s id bell
    else setNet s { s.net with barriers := rest ++ [⟨id, arrived, now s⟩] }

/-- Send this member's arrival for a barrier to the group manager and remember it; a group manager or a standalone
module arrives at its own (R204, R278, R294, R295). -/
def sendArrival (s : State) (id : BitVec 16) : State :=
  let s := setNet s { s.net with waiting := s.net.waiting.filter (fun w => w.1 != id) ++ [(id, now s)] }
  if holdsRankZero s then barrierArrival s id 0
  else sendControl s (gmId s) kBarrierArrive id 0 0 []

/-- Send the arrival of a barrier when the last die is ready. -/
def arriveIfReady (s : State) (b : Bell) : State :=
  match b with
  | .barrier id => if barrierReady s id && !(s.net.waiting.any (fun w => w.1 == id)) then sendArrival s id else s
  | .at _ _ _ => s

/-- Replace the first list that meets a condition, dropping it when nothing is left. -/
def replaceList : List FetchList → (FetchList → Bool) → FetchList → List FetchList
  | [], _, _ => []
  | x :: r, p, l => if p x then (if l.left = 0 then r else l :: r) else x :: replaceList r p l

/-- Fetch the first forwarded list of a dispatcher (R196). -/
def fetchList (s : State) (d : Nat) : State :=
  match (dispOf s d).lists.find? (fun l => !l.overflowed) with
  | none => s
  | some l =>
    let r := fetchMany l.left s d l
    let q := lateCheck r.1 d r.2
    let full := decide (q.2.left ≠ 0)
    let s1 := raiseIf full q.1 (pgDisp d) evDispatcherStoreOverflow
    let x := dispOf s1 d
    let s2 := setDisp s1 d { x with lists := replaceList x.lists (fun l => !l.overflowed) { q.2 with overflowed := full } }
    arriveIfReady s2 l.bell

/-- Fetch the remainder of the first overflowed list into entries that have become free (R196). -/
def fetchRemainder (s : State) (d : Nat) : State :=
  match (dispOf s d).lists.find? (·.overflowed) with
  | none => s
  | some l =>
    if storeFree (dispOf s d) = 0 then s else
    let r := fetchMany l.left s d l
    let q := lateCheck r.1 d r.2
    let x := dispOf q.1 d
    setDisp q.1 d { x with lists := replaceList x.lists (·.overflowed) q.2 }

/-! ### Release records and watches -/

/-- Whether a release-record address is accepted (R195). -/
def recordOk (a : Nat) : Bool := decide (a % 64 = 0) && decide (a < bulkEnd)

/-- SUBMIT's effect (R195, R210). -/
def submitRecord (s : State) (d a : Nat) : State :=
  if recordOk a then setDisp s d { dispOf s d with records := (dispOf s d).records ++ [{ addr := a }] }
  else raise s (pgDisp d) evDispatcherReleaseBad

/-- WATCH_ARM's effect (R192, R195, R210). -/
def armWatch (s : State) (d counter : Nat) (target : Dword) (record reserved : Nat) : State :=
  let p := pgDisp d
  if reserved ≠ 0 ∨ counter % 8 ≠ 0 ∨ counter + 8 > bulkEnd ∨ !(recordOk record) then raise s p evDispatcherCtrlBad
  else if (dispOf s d).watches.length ≥ 64 then raise s p evDispatcherWatchFull
  else
    let r := memReadNat s counter 8
    match r.2 with
    | none => raise r.1 p evDispatcherCtrlBad
    | some v =>
      let x := dispOf r.1 d
      if counterReached (BitVec.ofNat 64 v) target then setDisp r.1 d { x with records := x.records ++ [{ addr := record }] }
      else setDisp r.1 d { x with watches := x.watches ++ [⟨counter, target, record, nextStamp r.1⟩] }

/-- A release record: mode, barrier, bell, and list address and count of each die; none where R194 refuses it. -/
def readRecord (v : Nat) : Option (Nat × BitVec 16 × Nat × List (Nat × Nat)) :=
  let lists := (List.range 4).map (fun d => (bitsOf v (128 + 64 * d) 44, bitsOf v (172 + 64 * d) 13))
  let mode := bitsOf v 0 2
  let rsvd := bitsOf v 2 30 = 0 ∧ bitsOf v 48 16 = 0 ∧ bitsOf v 384 128 = 0
    ∧ (List.range 4).all (fun d => bitsOf v (185 + 64 * d) 7 == 0) = true
  if mode ≠ 3 ∧ rsvd ∧ lists.all (fun l => decide (l.2 ≤ 4096) && recordOk l.1) then
    some (mode, BitVec.ofNat 16 (bitsOf v 32 16), bitsOf v 64 64, lists)
  else none

/-- Forward a list to a die (R194). -/
def forwardList (s : State) (bell : Nat → Bell) (late : Nat → Bool) (d : Nat) (l : Nat × Nat) : State :=
  if l.2 = 0 then s else
  let x := dispOf s d
  setDisp s d { x with lists := x.lists ++ [⟨l.1, l.2, bell d, false, late d, x.nextOrder⟩], nextOrder := x.nextOrder + l.2 }

/-- Whether a record of another awake dispatcher goes before this one: fired by the same update, its watch armed earlier (R193). -/
def recordWaits (s : State) (d : Nat) (r : RecordRef) : Bool :=
  decide (r.fire ≠ 0) && (List.range 4).any (fun e => decide (e ≠ d) && dieAwake s e
    && (dispOf s e).records.any (fun q => decide (q.fire = r.fire) && decide (q.stamp < r.stamp)))

/-- Read the first record in line and release it (R193 to R196). -/
def releaseRecord (s : State) (d : Nat) : State :=
  match (dispOf s d).records with
  | [] => s
  | a :: rest =>
    if recordWaits s d a then s else
    let s := setDisp s d { dispOf s d with records := rest }
    let r := memRead s a.addr 64
    match r.2 with
    | none => raise r.1 (pgDisp d) evDispatcherReleaseBad
    | some b =>
      match readRecord (leNat b) with
      | none => raise r.1 (pgDisp d) evDispatcherReleaseBad
      | some (mode, barrier, abs, lists) =>
        let s := r.1
        let late := decide (mode = 1) && decide (abs < dispTime s d)
        let bell (e : Nat) : Bell :=
          if mode = 0 then bellAt s e (dispTime s d + fld s (pgDisp d) fDispatcherBellLead)
          else if mode = 1 then bellAt s e abs else .barrier barrier
        let s1 := (lists.zipIdx).foldl (fun s l => forwardList s bell (fun e => late && e == d) l.2 l.1) s
        let s2 := if late then bellLate s1 d else s1
        if mode = 2 ∧ lists.all (fun l => l.2 == 0) then sendArrival s2 barrier else s2

/-- Ring the bell for a ward: pending tasks whose ramp time its copy of the time counter has reached become pullable,
and its cores may ask again (R186, R198). -/
def ringBell (s : State) (w : Nat) : State :=
  let d := w / 8
  let x := dispOf s d
  let s := setDisp s d { x with store := x.store.map (fun e => { e with rung := e.rung ||| (rungNow s d e.bell &&& BitVec.ofNat 8 (2 ^ (w % 8))) }) }
  (List.range 38).foldl (fun s k =>
    let g := 304 * d + 38 * (w % 8) + k
    if (coreOf s g).asked then setCore s g { coreOf s g with asked := false } else s) s

/-- Whether a descriptor of a die's store waits for a bell (R206). -/
def bellPending (s : State) (d : Nat) : Bool := (dispOf s d).store.any (fun e => e.core.isNone && e.rung != 0xFF)

/-- The earliest bell pending on a die, all ones when none (R210). -/
def nextBell (s : State) (d : Nat) : Nat :=
  let x := dispOf s d
  let times := (x.store.map (·.bell) ++ x.lists.map (·.bell)).filterMap (fun b => match b with
    | .at t _ _ => if dispTime s d < t then some t else none
    | .barrier _ => none)
  times.foldl min (2 ^ 64 - 1)

end Sys2Proof.Machine
end

