-- ==== Sys2Proof/Machine/Memory.lean ====
section
/-!
DEFINITION. The rows of bulk memory (08_memory.md): reads and writes with the upsets they meet (R220, R221), scrub
(R225), row remap (R228), page retirement (R229), channels that fail or train (R214, R234), adders (R236), fill (R223).
-/

namespace Sys2Proof.Machine

/-- Flip stored bytes as upsets found them. -/
def applyUpsets (s : State) (l : List Upset) : State :=
  setMem s (l.foldl (fun m u =>
    if u.byte < 4672 then setFlip m u.chan u.slot u.byte (flipAt m u.chan u.slot u.byte ^^^ u.flips) else m) s.mem)

/-- MEMORY_READ (R220). -/
def execMemoryRead (addr : BitVec 44) (len : Nat) (upsets : List Upset) (s : State) : Answer :=
  .next (
    let r := memRead (applyUpsets s upsets) addr.toNat len
    match r.2 with
    | none => { r.1 with resp := .busError }
    | some b => { r.1 with resp := .bytes b })

/-- MEMORY_WRITE (R221). -/
def execMemoryWrite (addr : BitVec 44) (data : List (BitVec 8)) (upsets : List Upset) (s : State) : Answer :=
  .next (
    let r := memWrite (applyUpsets s upsets) addr.toNat data
    { r.1 with resp := if r.2 then .done else .busError })

/-- MEMORY_ADDER_UPDATE (R236). -/
def execMemoryAdderUpdate (fn : Fin 6) (addr : BitVec 44) (value : BitVec 64) (s : State) : Answer :=
  .next (
    let r := adderUpdate s fn addr.toNat value.toNat
    { r.1 with resp := if r.2 then .done else .busError })

/-! ### Scrub -/

/-- First slot of the replacement pool of a channel (R216). -/
def poolFirst : Nat := 3673088
/-- Slots of a channel (R216). -/
def slotCount : Nat := 3677184

/-- The page that a slot holds, if any (R217, R229). -/
def pageOfSlot (s : State) (chan slot : Nat) : Option Nat :=
  if slot < poolFirst then (if mapHas slot (chanOf s chan).retired then none else some slot)
  else ((chanOf s chan).retired.find? (fun e => e.2 == slot)).map (·.1)

/-- The 512 words of a page in its slot. -/
def pageWords (s : State) (chan page slot : Nat) : List WordRef :=
  (List.range 512).map (fun w => ⟨wordAddr s chan page w, chan, slot, w, page⟩)

/-- Check a page under R220; what stays uncorrectable is poisoned. -/
def checkPage (s : State) (chan page slot : Nat) (scrub : Bool) : State :=
  let c := checkWords s (pageWords s chan page slot)
  (c.2.filter (fun x => !x.2)).foldl (fun s x => poisonWord s x.1 scrub) c.1

/-- Ticks from one slot of a channel's scrub to the next: every slot once per SCRUB_HOURS (R225). -/
def scrubStep (s : State) (ch : Nat) : Nat := fld s (pgMem (ch / 8)) fMemCtlScrubHours * 3600000000000 / slotCount

/-- SCRUB_SLOT (R225): the channel's next slot, once it is due; the table of rows starts afresh with each period (R224). -/
def execScrubSlot (ch : ChanId) (upsets : List Upset) (s : State) : Answer :=
  .next (
    if !(dieAwake s (ch / 32)) || decide (modState s = msStandby) || !(chanServes s ch)
        || !(flag s (pgMem (ch / 8)) fMemCtlScrubEn) || decide (now s < (chanOf s ch).scrubAt) then s else
    let s := applyUpsets s upsets
    let c := chanOf s ch
    let slot := c.scrubNext
    let next := (slot + 1) % slotCount
    let due := if c.scrubAt = 0 then now s else c.scrubAt
    let s := setChan s ch { c with scrubNext := next, scrubAt := due + scrubStep s ch, ceRows := if next = 0 then [] else c.ceRows }
    match pageOfSlot s ch slot with
    | none => s
    | some page => checkPage s ch page slot true)

/-! ### Rows and pages that wear -/

/-- Slots with bytes in a row of a bank (R217). -/
def slotsOfRow (bank row : Nat) : List Nat :=
  let q := if 32 * row / 73 = (32 * row + 31) / 73 then [32 * row / 73] else [32 * row / 73, (32 * row + 31) / 73]
  (q.filter (fun x => decide (x < slotCount / 16))).map (fun x => 16 * x + bank)

/-- Whether a pool slot is free. -/
def poolFree (c : Chan) (slot : Nat) : Bool :=
  decide (poolFirst ≤ slot) && decide (slot < slotCount) && !(mapGet (fun _ => false) slot c.poolUsed)

/-- Key of a spare row that has been taken. -/
def spareKey (bank row : Nat) : Nat := bank * 2 ^ 19 + row

/-- The next spare row of a bank: its two last rows, then pool rows downward whose slots are all free (R227). -/
def nextSpare (c : Chan) (bank : Nat) : Option Nat :=
  let untaken (r : Nat) : Bool := !(mapHas (spareKey bank r) c.sparesTaken)
  match [524286, 524287].find? untaken with
  | some r => some r
  | none => ((List.range 600).map (524285 - ·)).find? (fun r =>
      untaken r && !(slotsOfRow bank r).isEmpty && (slotsOfRow bank r).all (poolFree c))

/-- Take a spare row: a pool row takes its slots out of the pool. -/
def takeSpare (c : Chan) (bank row : Nat) : Chan :=
  { c with sparesTaken := mapPut (spareKey bank row) 1 c.sparesTaken,
           poolUsed := if row ≥ 524286 then c.poolUsed else
             (slotsOfRow bank row).foldl (fun m x => mapSet (fun _ => false) x true m) c.poolUsed }

/-- Pages with bytes in a row as the address map sees it. -/
def pagesOfRow (s : State) (r : RowRef) : List Nat := (slotsOfRow r.bank r.row).filterMap (pageOfSlot s r.chan)

/-- Start the retirement of the backed pages of a row, with the remap entry that is freed at its end (R228, R229). -/
def startRetire (s : State) (r : RowRef) (entry : Option Nat) : State :=
  let pages := (pagesOfRow s r).filter (fun p => !(mapGet (fun _ => false) p (chanOf s r.chan).unbacked))
  setMem s { s.mem with retireQ := pages.map (fun p => (r.chan, p)), retireEntry := entry.map (fun i => (r.chan, i)) }

/-- The row of the address map that a row of the cells serves: itself, or the failed row whose spare it is (R227). -/
def logicalRow (s : State) (r : RowRef) : RowRef :=
  match (chanOf s r.chan).remap.find? (fun e => e.2.bank == r.bank && e.2.spare == r.row) with
  | some e => { r with row := e.2.failed }
  | none => r

/-- Correct the words of the pages of a row as far as they allow (R228 step 2). -/
def correctRow (s : State) (r : RowRef) : State :=
  (pagesOfRow s r).foldl (fun s p =>
    (checkWords s ((pageWords s r.chan p (slotOf s r.chan p)).filter (fun w =>
      decide (rowOf r.chan (slotOf s r.chan p) (wordOff w.w) = r)))).1) s

/-- The lowest free remap entry of a channel, 0 to 255. -/
def freeRemap (c : Chan) : Option Nat := (List.range 256).find? (fun i => !(mapHas i c.remap))

/-- Install or move a remap entry: a bring-in of class 4 is done (R228, R243, R465). -/
def installRemap (s : State) (r : RowRef) (i : Nat) (e : RemapEntry) : State :=
  let c := chanOf s r.chan
  let s := raise (setChan s r.chan { c with remap := mapPut i e c.remap }) (pgMem (r.chan / 8)) evMemCtlRemapDone
  raiseIf (nextSpare c r.bank).isNone (spareIn s 4 r.chan) 6 evHealthSpareExhausted

/-- Free the remap entry whose pages have been retired (R228). -/
def freeRetired (s : State) : State :=
  match s.mem.retireEntry with
  | none => s
  | some (ch, i) =>
    let c := chanOf s ch
    setChan (setMem s { s.mem with retireEntry := none }) ch { c with remap := mapErase i c.remap }

/-- The head candidate leaves the queue for the retirement class, once that class is free: until then it waits in the queue
(R229, R230). `cls` logs an exhausted class 4. -/
def retireRow (s : State) (r : RowRef) (entry : Option Nat) : State :=
  if !(s.mem.retireQ.isEmpty) then s else
  let s := startRetire (setMem s { s.mem with queue := s.mem.queue.drop 1 }) (logicalRow s r) entry
  let s := if entry.isNone then logSpare s 4 r.chan 2 else s
  if s.mem.retireQ.isEmpty then freeRetired s else s

/-- Put the head candidate on a spare row, or start the retirement of its pages (R228, R229). -/
def remapRow (s : State) (r : RowRef) (spareFails : Bool) : State :=
  let c := chanOf s r.chan
  let cur := c.remap.find? (fun e => e.2.bank == r.bank && e.2.spare == r.row)
  match cur, nextSpare c r.bank, freeRemap c with
  | some e, some sp, _ =>
    if e.2.depth ≥ 2 then retireRow s r (some e.1) else
    let s := setChan s r.chan (takeSpare c r.bank sp)
    if spareFails then s else
    installRemap (correctRow (setMem s { s.mem with queue := s.mem.queue.drop 1 }) (logicalRow s r)) r e.1 ⟨r.bank, e.2.failed, 2, sp, e.2.spare⟩
  | none, some sp, some i =>
    let s := setChan s r.chan (takeSpare c r.bank sp)
    if spareFails then s else
    installRemap (correctRow (setMem s { s.mem with queue := s.mem.queue.drop 1 }) r) r i ⟨r.bank, r.row, 1, sp, 0⟩
  | some e, none, _ => retireRow s r (some e.1)
  | none, _, _ => retireRow s r none

/-- ROW_REMAP (R228): the candidate at the head of the queue; a row with bytes of a page in retirement waits (R231). -/
def execRowRemap (spareFails : Bool) (s : State) : Answer :=
  .next (match s.mem.queue with
    | [] => s
    | r :: _ =>
      if (pagesOfRow s (logicalRow s r)).any (fun p => s.mem.retireQ.contains (r.chan, p)) then s else remapRow s r spareFails)

/-- Move the stored differences of a page's slot to another slot. -/
def moveFlips (m : Mem) (chan src dst : Nat) : Mem :=
  let inSlot (k slot : Nat) : Bool := decide (k / 8192 = chan * 2 ^ 22 + slot)
  let kept := m.flips.filter (fun e => !(inSlot e.1 src) && !(inSlot e.1 dst))
  let moved := m.flips.filter (fun e => inSlot e.1 src)
  { m with flips := moved.foldl (fun acc e => mapPut (flipKey chan dst (e.1 % 8192)) e.2 acc) kept }

/-- Backed bytes of a region, less one page (R229, R248). -/
def shrinkRegion (s : State) (d bytes : Nat) : State :=
  let v := (wideVal s 0x50 wCapacity).toNat
  let cur := bitsOf v (64 * d) 64
  raise (setWide s 0x50 wCapacity (BitVec.ofNat 256 (v - cur * 2 ^ (64 * d) + (cur - bytes) * 2 ^ (64 * d)))) 0x50
    evInterleaveCapacityShrunk

/-- What Fethaum reports of a page without backing: the addresses of its eight granules, or for a reserved part their
part-local offsets, which go to the owner (R229). -/
def pageSpan (s : State) (chan page : Nat) : List Nat :=
  (List.range 8).map (fun k =>
    if page < 3670016 then 8 * wordAddr s chan page (64 * k) else partOffset chan page (64 * k))

/-- A page that finds no pool slot is unbacked (R229). -/
def unbackPage (s : State) (chan page : Nat) : State :=
  let c := chanOf s chan
  let s := report s (pgMem (chan / 8)) (pageSpan s chan page)
  let p := pgMem (chan / 8)
  let s := setChan s chan { c with unbacked := mapSet (fun _ => false) page true c.unbacked }
  let s := logSpare (raise (raise s p evMemCtlPoolEmpty) p evMemCtlUnbacked) 5 chan 2
  if page < 3670016 then shrinkRegion (bump s 0x50 fInterleaveUnbackedPages) (chan / 32) 4096 else s

/-- Copy a page into the lowest free pool slot, a bring-in of class 5, or mark it unbacked (R229, R465). -/
def retirePage (s : State) (chan page : Nat) : State :=
  let old := slotOf s chan page
  match ((List.range 4096).map (poolFirst + ·)).find? (poolFree (chanOf s chan)) with
  | none => unbackPage s chan page
  | some slot =>
    let s := checkPage s chan page old false
    let s := setMem s (moveFlips s.mem chan old slot)
    let c := chanOf s chan
    let c := { c with retired := mapPut page slot c.retired, poolUsed := mapSet (fun _ => false) slot true c.poolUsed }
    let s := spareIn (raise (setChan s chan c) (pgMem (chan / 8)) evMemCtlPageRetired) 5 chan
    raiseIf (((List.range 4096).map (poolFirst + ·)).all (fun x => !(poolFree c x))) s 6 evHealthSpareExhausted

/-- PAGE_RETIRE (R229): the next page of the retirement that runs; after the last the remap entry is freed (R228). -/
def execPageRetire (s : State) : Answer :=
  .next (match s.mem.retireQ with
    | [] => s
    | (chan, page) :: rest =>
      let s := retirePage (setMem s { s.mem with retireQ := rest }) chan page
      if rest.isEmpty then freeRetired s else s)

/-! ### Channels -/

/-- A channel fails: bus errors from then on, and a re-plan of its region pends, or the region is unfit (R234, R235). -/
def failChannel (s : State) (ch : Nat) : State :=
  let d := ch / 32
  let s := setFld (setChan s ch { chanOf s ch with failed := true, rate := none }) (pgMem (ch / 8)) { fMemCtlRate0 with lo := 2 * (ch % 8) } 3
  let s := raise s (pgMem (ch / 8)) evMemCtlChannelFailed
  if s.mem.replanPending.any (fun c => c / 32 == d) || decide (failedCh s d ≠ 0x3F) then
    raise (setFlag s 0x50 (ilField fInterleaveUnfit0 d) true) 0x50 evInterleaveCapacityShrunk
  else raise (setMem s { s.mem with replanPending := s.mem.replanPending ++ [ch] }) 0x50 evInterleaveReplanPending

/-- CHANNEL_FAIL (R234, R456). -/
def execChannelFail (ch : ChanId) (s : State) : Answer :=
  .next (if chanServes s ch then failChannel s ch else s)

/-- MR4_READ (R213): the refresh rate follows MR4. -/
def execMr4Read (ch : ChanId) (mr4 : BitVec 5) (s : State) : Answer :=
  .next (if chanServes s ch then setChan s ch { chanOf s ch with mr4 := mr4.toNat } else s)

/-- Hard repair of the failed rows of a channel's remap entries whose bank reports a resource; which do is left open (R233). -/
def repairChan (s : State) (ch : Nat) : State :=
  if !(flag s (pgMem (ch / 8)) fMemCtlPprEn) then s else
  let l := (chanOf s ch).remap
  let f := takeFree s l.length
  let keep := (l.zipIdx.filter (fun x => !(Config.freeBool (f.1 + x.2)))).map (·.1)
  raiseIf (decide (keep.length < l.length)) (setChan f.2 ch { chanOf f.2 ch with remap := keep }) (pgMem (ch / 8)) evMemCtlPprDone

/-- CHANNEL_TRAINING (R214): ends at the first passing rate, or the channel has failed. At power-on and module reset, where
memory is still to be filled, the channel's hard repairs follow (R223, R233). -/
def execChannelTraining (ch : ChanId) (rate : Option (Fin 3)) (s : State) : Answer :=
  .next (
    if (chanOf s ch).failed || !(dieAwake s (ch / 32)) then s else
    match rate with
    | some r =>
      let s := setFld (setChan s ch { chanOf s ch with rate := some r.val }) (pgMem (ch / 8)) { fMemCtlRate0 with lo := 2 * (ch % 8) } r
      if s.mem.filled then s else repairChan s ch
    | none => failChannel s ch)

/-- FILL_COMPLETE (R223): every trained channel holds zero data and matching codes. -/
def execFillComplete (s : State) : Answer :=
  .next (
    if s.mem.filled || !((List.range 128).all (fun c => (chanOf s c).failed || (chanOf s c).rate.isSome)) then s
    else setMem s { s.mem with filled := true, data := [], opens := [], poison := [], flips := [] })

end Sys2Proof.Machine
end

