-- ==== Sys2Proof/Machine/LinkOps.lean ====
section
/-!
DEFINITION. Shared operations of the optical ports (09_links.md): states (R261), undelivered frames (R263), received
headers (R254 to R258), lane maps and lane commands (R259, R260, R264, R265, R267), time measurements (R202, R272).
-/

namespace Sys2Proof.Machine

/-! ### States and undelivered frames -/

/-- Whether TIME frames run in a port's state (R272). -/
def timeRuns (st : Nat) : Bool := decide (st = psTimeCal) || decide (st = psActive)

/-- Set STATE and note when it was entered. A port that leaves ACTIVE may hand on TIME_UPSTREAM (R289), and the time base follows
no port that exchanges no TIME frames (R211). -/
def setPortState (s : State) (p st : Nat) : State :=
  let leaves := decide (portState s p = psActive) && decide (st ≠ psActive)
  let s := if timeRuns (portState s p) && !(timeRuns st) && flag s (pgPort p) fPortTimeUpstream then unfollow s else s
  let s := setFld s (pgPort p) stPortState st
  let s := setPort s p { portOf s p with since := now s, laserAt := none }
  if leaves then chooseUpstream s else s

/-- The packets that a port has not delivered, and the port with its receive buffer, queues and credits cleared (R263). -/
def clearPort (x : Port) : Port :=
  { x with replay := [], txq := [[], [], [], []], txTotal := [0, 0, 0, 0], ackTotal := [0, 0, 0, 0], txPkts := [],
           peerCredit := [0, 0, 0, 0], nakSent := false, nakDue := false, ackDue := false, rxUnits := [0, 0, 0, 0],
           rxBuf := [[], [], [], []], rxPart := [[], [], [], []], rxHead := [none, none, none, none],
           cmdOut := none, cmdAcked := false, cmdIn := none, keepSeq := false, narrowQ := [], replanLanes := [], timeMeas := 0,
           timeAt := none, badRun := 0, held := none }

/-- Route packets again: an outstanding message of this module is resent while R284 allows a resend, and otherwise waits for its end
(MSG_TIMEOUT); anything else is routed anew (R284, R287). -/
def reroute (s : State) (l : List Packet) : State :=
  l.foldl (fun s pk =>
    match s.net.out.find? (fun m => m.pk == pk) with
    | some m => if m.resends < fld s 0x30 fTransportRetry ∧ now s < m.first + 8000000 then resendMsg s m else s
    | none => emit s pk) s

/-- Return a port's unacknowledged frames to the fabric unit (R263). -/
def returnFrames (s : State) (p : Nat) : State :=
  let x := portOf s p
  reroute (setPort s p (clearPort x)) (x.txPkts.map (·.2.2))

/-- Remove the requests and the running bring-in of a port from the lane class (R265). -/
def dropLaneReqs (s : State) (p : Nat) : State :=
  setNet s { s.net with
    laneQ := s.net.laneQ.filter (fun r => r.port != p),
    laneRun := match s.net.laneRun with
      | some r => if r.port = p then none else some r
      | none => none }

/-- Enter DOWN (R261, R263). -/
def portDown (s : State) (p : Nat) : State :=
  markReports (raise (returnFrames (dropLaneReqs (setPortState s p psDown) p) p) (pgPort p) evPortLinkDown)

/-- Enter OFF (R261, R263). -/
def portOff (s : State) (p : Nat) : State := returnFrames (dropLaneReqs (setPortState s p psOff) p) p

/-- Enter LASER_CHECK. -/
def portLaserCheck (s : State) (p : Nat) : State := setPortState s p psLaser

/-- Start a retrain: lanes train again, replay buffer and SEQ kept, a pending lane command dropped (R261, R262, R268). -/
def portRetrain (s : State) (p : Nat) : State :=
  let s := noteInput (raise (bump s (pgPort p) fPortRetrainCount) (pgPort p) evPortRetrainStart) 6 1
  let s := dropLaneReqs s p
  let s := setPort s p { portOf s p with
    cmdOut := none, cmdAcked := false, cmdIn := none, ackDue := false, narrowQ := [], replanLanes := [], keepSeq := true, badRun := 0,
    timeMeas := 0, timeAt := none }
  setPortState s p psTrain

/-- ENABLE has been written (R261, R268): written 0 during TIME_CAL, the time base also drops the offset it took from the port. -/
def portEnableEffect (s : State) (p : Nat) (on : Bool) : State :=
  if on then (if portState s p = psOff then portLaserCheck s p else s)
  else if portState s p = psOff then s
  else
    let drops := decide (portState s p = psTimeCal) && flag s (pgPort p) fPortTimeUpstream
    portOff (if drops then setFld s 3 fTimeBaseOffset 0 else s) p

/-- RETRAIN has been written: no effect outside ACTIVE (R274). -/
def retrainEffect (s : State) (p : Nat) : State := if portState s p = psActive then portRetrain s p else s

/-- PORT_RESET has been written (R274): frames returned, V fields to reset, OFF or LASER_CHECK per ENABLE. -/
def portResetEffect (s : State) (p : Nat) : State :=
  let s := portOff s p
  let s := setPort (resetPage s (pgPort p) (· == .v)) p {}
  if flag s (pgPort p) fPortEnable then portLaserCheck s p else s

/-! ### Lanes -/

/-- Lanes marked dead. -/
def deadLanes (s : State) (p : Nat) : Nat := fld s (pgPort p) fPortDead

/-- Good lanes of a direction after training, ascending, up to eight. -/
def goodLanes (good : BitVec 9) (dead : Nat) : List Nat :=
  ((List.range 9).filter (fun k => good.getLsbD k && !(dead.testBit k))).take 8

/-- Spares of a map that are not dead. -/
def spareLanes (map : List Nat) (dead : Nat) : List Nat :=
  (List.range 9).filter (fun k => !(map.contains k) && !(dead.testBit k))

/-- Whether lane a has a lower corrected-symbol ratio than lane b in the last window. -/
def ratioLess (x : Port) (a b : Nat) : Bool :=
  let ra := x.ratios.getD a ⟨1, 0⟩
  let rb := x.ratios.getD b ⟨1, 0⟩
  decide (ra.corrected * rb.symbols < rb.corrected * ra.symbols)

/-- The spare of the receive direction with the lowest ratio. -/
def bestSpare (s : State) (p : Nat) : Option Nat :=
  let x := portOf s p
  (spareLanes x.rxMap (deadLanes s p)).foldl (fun a k => match a with
    | none => some k
    | some b => if ratioLess x k b then some k else some b) none

/-- Apply a lane command to a map; none where R260 answers it without applying it. The receiver's own NARROW (`own`) removes the lane
that it has marked dead (R264). -/
def applyLane (own : Bool) (map : List Nat) (dead : Nat) (spare : Option Nat) (c : LaneCmd) : Option (List Nat) :=
  if dead.testBit c.lane && !(own && c.code == 2) then none else
  match c.code with
  | 1 =>
    match spare with
    | some sp => if map.contains c.lane then some (map.map (fun l => if l = c.lane then sp else l)) else none
    | none => none
  | 2 => if map.contains c.lane then some (map.filter (· != c.lane)) else none
  | 3 => if map.contains c.lane ∨ c.lane > 8 ∨ map.length ≥ 8 then none else some (map ++ [c.lane])
  | _ => none

/-- A lane command arrives (R260). -/
def laneCommand (s : State) (p code lane : Nat) : State :=
  let x := portOf s p
  if code = 0 then s
  else if code ≤ 3 then (if x.cmdIn.isSome then s else setPort s p { x with cmdIn := some ⟨code, lane⟩, ackDue := true })
  else if code = 4 then (if x.cmdOut.isSome then setPort s p { x with cmdAcked := true } else s)
  else raise s (pgPort p) evPortCtrlBad

/-- Go on with a port's margin re-plan: its next lane, while a spare is left (R267). -/
def replanRest (s : State) (p : Nat) : State :=
  let x := portOf s p
  match x.replanLanes.tail, bestSpare s p with
  | k :: r, some _ =>
    setNet (setPort s p { x with replanLanes := k :: r }) { s.net with laneQ := s.net.laneQ ++ [⟨p, some k, true, none⟩] }
  | _, _ => setPort s p { x with replanLanes := [] }

/-- Put a request in line for the lane class: re-plan swaps stand behind every other request; a full queue drops it, and a lane whose
SWAP waits already asks for no second one (R265, R448). -/
def queueLane (s : State) (r : LaneReq) : State :=
  if !r.replan && r.lane.isSome && s.net.laneQ.any (fun q => q.port == r.port && q.lane == r.lane && !q.replan) then s
  else if s.net.laneQ.length ≥ 32 then
    let s := dropSpare s 7 (16 * r.port + r.lane.getD 0)
    if r.replan then replanRest s r.port else s
  else
    setNet s { s.net with laneQ :=
      if r.replan then s.net.laneQ ++ [r]
      else s.net.laneQ.filter (fun q => !q.replan) ++ [r] ++ s.net.laneQ.filter (fun q => q.replan) }

/-- Send the next lane command of a port: a NARROW that waits goes first (R264). -/
def nextNarrow (x : Port) : Port :=
  match x.cmdOut, x.narrowQ with
  | none, l :: r => { x with cmdOut := some ⟨2, l⟩, cmdAcked := false, narrowQ := r }
  | _, _ => x

/-- Ask for a WIDEN, or report that no spare is left (R265). -/
def askWiden (s : State) (p lane : Nat) : State :=
  if (bestSpare s p).isSome then queueLane s ⟨p, none, false, none⟩ else logSpare (raise s (pgPort p) evPortSpareExhausted) 7 (16 * p + lane) 2

/-- A SWAP of a port's margin re-plan has completed (R267): the lane just moved out returns by a further SWAP, then the next lane. -/
def replanNext (s : State) (r : LaneReq) (lane spare : Nat) : State :=
  if r.back.isNone then queueLane s ⟨r.port, some spare, true, some lane⟩ else replanRest s r.port

/-- The receive map has changed: events, counts, and what follows (R264, R265, R267). -/
def rxChanged (s : State) (p : Nat) (c : LaneCmd) (spare : Nat) (run : Option LaneReq) : State :=
  let pg := pgPort p
  let s := noteInput (bump s pg fPortSwapCount) 5 (if c.code ≤ 2 then 1 else 0)
  if c.code = 2 then
    let s := raise s pg evPortLaneNarrowed
    if (portOf s p).rxMap.length < fld s pg fPortNarrowMin then portDown s p else askWiden s p c.lane
  else
    let s := setNet (raise s pg evPortLaneSwapped) { s.net with laneRun := none }
    match run.filter (·.replan) with
    | some r => replanNext s r c.lane spare
    | none => raiseIf (bestSpare s p).isNone (spareIn s 7 (16 * p + c.lane)) 6 evHealthSpareExhausted

/-- The change of the receive map at its boundary (R260): a SWAP takes the spare with the lowest ratio, a re-plan's second SWAP the lane
that it moved out (R264, R267). -/
def rxBoundary (s : State) (p : Nat) : State :=
  let x := portOf s p
  match x.cmdOut with
  | none => s
  | some c =>
    if !x.cmdAcked then s else
    let run := if c.code = 2 then none else s.net.laneRun.filter (fun r => r.port == p)
    let sp := (run.bind (·.back)).or (bestSpare s p)
    let next := applyLane true x.rxMap (deadLanes s p) sp c
    let u := setPort s p (nextNarrow { x with cmdOut := none, cmdAcked := false, rxMap := next.getD x.rxMap })
    match next with
    | some _ => rxChanged u p c (sp.getD 0) run
    | none =>
      if c.code = 2 then u else
      let u := setNet u { u.net with laneRun := none }
      if run.any (·.replan) then replanRest u p else u

/-- The change of the transmit map at its boundary, after its CMD_ACK has gone out (R260). -/
def txBoundary (s : State) (p : Nat) : State :=
  let x := portOf s p
  match x.cmdIn, x.ackDue with
  | some c, false =>
    let dead := deadLanes s p
    setPort s p { x with cmdIn := none, txMap := (applyLane false x.txMap dead (spareLanes x.txMap dead).head? c).getD x.txMap }
  | _, _ => s

/-- Start the bring-in at the head of the lane class (R265). -/
def bringInLane (s : State) : State :=
  match s.net.laneRun, s.net.laneQ with
  | none, r :: rest =>
    let x := portOf s r.port
    if x.cmdOut.isSome ∨ !(portActive s r.port) then s else
    let s := setNet s { s.net with laneQ := rest }
    match r.lane, bestSpare s r.port with
    | some l, some _ => setNet (setPort s r.port { x with cmdOut := some ⟨1, l⟩ }) { s.net with laneRun := some r }
    | none, some sp =>
      if x.rxMap.length ≥ 8 then s
      else setNet (setPort s r.port { x with cmdOut := some ⟨3, sp⟩ }) { s.net with laneRun := some r }
    | _, none =>
      if r.replan then replanRest s r.port else
      logSpare (raise s (pgPort r.port) evPortSpareExhausted) 7 (16 * r.port + r.lane.getD 0) 2
  | _, _ => s

/-- A lane of the receive map has failed: it is narrowed out at once. A SWAP that awaits its boundary is abandoned, and one for another
lane is asked for again (R264, R268). -/
def narrowOut (s : State) (p lane : Nat) : State :=
  let x := portOf s p
  let wait := { x with narrowQ := x.narrowQ ++ [lane] }
  match x.cmdOut, s.net.laneRun with
  | some c, some r =>
    if r.port = p ∧ c.code ≠ 2 then
      let s := setNet (setPort s p (nextNarrow { wait with cmdOut := none, cmdAcked := false })) { s.net with laneRun := none }
      if c.lane ≠ lane then queueLane s r else if r.replan then replanRest s p else s
    else setPort s p (nextNarrow wait)
  | _, _ => setPort s p (nextNarrow wait)

/-- Whether a port in training has too few good lanes in a direction (R261). -/
def tooNarrow (s : State) (p : Nat) : Bool :=
  let x := portOf s p
  let few (g : BitVec 9) : Bool := decide ((goodLanes g (deadLanes s p)).length < fld s (pgPort p) fPortNarrowMin)
  2 ≤ portState s p && portState s p ≤ 5 && (few x.txGood || few x.rxGood)

/-- A lane fails hard (R264, R265, R266, R268): marked dead, its waiting requests dropped, narrowed out of a map in use. -/
def laneFails (s : State) (p lane : Nat) : State :=
  let s := setFld s (pgPort p) fPortDead (deadLanes s p ||| 2 ^ lane)
  let mine (q : LaneReq) : Bool := q.port == p && q.lane == some lane
  let again := s.net.laneQ.any (fun q => mine q && q.replan)
  let s := setNet s { s.net with laneQ := s.net.laneQ.filter (fun q => !(mine q)) }
  let x := portOf s p
  let gone := BitVec.ofNat 9 (2 ^ lane)
  let s := setPort s p { x with txGood := x.txGood &&& ~~~gone, rxGood := x.rxGood &&& ~~~gone }
  let s := if again then replanRest s p else s
  if tooNarrow s p then portDown s p
  else if portState s p < psParam ∨ psActive < portState s p then s
  else if (portOf s p).rxMap.contains lane then narrowOut s p lane
  else if (bestSpare s p).isNone then raise s (pgPort p) evPortSpareExhausted
  else s

/-- A window of lane ratios ends (R264, R276). -/
def laneWindow (s : State) (p : Nat) (ratios : List LaneRatio) : State :=
  let pg := pgPort p
  let lim := fld s pg fPortLaneSwapLimit
  let r (k : Nat) : LaneRatio := ratios.getD k ⟨0, 0⟩
  let bad (k : Nat) : Bool := decide ((r k).symbols < (r k).corrected * 2 ^ lim)
  let ser (k : Nat) : Nat := if (r k).corrected = 0 ∨ (r k).symbols = 0 then 0xFF else min 0xFE ((r k).symbols / (r k).corrected).log2
  let s := setPort s p { portOf s p with ratios := (List.range 9).map r }
  let s := bumpBy s pg fPortCorrSymCount ((List.range 9).foldl (fun a k => a + (r k).corrected) 0)
  let s := setFld s pg fPortDegraded ((List.range 9).foldl (fun a k => if bad k then a + 2 ^ k else a) 0)
  let s := setWide s pg wLaneSer (BitVec.ofNat 256 ((List.range 9).foldl (fun a k => a + ser k * 2 ^ (8 * k)) (0xFFFFFF * 2 ^ 72)))
  if flag s pg fPortSwapEn && (bestSpare s p).isSome then
    ((portOf s p).rxMap.filter bad).foldl (fun s k => queueLane s ⟨p, some k, false, none⟩) s
  else s

/-- REPLAN has been written, or the manager starts it (R267). -/
def portReplanEffect (s : State) (p : Nat) : State :=
  if portState s p ≠ psActive ∨ (portOf s p).replanLanes ≠ [] then s else
  let x := portOf s p
  match bestSpare s p with
  | none => s
  | some _ =>
    let s := setPort s p { x with replanLanes := x.rxMap }
    match x.rxMap with
    | [] => s
    | k :: _ => queueLane s ⟨p, some k, true, none⟩

/-! ### Received frames -/

/-- Whether a replayed frame's sequence number lies at or before an acknowledgement, modulo 4,096. -/
def ackedBy (seq ack : Nat) : Bool := decide ((ack + 4096 - seq) % 4096 < 2048)

/-- Use ACK: acknowledged frames leave the replay buffer, and delivered packets are forgotten (R258). -/
def useAck (x : Port) (ack : Nat) : Port :=
  let done := x.replay.filter (fun f => ackedBy f.seq ack)
  let tot := done.foldl (fun t f => t.set f.vc (four t f.vc + f.payload.length / 16)) x.ackTotal
  { x with replay := x.replay.filter (fun f => !(ackedBy f.seq ack)), ackTotal := tot,
           txPkts := x.txPkts.filter (fun e => decide (four tot e.1 < e.2.1)) }

/-- Resend the replay buffer in order; a frame that reaches REPLAY_LIMIT starts a retrain of an ACTIVE port (R256, R258, R262). -/
def replayAll (s : State) (p : Nat) : State :=
  let x := portOf s p
  let r := x.replay.map (fun f => { f with replays := f.replays + 1 })
  let sent := x.replay.foldl (fun x f => transmit x (now s) 0 f.vc f.seq f.payload) x
  let s := bumpBy (setPort s p { sent with replay := r, lastData := now s }) (pgPort p) fPortReplayCount r.length
  if r.any (fun f => decide (fld s (pgPort p) fPortReplayLimit ≤ f.replays)) && decide (portState s p = psActive) then portRetrain s p
  else s

/-- Use a frame's header: ACK, NAK, credits and lane command (R254, R255). -/
def useHeader (s : State) (p : Nat) (f : Frame) : State :=
  let x := useAck (portOf s p) f.ack.toNat
  let x := { x with peerCredit := x.peerCredit.set f.crVc.toNat f.crCount.toNat }
  let s := laneCommand (setPort s p x) p f.laneCmd.toNat f.laneArg.toNat
  portPump (if f.nak then replayAll s p else s) p

/-- Whether a DATA frame would overrun the receive buffer of its channel (R257). -/
def overruns (s : State) (p : Nat) (f : Frame) : Bool :=
  let x := portOf s p
  decide (64 * four x.rxShare f.vc.toNat < (x.rxBuf.getD f.vc.toNat []).length / 16 + f.fill.toNat)

/-- Deliver the units in use of a DATA frame in sequence: they enter the receive buffer, from which the fabric unit takes them
(R257, R258, R279). -/
def deliver (s : State) (p : Nat) (f : Frame) : State :=
  let x := portOf s p
  let vc := f.vc.toNat
  fabricTake (setPort s p { x with
    rxNext := (x.rxNext + 1) % 4096, nakSent := false, nakDue := false,
    rxBuf := x.rxBuf.set vc (x.rxBuf.getD vc [] ++ f.payload.take (16 * f.fill.toNat)) }) p vc

/-- Ask for a replay: the next header carries NAK, once per expected SEQ (R258). -/
def askReplay (x : Port) : Port := if x.nakSent then x else { x with nakSent := true, nakDue := true }

/-- Discard a frame (R255, R258): counted, a replay asked for; four codewords in a row that fail marker and decode retrain an ACTIVE
port (R262). -/
def discardFrame (s : State) (p : Nat) (why : BadFrame) : State :=
  let pg := pgPort p
  let s := bump s pg fPortCrcErrCount
  let lost := match why with
    | .uncorrectable _ => true
    | _ => false
  let s := if lost then bump s pg fPortUncorrCwCount else s
  let run := if why = .uncorrectable false then (portOf s p).badRun + 1 else 0
  let s := setPort s p { askReplay (portOf s p) with badRun := run }
  if run ≥ 4 ∧ portState s p = psActive then portRetrain s p else s

/-- Whether frames are exchanged in the port's state: PARAM, TIME_CAL and ACTIVE (R261). -/
def receiving (s : State) (p : Nat) : Bool :=
  pageServed s (pgPort p) && decide (psParam ≤ portState s p) && decide (portState s p ≤ psActive)

/-- Send a frame that carries no DATA: codewords follow one another without gaps (R252, R254). -/
def sendIdle (s : State) (p : Nat) : State :=
  let x := portOf s p
  setPort s p (transmit x (now s) 1 0 x.nextSeq [])

/-- After a received codeword the port has sent one of its own: DATA where it could, else an IDLE frame (R252, R258, log 78). -/
def keepLine (before after : State) (p : Nat) : State :=
  if receiving after p && decide ((portOf after p).line.length = (portOf before p).line.length) then sendIdle after p else after

/-- What a codeword on the lanes does in a port that exchanges frames: a bad one is discarded (R255), a sound one is used by `use`, and the
port's own codeword follows. -/
def onCodeword (s : State) (p : Nat) (w : LaneWord) (use : Frame → State → State) : State :=
  if !(receiving s p) then s else
  keepLine s (match hear (portOf s p).rxMap w with
    | .error why => discardFrame s p why
    | .ok f => use f (setPort s p { portOf s p with badRun := 0 })) p

/-- Use a DATA frame (R255, R257, R258): an overrun is discarded; the header of any other is used, and the units are delivered where SEQ is
the next expected. -/
def useData (p : Nat) (f : Frame) (s : State) : State :=
  if f.typ ≠ 0 ∨ !(timeRuns (portState s p)) then s else
  let inOrder := decide (f.seq.toNat = (portOf s p).rxNext)
  if inOrder && overruns s p f then discardFrame s p .overrun else
  let u := useHeader s p f
  if !(timeRuns (portState u p)) then u
  else if inOrder then deliver u p f
  else setPort u p (askReplay (portOf u p))

/-! ### Time -/

/-- Magnitude of SYNC_TOL in 1/16 ns. -/
def syncTol (s : State) : Int := 16 * (fld s 3 fTimeBaseSyncTol : Nat)

/-- Whether a joining module may make the single forward step of its join: it lags by more than SYNC_TOL and no bell is pending
(R202). -/
def mayStep (s : State) (off : Int) : Bool :=
  decide (jstate s = jsJoining) && !s.net.stepped && decide (off < -(syncTol s)) && (List.range 4).all (fun d =>
    !(bellPending s d) && (dispOf s d).lists.isEmpty)

/-- Add to the time counter; the copies of it keep their count until their next correction (R201, log 76). -/
def stepTime (s : State) (n : Nat) : State :=
  { s with time := s.time + BitVec.ofNat 64 n,
           wardOff := (List.range 36).foldl (fun m k =>
             mapSet (fun _ => (0 : Int)) k (mapGet (fun _ => (0 : Int)) k m - n) m) s.wardOff }

/-- The time base takes an offset from the upstream port (R202, R211, R212); SYNC_LOST is reported to the group manager (log 26). -/
def timeOffset (s : State) (off : Int) : State :=
  let s := setFlag (setFld s 3 fTimeBaseOffset (BitVec.ofInt 32 off).toNat) 3 stTimeBaseGroupSync true
  if mayStep s off then
    let u := stepTime s (-off / 16).toNat
    let w := wideOf [s.time.toNat % 2 ^ 32, s.time.toNat / 2 ^ 32, u.time.toNat % 2 ^ 32, u.time.toNat / 2 ^ 32]
    raise (setWide (setNet u { u.net with slew := 0, stepped := true }) 3 wLastStep w) 3 evTimeBaseTimeStepped
  else
  let inTol := decide (off.natAbs ≤ (syncTol s).natAbs)
  let run : Int := if inTol then (if s.net.offRuns < 0 then 1 else s.net.offRuns + 1)
    else (if s.net.offRuns > 0 then -1 else s.net.offRuns - 1)
  let s := setFlag s 3 stTimeBaseSynced inTol
  let lostNow := decide (run = -16) && !s.net.syncLost
  let backNow := decide (run = 16) && s.net.syncLost
  let lost := (s.net.syncLost || lostNow) && !backNow
  let s := setNet s { s.net with offRuns := run, syncLost := lost, slew := if lost then 0 else -off }
  let s := if lostNow then report (raise s 3 evTimeBaseSyncLost) 3 [evTimeBaseSyncLost, off.natAbs] else s
  raiseIf backNow s 3 evTimeBaseSyncRegained

/-- Payload of the TIME frame that a port sends at a time: echoes, its full transmit time and this module's identifier (R271). -/
def timePayload (s : State) (x : Port) : List Byte :=
  leBytes 8 x.echoTx ++ leBytes 8 x.echoRx ++ leBytes 8 (16 * now s) ++ leBytes 2 (moduleId s).toNat ++ List.replicate 598 0

/-- Whether TS_INTERVAL has passed since the port's last TIME frame (R272). -/
def timeDue (s : State) (p : Nat) : Bool :=
  match (portOf s p).timeAt with
  | none => true
  | some t => decide (t + 1000 * fld s (pgPort p) fPortTsInterval ≤ now s)

/-- A TIME frame is received (R271, R272). -/
def timeFrame (s : State) (p : Nat) (f : Frame) (arrival : Nat) : State :=
  let w (off : Nat) : Nat := leNat ((f.payload.drop off).take 8)
  let t1 : Int := w 0
  let t2 : Int := w 8
  let t3 : Int := w 16
  let t4 : Int := arrival
  let s := setPort s p { portOf s p with echoTx := w 16, echoRx := arrival }
  if w 0 = 0 then s else
  let delay := ((t4 - t1) - (t3 - t2)) / 2
  let off := ((t4 - t3) - (t2 - t1)) / 2
  let s := setWide s (pgPort p) wLinkDelay ((BitVec.ofInt 64 delay).zeroExtend 256)
  let s := if flag s (pgPort p) fPortTimeUpstream then timeOffset s off else s
  let x := portOf s p
  let s := setPort s p { x with timeMeas := x.timeMeas + 1 }
  if portState s p = psTimeCal ∧ x.timeMeas + 1 ≥ 16 then
    markReports (raise (portPump (setPortState s p psActive) p) (pgPort p) evPortLinkUp)
  else s

/-- Use a TIME frame (R272). -/
def useTime (p : Nat) (arrival : Nat) (f : Frame) (s : State) : State :=
  if f.typ ≠ 2 ∨ !(timeRuns (portState s p)) then s else
  let u := useHeader s p f
  if timeRuns (portState u p) then timeFrame u p f arrival else u

/-! ### Training (R261, R262) -/

/-- The PARAM values that a port reports of itself on entry to PARAM (R257, R261). -/
def ownParam (s : State) (p : Nat) : Partner :=
  ⟨moduleId s, BitVec.ofNat 4 p, [fPortShare0, fPortShare1, fPortShare2, fPortShare3].map (fun f => BitVec.ofNat 6 (fld s (pgPort p) f)),
    BitVec.ofNat 12 (portOf s p).nextSeq⟩

/-- The partner of a finished PARAM exchange is taken; another partner than before drops the replay buffer, and SEQ restarts at the new
base in both directions (R261, R262). -/
def takePartner (s : State) (p : Nat) (q : Partner) : State :=
  let x := portOf s p
  let me := some (q.id.toNat, q.port.toNat)
  let changed := x.partner.isSome && x.partner != me
  let s := if changed then raise (returnFrames s p) (pgPort p) evPortPartnerChanged else s
  let x := portOf s p
  let shares := q.shares.map (·.toNat)
  let base := (x.paramOut.map (·.seqBase.toNat)).getD x.nextSeq
  let s := setPort s p { x with
    partner := me, peerShare := (List.range 4).map (fun i => shares.getD i 0), nextSeq := if changed then base else x.nextSeq,
    rxNext := if x.keepSeq then x.rxNext else q.seqBase.toNat, keepSeq := false, held := none, timeMeas := 0 }
  let s := setWide s (pgPort p) wPartner (wideOf [q.id.toNat + q.port.toNat * 2 ^ 16,
    four shares 0 + four shares 1 * 2 ^ 8 + four shares 2 * 2 ^ 16 + four shares 3 * 2 ^ 24])
  setPortState s p psTimeCal

/-- LOOPBACK has been written: written 1 it lets a port that its own module's identifier holds in PARAM go on (R261). -/
def loopbackEffect (s : State) (p : Nat) (on : Bool) : State :=
  match (portOf s p).held with
  | some q => if on && decide (portState s p = psParam) then takePartner s p q else s
  | none => s

end Sys2Proof.Machine
end

