-- ==== Sys2Proof/Machine/GroupOps.lean ====
section
/-!
DEFINITION. Shared operations of the group (10_collectives.md): the group manager's routes and updates (R288, R290,
R293, R295), joins (R291), and what an update does when its bell rings.
-/

namespace Sys2Proof.Machine

/-! ### Routes of the group manager (R288) -/

/-- Reports of a module, as the group manager knows them. -/
abbrev Reports := SMap (List (BitVec 32))

/-- Port reports of a module. -/
def reportsFor (r : Reports) (m : Nat) : List (BitVec 32) := mapGet (fun _ => ([] : List (BitVec 32))) m r

/-- Partner of a module's port when the port is ACTIVE. -/
def reportPeer (w : BitVec 32) : Option Nat :=
  if w.getLsbD 8 && decide (w.toNat / 2 ^ 16 ≠ 0) then some (w.toNat / 2 ^ 16) else none

/-- Parent of each module in a tree that grows from the root, level by level, lowest identifier first. -/
def growTree (r : Reports) : Nat → List (Nat × Nat) → List (Nat × Nat)
  | 0, t => t
  | n + 1, t =>
    let next := (r.map (·.1)).filterMap (fun m =>
      if t.any (fun e => e.1 == m) then none else
      (t.find? (fun e => (reportsFor r e.1).any (fun w => reportPeer w == some m)
        && (reportsFor r m).any (fun w => reportPeer w == some e.1))).map (fun e => (m, e.1)))
    if next.isEmpty then t else growTree r n (t ++ next)

/-- The tree of routes rooted at the group manager. -/
def routeTree (r : Reports) (root : Nat) : List (Nat × Nat) := growTree r r.length [(root, root)]

/-- Modules from one up to the root. -/
def treePath (t : List (Nat × Nat)) (root : Nat) : Nat → Nat → List Nat
  | 0, m => [m]
  | n + 1, m =>
    if m = root then [m] else
    match t.find? (fun e => e.1 == m) with
    | some e => m :: treePath t root n e.2
    | none => [m]

/-- Next module from `m` toward `d` along the tree: down where `m` lies above `d`, else up. -/
def treeNext (t : List (Nat × Nat)) (root m d : Nat) : Option Nat :=
  let path := treePath t root t.length d
  match path.findIdx? (· == m) with
  | some 0 => none
  | some i => path[i - 1]?
  | none => if m = root then none else (t.find? (fun e => e.1 == m)).map (·.2)

/-- The route entry of module `m` for destination `d`: the lowest-numbered port to the next module, no alternate. -/
def routeFor (r : Reports) (t : List (Nat × Nat)) (root m d : Nat) : BitVec 16 :=
  if !(t.any (fun e => e.1 == d)) then 0 else
  match treeNext t root m d with
  | none => 0
  | some x => match (reportsFor r m).findIdx? (fun w => reportPeer w == some x) with
    | some p => BitVec.ofNat 16 (p + 256)
    | none => 0

/-- Route entries of module `m` that differ between two sets of reports, or all that are valid. -/
def routeDelta (old new : Reports) (root m : Nat) (full : Bool) : List (BitVec 16 × BitVec 16) :=
  let t0 := routeTree old root
  let t1 := routeTree new root
  (new.map (·.1)).filterMap (fun d =>
    if d = m then none else
    let e := routeFor new t1 root m d
    if full then (if e = 0 then none else some (BitVec.ofNat 16 d, e))
    else if e = routeFor old t0 root m d then none else some (BitVec.ofNat 16 d, e))

/-! ### Updates (R293, R295) -/

/-- The epoch after another: 0xFFFF is followed by 1 (R290). -/
def nextEpoch (e : BitVec 16) : BitVec 16 := if e = 0xFFFF then 1 else e + 1

/-- A table after an update. -/
def applyEntries (m : SMap (BitVec 32)) (u : MemberUpd) : SMap (BitVec 32) :=
  u.entries.foldl (fun m e => mapSet (fun _ => (0 : BitVec 32)) e.1 e.2 m) (if u.full then [] else m)

/-- The table as it stands after every update under way. -/
def plannedMembers (s : State) : SMap (BitVec 32) := s.net.updates.foldl applyEntries s.net.members

/-- The epoch after every update under way. -/
def plannedEpoch (s : State) : BitVec 16 := (s.net.updates.getLast?.map (·.epoch)).getD (epochNow s)

/-- The bytes of an update (R295). -/
def updateBytes (u : MemberUpd) : List Byte :=
  let raw := leBytes 2 u.epoch.toNat ++ leBytes 2 (if u.full then 1 else 0) ++ leBytes 4 u.entries.length
    ++ leBytes 4 u.routes.length ++ leBytes 4 0 ++ leBytes 8 u.bell
    ++ (u.entries.map (fun e => leBytes 4 e.1 ++ leBytes 4 e.2.toNat)).flatten
    ++ (u.routes.map (fun e => leBytes 2 e.1.toNat ++ leBytes 2 e.2.toNat)).flatten
  raw ++ List.replicate ((16 - raw.length % 16) % 16) 0

/-- Send an update to a member, in packets of at most 4 KiB. -/
def sendUpdate (s : State) (dst : BitVec 16) (u : MemberUpd) : State :=
  let b := updateBytes u
  ((pieces 4096 (b.length / 4096 + 1) b).zipIdx).foldl (fun s p =>
    sendControl s dst kMemberUpdate 0 (4096 * p.2) b.length p.1) s

/-- Entries of a whole table. -/
def wholeTable (s : State) (m : SMap (BitVec 32)) : List (Nat × BitVec 32) := (listedRanks s m).map (fun r => (r, entryIn s m r))

/-- The reports of the group with this module's own. -/
def ownReports (s : State) (r : Reports) : Reports := mapSet (fun _ => ([] : List (BitVec 32))) (moduleId s).toNat (portReports s) r

/-! ### The group frequency (R426 to R428) -/

/-- The frequency code in force, or the scheduled one. -/
def freqTarget (s : State) : Nat :=
  match s.power.pend with
  | some p => p.code
  | none => fld s 4 fPowerFGroup

/-- Dies that are awake. -/
def awakeDies (s : State) : List Nat := (List.range 4).filter (dieAwake s)

/-- Keep a FREQ_SET until its bell: when the code rises, the rails of the awake dies slew first (R427). -/
def keepFreq (s : State) (p : FreqSet) : State :=
  let rise := decide (fld s 4 fPowerFGroup < p.code)
  setFlag { s with power := { s.power with pend := some p, slewing := if rise then awakeDies s else [], set := true } } 4 stPowerFreqPending true

/-- A FREQ_SET of the group manager to members, taken by itself as well (R426, R428). -/
def sendFreq (s : State) (code bell : Nat) (dsts : List (BitVec 16)) : State :=
  let seq := s.power.seqOut + 1
  let s := keepFreq { s with power := { s.power with seqOut := seq, holdSince := none } } ⟨code, bell, seq⟩
  dsts.foldl (fun s m => sendControl s m kPower seq bell (3 + 256 * code) []) s

/-- The group manager sends a change: a new epoch, the changed entries, the changed routes, a bell at least EPOCH_LEAD
ahead; a module that joins receives the whole table (R288, R293; log 31). -/
def issueUpdate (s : State) (entries : List (Nat × BitVec 32)) (reports : Reports) (joiner : Option (BitVec 16)) : State :=
  let old := s.net.reportsOf
  let new := ownReports s reports
  let root := (moduleId s).toNat
  let lead := now s + fld s 0x31 fMembershipEpochLead
  let bell := s.net.updates.foldl (fun b u => max b u.bell) lead
  let epoch := nextEpoch (plannedEpoch s)
  let own : MemberUpd := ⟨epoch, bell, false, entries, routeDelta old new root root false⟩
  let table := applyEntries (plannedMembers s) own
  let s := setNet s { s.net with updates := s.net.updates ++ [own], reportsOf := new, reportsDirty := false }
  let s := (otherMembers s table).foldl (fun s m =>
    if joiner = some m then sendUpdate s m ⟨epoch, bell, true, wholeTable s table, routeDelta old new root m.toNat true⟩
    else sendUpdate s m { own with routes := routeDelta old new root m.toNat false }) s
  if s.power.set then sendFreq s (freqTarget s) bell (otherMembers s table) else s

/-- The whole table and routes for a member that lost step (R293). -/
def answerSync (s : State) (m : BitVec 16) : State :=
  let bell := s.net.updates.foldl (fun b u => max b u.bell) (now s + fld s 0x31 fMembershipEpochLead)
  sendUpdate s m ⟨plannedEpoch s, bell, true, wholeTable s (plannedMembers s),
    routeDelta s.net.reportsOf s.net.reportsOf (moduleId s).toNat m.toNat true⟩

/-- Read an assembled update; none where it breaks R295: its length is that of its entries, padded with zero to 16 bytes. -/
def readUpdate (b : List Byte) : Option MemberUpd :=
  let n (off k : Nat) : Nat := leNat ((b.drop off).take k)
  let nm := n 4 4
  let nr := n 8 4
  let used := 24 + 8 * nm + 4 * nr
  if b.length ≠ (used + 15) / 16 * 16 ∨ (b.drop used).any (· != 0) ∨ n 2 1 > 1 ∨ n 3 1 ≠ 0 ∨ n 12 4 ≠ 0 ∨ n 0 2 = 0 then none else
  let es := (List.range nm).map (fun i => (n (24 + 8 * i) 4, BitVec.ofNat 32 (n (28 + 8 * i) 4)))
  let rs := (List.range nr).map (fun i => (BitVec.ofNat 16 (n (24 + 8 * nm + 4 * i) 2), BitVec.ofNat 16 (n (26 + 8 * nm + 4 * i) 2)))
  if es.all (fun e => decide (e.1 < 16640) && decide (e.2.toNat < 2 ^ 19) && decide (entryState e.2 ≤ 4))
      && rs.all (fun r => decide (r.2.toNat < 1024)) then
    some ⟨BitVec.ofNat 16 (n 0 2), n 16 8, decide (n 2 1 = 1), es, rs⟩
  else none

/-- Set a route entry in all four tables (R286). -/
def setRoute (s : State) (dst e : BitVec 16) : State :=
  setNet s { s.net with routes := mapSet (fun _ => (0 : BitVec 16)) dst.toNat e s.net.routes }

/-! ### Heartbeats (R292) -/

/-- HB_INTERVAL in ticks. -/
def hbTicks (s : State) : Nat := fld s 0x31 fMembershipHbInterval * 1000
/-- HB_MISS intervals in ticks. -/
def hbLimit (s : State) : Nat := fld s 0x31 fMembershipHbMiss * hbTicks s

/-! ### Joins (R291) -/

/-- The strap role of R488: 0 standalone, 1 member, 2 group manager, 3 standby member. -/
def strapRole (s : State) : Nat := fld s 1 fStrapsRole

/-- Former rank as JOIN_REQ carries it: 0xFFFF when none; a member's rank is never 0 (R278, R295, R388). -/
def formerRank (s : State) : Nat :=
  if fld s 0x31 fMembershipRank = 0 then 0xFFFF else fld s 0x31 fMembershipRank

/-- A result of a join: JOIN_RESP with the epoch in force, its code and rank (R291, R295). -/
def sendJoinResp (s : State) (dst : BitVec 16) (code rank : Nat) : State :=
  sendControl s dst kJoinResp 0 (epochNow s).toNat (code + rank * 2 ^ 16) []

/-- First rank of a range that no entry holds. -/
def freeRank (m : SMap (BitVec 32)) (lo n : Nat) : Option Nat := ((List.range n).map (lo + ·)).find? (fun r => !(mapHas r m))

end Sys2Proof.Machine
end

