-- ==== Sys2Proof/Machine/CollOps.lean ====
section
/-!
DEFINITION. Shared operations of collectives and of the exchange engine (R296 to R309).
-/

namespace Sys2Proof.Machine

/-! ### Status codes (R302) -/

/-- DONE (R302). -/
def csDone : Nat := 1
/-- ABORTED_EPOCH (R302). -/
def csEpoch : Nat := 2
/-- ABORTED_CMD (R302). -/
def csCmd : Nat := 3
/-- MISMATCH (R302). -/
def csMismatch : Nat := 4
/-- MEM_ERR (R302). -/
def csMemErr : Nat := 5
/-- NO_ROUTE (R302). -/
def csNoRoute : Nat := 6
/-- ABORTED_PEER (R302). -/
def csPeer : Nat := 7

/-! ### Descriptors -/

/-- The fields of a collective descriptor (R296). -/
def readColl (v : Nat) : CollDesc :=
  let w (off : Nat) : Nat := bitsOf v (8 * off) 32
  let q (off : Nat) : Nat := bitsOf v (8 * off) 64
  { op := bitsOf (w 0) 0 4, red := bitsOf (w 0) 4 4, wire := bitsOf (w 0) 8 4, out := bitsOf (w 0) 12 4,
    id := BitVec.ofNat 16 (bitsOf (w 0) 16 16), rankset := bitsOf (w 4) 0 8, cap := bitsOf (w 4) 8 6, src := q 8,
    dst := q 0x10, len := q 0x18, table := q 0x20, srcScl := q 0x28, srcSide := q 0x30, rowK := bitsOf (w 0x38) 0 16,
    ts := BitVec.ofNat 32 (w 0x3C), startCtr := q 0x40, startTgt := BitVec.ofNat 64 (q 0x48), doneCtr := q 0x50,
    ledger := q 0x58, tagStep := BitVec.ofNat 32 (w 0x60), tagShard := BitVec.ofNat 32 (w 0x64), status := q 0x68 }

/-- Whether a narrow block format is on the wire. -/
def wireBlocks (d : CollDesc) : Bool := decide (d.wire = 1) || decide (d.wire = 2)

/-- A buffer address: 16-byte aligned, in bulk memory. -/
def bufOk (a : Nat) : Bool := decide (a % 16 = 0) && decide (a < bulkEnd)

/-- An 8-byte counter address, or zero for none. -/
def ctrOk (a : Nat) : Bool := decide (a = 0) || (decide (a % 8 = 0) && decide (a + 8 ≤ bulkEnd))

/-- Codes that the OP uses (R296, R297). -/
def collCodesOk (d : CollDesc) : Bool :=
  decide (d.op ≤ 5) && (if d.op ≤ 1 then decide (d.red ≤ 3) else decide (d.red = 0))
    && (if d.op = 2 then decide (d.wire ≤ 4) else decide (d.wire = 0))
    && (if d.op = 2 then (if d.wire = 0 then decide (d.out = 0) else decide (d.out ≤ 2))
        else if d.op = 5 then decide (d.out ≤ 1) else decide (d.out = 0))
    && decide (d.id ≠ 0)

/-- Ranges of LEN, CAP, ROW_K and TSCALE (R296, R297). -/
def collRangesOk (d : CollDesc) : Bool :=
  decide (d.cap ≤ 32) && decide (d.len % 16 = 0)
    && (decide (d.op = 0) || decide (d.op = 3) || decide (d.len = 0))
    && (!(wireBlocks d) || (decide (d.rowK % 32 = 0) && decide (32 ≤ d.rowK) && decide (d.rowK ≤ 65504)))
    && (decide (d.wire = 0) || tensorScaleOk d.ts)

/-- Addresses in bulk memory and aligned (R296, R297). -/
def collAddrsOk (d : CollDesc) : Bool :=
  bufOk d.src && bufOk d.dst && bufOk d.status && ctrOk d.startCtr && ctrOk d.doneCtr
    && (decide (d.op = 0) || (bufOk d.table && (decide (d.op ≤ 3) || decide (d.table % 64 = 0))))
    && (!(wireBlocks d) || bufOk d.srcScl) && (!(wireBlocks d && decide (d.cap > 0)) || bufOk d.srcSide)
    && (decide (d.op ≠ 2) || bufOk d.ledger)
    && (decide (d.op ≠ 0) || decide (d.src + d.len ≤ bulkEnd ∧ d.dst + d.len ≤ bulkEnd))
    && (decide (d.op ≠ 3) || decide (d.dst + d.len ≤ bulkEnd))

/-- Reserved fields of a descriptor are zero. -/
def collRsvdOk (v : Nat) : Bool :=
  decide (bitsOf v (8 * 4 + 14) 18 = 0) && decide (bitsOf v (8 * 0x38 + 16) 16 = 0) && decide (bitsOf v (8 * 0x70) 128 = 0)

/-- The ranks of a rank set in position order; none where it is not defined (R296, R316). -/
def ranksOf (s : State) (set : Nat) : Option (List Nat) :=
  if set = 0 then some (if fld s 0x31 stMembershipJstate = jsUnjoined then [0] else workingRanks s)
  else mapFind set s.net.ranksets

/-- This module's rank. -/
def myRank (s : State) : Nat := fld s 0x31 fMembershipRank

/-- The exchange block, where it obeys R305. -/
def readExch (v : Nat) : Option ExchBlk :=
  let w (off : Nat) : Nat := bitsOf v (8 * off) 32
  let q (off : Nat) : Nat := bitsOf v (8 * off) 64
  let x : ExchBlk := ⟨bitsOf (w 0) 0 20, bitsOf (w 4) 0 4, bitsOf (w 4) 16 13, 16 * bitsOf (w 8) 0 13, bitsOf (w 8) 13 2,
    bitsOf (w 0xC) 0 24, q 0x10, q 0x18, q 0x20, q 0x28, q 0x30⟩
  let rsvd := w 0 < 2 ^ 20 ∧ bitsOf (w 4) 4 12 = 0 ∧ w 4 < 2 ^ 29 ∧ w 8 < 2 ^ 15 ∧ w 0xC < 2 ^ 24 ∧ q 0x38 = 0
  let ranges := 1 ≤ x.topk ∧ x.topk ≤ 8 ∧ 1 ≤ x.e ∧ x.e ≤ 4096 ∧ 16 ≤ x.rowb ∧ x.rowb ≤ 65536 ∧ 1 ≤ x.recvRows ∧ x.rowFmt ≤ 1
  let addrs := bufOk x.route && bufOk x.e2m && (decide (x.caps = 0) || bufOk x.caps) && bufOk x.info && bufOk x.drop
  if rsvd ∧ ranges ∧ addrs then some x else none

/-- COLL_ARM's effect (R297); the start counter is read and watched as in R192, and a descriptor whose counter cannot be read is
refused (log 76). -/
def armColl (s : State) (a : Nat) : State :=
  let bad (s : State) : State := raise s 0x30 evTransportCollBad
  if a % 64 ≠ 0 ∨ a + 128 > bulkEnd ∨ s.net.colls.length ≥ 256 then bad s else
  let r := memReadNat s a 128
  match r.2 with
  | none => bad r.1
  | some v =>
    let d := readColl v
    let member := match ranksOf s d.rankset with
      | some l => l.contains (myRank s)
      | none => false
    if !(collCodesOk d && collRangesOk d && collAddrsOk d && collRsvdOk v && member) then bad r.1
    else
      let y : State × Option (Option ExchBlk) :=
        if d.op < 4 then (r.1, some none)
        else
          let y := memReadNat r.1 d.table 64
          (y.1, (y.2.bind readExch).map some)
      match y.2 with
      | none => bad y.1
      | some x =>
        let z := startNow y.1 d.startCtr d.startTgt
        match z.2 with
        | none => bad z.1
        | some b => setNet z.1 { z.1.net with colls := z.1.net.colls ++ [{ desc := d, xblk := x, started := b }] }

/-! ### Finding and changing collectives -/

/-- The running collective of an identifier. -/
def collAt (s : State) (id : BitVec 16) : Option Coll := s.net.colls.find? (fun c => c.desc.id == id && c.running && c.ending.isNone)

/-- Change the first collective of an identifier that has not ended. -/
def collMap (f : Coll → Coll) (id : BitVec 16) : List Coll → List Coll
  | [] => []
  | c :: r => if c.desc.id = id ∧ c.ending = none then f c :: r else c :: collMap f id r

/-- Change a collective. -/
def collUpd (s : State) (id : BitVec 16) (f : Coll → Coll) : State :=
  setNet s { s.net with colls := collMap f id s.net.colls }

/-- Change what a collective knows of a position. -/
def peerUpd (s : State) (id : BitVec 16) (q : Nat) (f : Peer1 → Peer1) : State :=
  collUpd s id (fun c => { c with peers := c.peers.map (fun p => if p.pos = q then f p else p) })

/-- Module identifier at a position. -/
def posModule (s : State) (c : Coll) (q : Nat) : BitVec 16 := entryId (memberEntry s (c.ranks.getD q 0))

/-- The position of a module in a collective. -/
def posOf (s : State) (c : Coll) (m : BitVec 16) : Option Nat :=
  (List.range c.ranks.length).find? (fun q => posModule s c q == m)

/-- Number of positions. -/
def nrOf (c : Coll) : Nat := c.ranks.length

/-- The die whose fabric unit holds a collective: that of its output buffer (log 32). -/
def collDie (c : Coll) : Nat := c.desc.dst / regionSize % 4

/-- Payload of a COLL_READY (R304). -/
def readyBytes (digest : Word) (abort grant : Bool) (count : Nat) : List Byte :=
  leBytes 4 digest.toNat ++ leBytes 4 ((if abort then 1 else 0) + (if grant then 2 else 0)) ++ leBytes 8 count

/-- Send a COLL_READY to a position. -/
def sendReady (s : State) (c : Coll) (q : Nat) (digest : Word) (abort grant : Bool) (count : Nat) : State :=
  sendControl s (posModule s c q) kCollReady c.desc.id 0 0 (readyBytes digest abort grant count)

/-- End a part: its status is fixed, and an end other than DONE is told to every peer that has not told of its own
(R298, R302). -/
def endColl (s : State) (id : BitVec 16) (code : Nat) : State :=
  match s.net.colls.find? (fun c => c.desc.id == id && c.ending.isNone) with
  | none => s
  | some c =>
    let c := if c.running then c else
      match ranksOf s c.desc.rankset with
      | some l => { c with ranks := l, pos := (l.findIdx? (· == myRank s)).getD 0 }
      | none => c
    let s := collUpd s id (fun x => { x with ending := some code, endEpoch := epochNow s })
    if code = csDone then s else
    let s := dropMsgsOf s (fun o => match o with
      | .coll i _ => i == id
      | _ => false)
    let told (q : Nat) : Bool := c.peers.any (fun p => p.pos == q && p.closed)
    ((List.range c.ranks.length).filter (fun q => q != c.pos && !(told q))).foldl (fun s q => sendReady s c q 0 true false 0) s

/-! ### Memory of a collective -/

/-- Zero bytes up to a multiple of 16. -/
def pad16 (n : Nat) : Nat := (n + 15) / 16 * 16

/-- Read parts one after another, each padded with zero to 16 bytes (R304). -/
def readParts (s : State) : List (Nat × Nat) → State × Option (List Byte)
  | [] => (s, some [])
  | (a, n) :: r =>
    let x := memRead s a n
    match x.2 with
    | none => (x.1, none)
    | some b =>
      let y := readParts x.1 r
      (y.1, y.2.map (fun l => b ++ List.replicate (pad16 n - n) 0 ++ l))

/-- Write ranges one after another; false where one fails. -/
def writeParts (s : State) : List (Nat × List Byte) → State × Bool
  | [] => (s, true)
  | (a, b) :: r =>
    let w := memWrite s a b
    if w.2 then writeParts w.1 r else (w.1, false)

/-- Bytes 0 to n - 1 of a kept stream. -/
def streamBytes (m : SMap Byte) (n : Nat) : List Byte := (List.range n).map (fun i => mapGet (fun _ => (0 : Byte)) i m)

/-- Keep bytes of a stream at an offset. -/
def keepBytes (m : SMap Byte) (off : Nat) (b : List Byte) : SMap Byte :=
  (b.zipIdx).foldl (fun m e => mapSet (fun _ => (0 : Byte)) (off + e.2) e.1 m) m

/-- First byte of piece q of an ALL_REDUCE (R303). -/
def pieceBase (c : Coll) (q : Nat) : Nat := 16 * (q * (c.desc.len / 16) / nrOf c)

/-- Piece q: offset and length. -/
def pieceOf (c : Coll) (q : Nat) : Nat × Nat := (pieceBase c q, pieceBase c (q + 1) - pieceBase c q)

/-- Shard-table entry of a position. -/
def shardOf (c : Coll) (q : Nat) : Nat × Nat := c.table.getD q (0, 0)

/-- Bytes of the value plane, scale plane and side list of a shard of `n` elements, or of a RAW shard (R301). -/
def planeLens (d : CollDesc) (n : Nat) : List Nat :=
  if d.wire = 0 then [n]
  else if wireBlocks d then
    [n / 2, n / 16] ++ (if d.cap > 0 ∧ d.rowK > 0 then [n / d.rowK * ((d.rowK + 255) / 256) * d.cap * 4] else [])
  else [n]

/-- Bytes of the stream of an ALL_GATHER shard. -/
def shardStreamLen (d : CollDesc) (n : Nat) : Nat := ((planeLens d n).map pad16).foldl (· + ·) 0

/-- Parts of this member's own shard. -/
def ownShardParts (c : Coll) : List (Nat × Nat) :=
  ([c.desc.src, c.desc.srcScl, c.desc.srcSide]).zip (planeLens c.desc (shardOf c c.pos).2)

/-- The parts of a kept stream without their padding. -/
def cutPlanes (d : CollDesc) (n : Nat) (b : List Byte) : List (List Byte) :=
  ((planeLens d n).foldl (fun (a : List (List Byte) × List Byte) k => (a.1 ++ [a.2.take k], a.2.drop (pad16 k))) ([], b)).1

/-- 32-bit words of bytes. -/
def wordsOfBytes (b : List Byte) : List Word := (pieces 4 (b.length / 4 + 1) b).map (fun x => BitVec.ofNat 32 (leNat x))

/-- A widened element: its bytes and its counts (R88, R301). -/
def widenOut (out : Nat) (x : Num) : List Byte × FmtCounts :=
  if out = 1 then let w := toFp32 .rne x; (leBytes 4 w.toNat, countFp32 w)
  else let h : BitVec 16 := BitVec.ofNat 16 (roundNum fmtBf16 .rne x); (leBytes 2 h.toNat, countBf16 h)

/-- The elements of a narrow shard, widened exactly, and the reserved scale codes met (R88, R301). -/
def shardNums (d : CollDesc) (n : Nat) (ts : Word) (planes : List (List Byte)) : List Num × Nat :=
  let vals := planes.headD []
  if wireBlocks d then
    let k := max 1 d.rowK
    let spans := (d.rowK + 255) / 256
    let scl := planes.getD 1 []
    let side := wordsOfBytes (planes.getD 2 [])
    let row (r : Nat) : List Num × Nat :=
      let v := (vals.drop (r * (k / 2))).take (k / 2)
      let c := (scl.drop (r * (k / 16))).take (k / 16)
      let e := (side.drop (r * spans * d.cap)).take (spans * d.cap)
      (dequantRow ⟨ts, 0, decide (d.wire = 2), false, d.cap, 0, 0⟩ k v c e, reservedScales k c)
    (List.range (n / k)).foldl (fun a r => (a.1 ++ (row r).1, a.2 + (row r).2)) ([], 0)
  else (vals.map (fromFp8 (decide (d.wire = 4)) ts), 0)

/-- What a shard writes at the receiver: address, bytes, counts; with OUT_FMT 0 the narrow bytes without their padding, behind those
of the elements before OFFSET (R299, R301; log 33). -/
def shardWrite (c : Coll) (q : Nat) (ts : Word) (b : List Byte) : Nat × List Byte × FmtCounts :=
  let d := c.desc
  let o := shardOf c q
  if d.wire = 0 then (d.dst + o.1, b.take o.2, {})
  else if d.out = 0 then (d.dst + (planeLens d o.1).foldl (· + ·) 0, (cutPlanes d o.2 b).flatten, {})
  else
    let x := shardNums d o.2 ts (cutPlanes d o.2 b)
    let w := x.1.map (widenOut d.out)
    (d.dst + o.1 * (if d.out = 1 then 4 else 2), (w.map (·.1)).flatten,
      (w.foldl (fun (a : FmtCounts) e => a.add e.2) ({} : FmtCounts)).add { rsvdScale := x.2 })

/-- Write a shard. -/
def applyShard (s : State) (c : Coll) (q : Nat) (ts : Word) (b : List Byte) : State × Bool :=
  let x := shardWrite c q ts b
  let w := memWrite s x.1 x.2.1
  (fabCounts w.1 (collDie c) x.2.2, w.2)

/-- Reduce bytes into memory, element by element (R300). -/
def reduceInto (s : State) (c : Coll) (a : Nat) (b : List Byte) : State × Bool :=
  let fn := if c.desc.red = 3 then 4 else c.desc.red
  let n := adderSize fn
  let r := memRead s a b.length
  match r.2 with
  | none => (r.1, false)
  | some old =>
    let res := ((pieces n (b.length / n + 1) old).zip (pieces n (b.length / n + 1) b)).map (fun e =>
      adderResult fn (leNat e.1) (leNat e.2))
    let w := memWrite r.1 a (res.map (fun e => leBytes n e.1)).flatten
    (fabCounts w.1 (collDie c) (res.foldl (fun (k : FmtCounts) e => k.add e.2) {}), w.2)

/-! ### The exchange engine (R305 to R309) -/

/-- E2M as (position, local index) pairs. -/
def readE2m (b : List Byte) : List (Nat × Nat) := (wordsOfBytes b).map (fun w => (w.toNat % 2 ^ 16, w.toNat / 2 ^ 16))

/-- NLOCAL of a position (R305). -/
def nlocalOf (e2m : List (Nat × Nat)) (q : Nat) : Nat := e2m.foldl (fun a e => if e.1 = q then max a (e.2 + 1) else a) 0

/-- A route of a token: its number t * TOPK + k, its position, local index and gate. -/
structure RouteRef where
  i : Nat
  q : Nat
  l : Nat
  gate : Word
  deriving DecidableEq, Repr

/-- The routes of a member's tokens and how many were skipped (R306 step 1). -/
def bucketRoutes (x : ExchBlk) (nr : Nat) (e2m : List (Nat × Nat)) (b : List Byte) : List RouteRef × Nat :=
  ((pieces 8 (x.t * x.topk) b).zipIdx).foldl (fun (a : List RouteRef × Nat) e =>
    let v := leNat e.1
    let k := v % 2 ^ 16
    if k = 0xFFFF then a
    else
      let m := e2m.getD k (nr, 0)
      if k ≥ x.e ∨ m.1 ≥ nr then (a.1, a.2 + 1)
      else (a.1 ++ [⟨e.2, m.1, m.2, BitVec.ofNat 32 (v / 2 ^ 32)⟩], a.2)) ([], 0)

/-- Routes to a position, by local expert, then in route order. -/
def routesTo (rs : List RouteRef) (q nl : Nat) : List RouteRef :=
  ((List.range nl).map (fun l => rs.filter (fun r => r.q == q && r.l == l))).flatten

/-- Route counts per local expert of a position. -/
def routeCounts (rs : List RouteRef) (q nl : Nat) : List Nat :=
  (List.range nl).map (fun l => (rs.filter (fun r => r.q == q && r.l == l)).length)

/-- The member's routes and E2M from memory. -/
def readRoutes (s : State) (c : Coll) (x : ExchBlk) : State × Option (List RouteRef × Nat × List (Nat × Nat)) :=
  let a := memRead s x.e2m (4 * x.e)
  match a.2 with
  | none => (a.1, none)
  | some eb =>
    let b := memRead a.1 x.route (8 * x.t * x.topk)
    let e2m := readE2m eb
    (b.1, b.2.map (fun rb => let r := bucketRoutes x (nrOf c) e2m rb; (r.1, r.2, e2m)))

/-- A count list as bytes, padded to 16 (R309). -/
def countBytes (l : List Nat) : List Byte :=
  (l.map (leBytes 4)).flatten ++ List.replicate ((16 - 4 * l.length % 16) % 16) 0

/-- The list of counts in bytes. -/
def bytesCounts (m : SMap Byte) (n : Nat) : List Nat :=
  (List.range n).map (fun i => leNat (((List.range 4).map (fun k => mapGet (fun _ => (0 : Byte)) (4 * i + k) m))))

/-- Send a byte stream in packets of at most 4 KiB that no response answers; an empty one is one empty packet when
`always` is set (R306 step 2, R309). -/
def sendPieces (s : State) (c : Coll) (q kind total : Nat) (b : List Byte) (always : Bool) : State :=
  if b.isEmpty then (if always then sendControl s (posModule s c q) kind c.desc.id 0 total [] else s) else
  ((pieces 4096 (b.length / 4096 + 1) b).zipIdx).foldl (fun s p =>
    sendControl s (posModule s c q) kind c.desc.id (4096 * p.2) total p.1) s

/-- Source order of admission (R306 step 3). -/
def admitOrder (c : Coll) : List Nat :=
  (List.range (nrOf c)).map (fun i => (c.desc.tagStep.toNat % nrOf c + i) % nrOf c)

/-- Admit counts in order until a capacity is used. -/
def admitUpTo : Nat → List (Nat × Nat) → List (Nat × Nat)
  | _, [] => []
  | cap, (q, n) :: r => (q, min n cap) :: admitUpTo (cap - min n cap) r

/-- Rows admitted per local expert in admission order, capacities first and then RECV_ROWS (R306 step 3). -/
def admitPlan (c : Coll) (x : ExchBlk) (caps : List Nat) (counts : List (List Nat)) : List (List (Nat × Nat)) :=
  (caps.zipIdx.foldl (fun (a : List (List (Nat × Nat)) × Nat) e =>
    let byCap := admitUpTo e.1 ((admitOrder c).map (fun q => (q, (counts.getD q []).getD e.2 0)))
    let fit := admitUpTo a.2 byCap
    (a.1 ++ [fit], a.2 - fit.foldl (fun n p => n + p.2) 0)) ([], x.recvRows)).1

/-- Admitted rows of a position for a local expert. -/
def admittedOf (plan : List (List (Nat × Nat))) (q : Nat) : List Nat :=
  plan.map (fun l => ((l.find? (fun p => p.1 == q)).map (·.2)).getD 0)

/-- Admitted and refused routes, given the admitted counts per local expert (R306 step 4). -/
def splitRoutes (rs : List RouteRef) (q : Nat) (adm : List Nat) : List RouteRef × List RouteRef :=
  adm.zipIdx.foldl (fun a e =>
    let l := rs.filter (fun r => r.q == q && r.l == e.2)
    (a.1 ++ l.take e.1, a.2 ++ l.drop e.1)) ([], [])

/-- Set the DROP bits of routes (R305, R306). -/
def setDrops (s : State) (x : ExchBlk) : List RouteRef → State × Bool
  | [] => (s, true)
  | r :: l =>
    let a := x.drop + r.i / 8
    let b := memRead s a 1
    match b.2 with
    | none => (b.1, false)
    | some v =>
      let w := memWrite b.1 a [(v.headD 0) ||| BitVec.ofNat 8 (2 ^ (r.i % 8))]
      if w.2 then setDrops w.1 x l else (w.1, false)

/-- Rows of tokens, in the order of a list of routes. -/
def readTokenRows (s : State) (c : Coll) (x : ExchBlk) (rs : List RouteRef) : State × Option (List Byte) :=
  readParts s (rs.map (fun r => (c.desc.src + r.i / x.topk * x.rowb, x.rowb)))

/-- Count refused routes (R306 step 4). -/
def noteDrops (s : State) (id : BitVec 16) (n : Nat) : State :=
  if n = 0 then s else
  raise (bumpBy (collUpd s id (fun c => { c with refused := c.refused + n })) 0x30 fTransportCapDropCount n) 0x30 evTransportCapDrop

/-- Lay out INFO and MAP (R307): token and k of a row of another member are in no packet; they are left open, k below 8 (log 34). -/
def infoBytes (c : Coll) (x : ExchBlk) (own : List RouteRef) (seed : Nat) (plan : List (List (Nat × Nat))) : List Byte :=
  let rows (l : List (Nat × Nat)) : Nat := l.foldl (fun n p => n + p.2) 0
  let firsts := plan.foldl (fun (a : List Byte × Nat) l => (a.1 ++ leBytes 4 a.2 ++ leBytes 4 (rows l), a.2 + rows l)) ([], 0)
  let entries := (plan.zipIdx.map (fun e => (e.1.map (fun p => (List.range p.2).map (fun j => (p.1, e.2, j)))).flatten)).flatten
  let mapEntry (n : Nat) (p : Nat × Nat × Nat) : Nat :=
    if p.1 = c.pos then
      match (own.filter (fun r => r.l == p.2.1))[p.2.2]? with
      | some r => p.1 + r.i / x.topk * 2 ^ 16 + r.i % x.topk * 2 ^ 36
      | none => p.1
    else p.1 + (Config.freeDword (seed + n)).toNat % 2 ^ 23 * 2 ^ 16
  firsts.1 ++ (entries.zipIdx.map (fun e => leBytes 8 (mapEntry e.2 e.1))).flatten

/-- Rows that a plan admits. -/
def planRows (plan : List (List (Nat × Nat))) : Nat := plan.foldl (fun n l => n + l.foldl (fun k p => k + p.2) 0) 0

/-- Pack received rows at DST (R307): the pieces of each source's stream in plan order. -/
def packRows (x : ExchBlk) (stream : Nat → List Byte) (plan : List (List (Nat × Nat))) : List Byte :=
  (plan.foldl (fun (a : List Byte × (List (Nat × Nat))) l =>
    l.foldl (fun (b : List Byte × (List (Nat × Nat))) p =>
      let done := ((b.2.find? (fun e => e.1 == p.1)).map (·.2)).getD 0
      (b.1 ++ ((stream p.1).drop (done * x.rowb)).take (p.2 * x.rowb),
        (p.1, done + p.2) :: b.2.filter (fun e => e.1 != p.1))) a) ([], [])).1

/-! ### What is sent and what is owed (R303) -/

/-- The stream of a phase for a position. -/
def streamOut (s : State) (c : Coll) (p : Peer1) (ph : Nat) : State × Option (List Byte) :=
  let d := c.desc
  match d.op with
  | 0 =>
    if ph = 0 then let k := pieceOf c p.pos; readParts s [(d.src + k.1, k.2)]
    else let k := pieceOf c c.pos; readParts s [(d.dst + k.1, k.2)]
  | 1 => let k := shardOf c p.pos; readParts s [(d.src + k.1, k.2)]
  | 2 => readParts s (ownShardParts c)
  | _ => readParts s [(d.src + (shardOf c p.pos).1, p.grant.getD 0)]

/-- Bytes that a position owes in a phase. -/
def streamOwed (c : Coll) (q ph : Nat) : Nat :=
  let d := c.desc
  match d.op with
  | 0 => if ph = 0 then (pieceOf c c.pos).2 else (pieceOf c q).2
  | 1 => if ph = 0 then pad16 (shardOf c c.pos).2 else 0
  | 2 => if ph = 0 then shardStreamLen d (shardOf c q).2 else 0
  | 3 => if ph = 0 then pad16 (((c.admits.getD []).getD q []).headD 0) else 0
  | _ => if ph = 0 then ((c.admits.getD []).getD q []).foldl (· + ·) 0 * ((c.xblk.map (·.rowb)).getD 0) else 0

/-- AUX of a COLL_DATA (R304). -/
def dataAux (c : Coll) (ph : Nat) : Nat :=
  if c.desc.op = 0 then ph else if c.desc.op = 2 ∧ c.desc.wire ≠ 0 then c.desc.ts.toNat else 0

/-- Send a stream as COLL_DATA. -/
def sendStream (s : State) (c : Coll) (p : Peer1) (ph : Nat) : State × Bool :=
  let b := streamOut s c p ph
  match b.2 with
  | none => (b.1, false)
  | some l =>
    (((pieces 4096 (l.length / 4096 + 1) l).zipIdx).foldl (fun s e =>
      (sendMsg s (collDie c) (posModule s c p.pos) kCollData c.desc.id (4096 * e.2) (dataAux c ph) e.1
        (.coll c.desc.id p.pos)).1) b.1, true)

/-- Send the rows of admitted routes to a position as EXCH_DATA, and mark the rest (R306 step 4). -/
def sendRows (s : State) (c : Coll) (x : ExchBlk) (p : Peer1) : State × Bool :=
  let r := readRoutes s c x
  match r.2 with
  | none => (r.1, false)
  | some (rs, _, e2m) =>
    let sp := splitRoutes rs p.pos (bytesCounts p.admitList (nlocalOf e2m p.pos))
    let m := setDrops r.1 x sp.2
    if !m.2 then (m.1, false) else
    let b := readTokenRows (noteDrops m.1 c.desc.id sp.2.length) c x sp.1
    match b.2 with
    | none => (b.1, false)
    | some l => (sendPieces b.1 c p.pos kExchData 0 l false, true)

/-- Rows of INFO and MAP: the source position of each received row (R307, R308). -/
def mapSources (s : State) (x : ExchBlk) (nl : Nat) : State × Option (List Nat) :=
  let i := memRead s x.info (8 * nl)
  match i.2 with
  | none => (i.1, none)
  | some b =>
    let rows := (pieces 8 nl b).foldl (fun a e => a + leNat e / 2 ^ 32) 0
    let m := memRead i.1 (x.info + 8 * nl) (8 * rows)
    (m.1, m.2.map (fun mb => (pieces 8 rows mb).map (fun e => leNat e % 2 ^ 16)))

/-- The stream that COMBINE returns to a position (R308, R309). -/
def returnStream (s : State) (c : Coll) (x : ExchBlk) (q : Nat) : State × Option (List Byte) :=
  let e := memRead s x.e2m (4 * x.e)
  match e.2 with
  | none => (e.1, none)
  | some eb =>
    let m := mapSources e.1 x (nlocalOf (readE2m eb) c.pos)
    match m.2 with
    | none => (m.1, none)
    | some src => readParts m.1 ((src.zipIdx.filter (fun r => r.1 == q)).map (fun r => (c.desc.src + r.2 * x.rowb, x.rowb)))

/-- The DROP bit of a route. -/
def dropBit (b : List Byte) (i : Nat) : Bool := (b.getD (i / 8) 0).getLsbD (i % 8)

/-- This member's routes with their DROP bits, E2M and the skipped count. -/
def readDropped (s : State) (c : Coll) (x : ExchBlk) : State × Option (List (RouteRef × Bool) × List (Nat × Nat)) :=
  let r := readRoutes s c x
  match r.2 with
  | none => (r.1, none)
  | some (rs, _, e2m) =>
    let d := memRead r.1 x.drop ((x.t * x.topk + 7) / 8)
    (d.1, d.2.map (fun b => (rs.map (fun r => (r, dropBit b r.i)), e2m)))

/-- Elements of a returned row, widened to FP32 (R308). -/
def rowNums (x : ExchBlk) (b : List Byte) : List Word :=
  if x.rowFmt = 1 then wordsOfBytes b
  else (pieces 2 (b.length / 2 + 1) b).map (fun h => BitVec.ofNat 32 (leNat h * 2 ^ 16))

/-- A token's gate-weighted sum over its admitted routes (R308). -/
def gateSum (x : ExchBlk) (rows : List (Word × List Byte)) : List Word :=
  let n := if x.rowFmt = 1 then x.rowb / 4 else x.rowb / 2
  rows.foldl (fun acc r => (acc.zip (rowNums x r.2)).map (fun e => fmaFp32 .rne r.1 e.2 e.1)) (List.replicate n 0)

/-- COMBINE's output on the token's member (R308). -/
def combineOut (s : State) (c : Coll) (x : ExchBlk) (stream : Nat → List Byte) : State × Bool :=
  let r := readDropped s c x
  match r.2 with
  | none => (r.1, false)
  | some (rs, e2m) =>
    let adm := (rs.filter (fun e => !e.2)).map (·.1)
    let rowsBack := ((List.range (nrOf c)).map (fun q =>
      ((routesTo adm q (nlocalOf e2m q)).zipIdx.map (fun e => (e.1, ((stream q).drop (e.2 * x.rowb)).take x.rowb))))).flatten
    if c.desc.out = 0 then
      let w := writeParts r.1 (rowsBack.map (fun e => (c.desc.dst + e.1.i * x.rowb, e.2)))
      if !w.2 then w else
      match mapFind c.desc.table s.net.exchSrc with
      | none => w
      | some src =>
        (rs.filter (·.2)).foldl (fun (a : State × Bool) e =>
          if !a.2 then a else
          let t := memRead a.1 (src + e.1.i / x.topk * x.rowb) x.rowb
          match t.2 with
          | none => (t.1, false)
          | some b => memWrite t.1 (c.desc.dst + e.1.i * x.rowb) b) w
    else
      (List.range x.t).foldl (fun (a : State × Bool) t =>
        if !a.2 then a else
        let mine := (List.range x.topk).filterMap (fun k =>
          (rowsBack.find? (fun e => e.1.i == t * x.topk + k)).map (fun e => (e.1.gate, e.2)))
        let ws := gateSum x mine
        let w := memWrite a.1 (c.desc.dst + t * 4 * ws.length) (ws.map (fun v => leBytes 4 v.toNat)).flatten
        (fabCounts w.1 (collDie c) (countFp32s ws), w.2)) (r.1, true)

/-! ### Progress -/

/-- Replace a failed step by the end MEM_ERR. -/
def orMemErr (id : BitVec 16) (x : State × Bool) : State := if x.2 then x.1 else endColl x.1 id csMemErr

/-- Whether every other position meets a condition. -/
def allPeers (c : Coll) (f : Peer1 → Bool) : Bool := c.peers.all (fun p => p.pos == c.pos || f p)

/-- ALL_TO_ALL admission: with every count held, ascending positions until LEN is used; the receive table and the
grants (R299, R304). -/
def admitBytes (s : State) (c : Coll) : State :=
  let counts := (List.range (nrOf c)).map (fun q =>
    (q, if q = c.pos then (shardOf c q).2 else ((c.peers.find? (fun p => p.pos == q)).map (·.count)).getD 0))
  let adm := admitUpTo c.desc.len counts
  let offs := adm.foldl (fun (a : List Byte × Nat) e => (a.1 ++ leBytes 8 a.2 ++ leBytes 8 e.2, a.2 + e.2)) ([], 0)
  let id := c.desc.id
  let s := collUpd s id (fun x => { x with admits := some (adm.map (fun e => [e.2])) })
  let w := memWrite s (c.desc.table + 16 * nrOf c) offs.1
  let mine := ((adm.find? (fun e => e.1 == c.pos)).map (·.2)).getD 0
  let base := (adm.takeWhile (fun e => e.1 != c.pos)).foldl (fun n e => n + e.2) 0
  let r := memRead w.1 (c.desc.src + (shardOf c c.pos).1) mine
  match w.2, r.2 with
  | true, some b =>
    let s := orMemErr id (memWrite r.1 (c.desc.dst + base) b)
    let s := collUpd s id (fun x => { x with refused := x.refused + ((shardOf c c.pos).2 - mine) })
    (adm.filter (fun e => e.1 != c.pos)).foldl (fun s e => sendReady s c e.1 c.digest false true e.2) s
  | _, _ => endColl r.1 id csMemErr

/-- Offset at which a position's admitted bytes land in an ALL_TO_ALL. -/
def admitBase (c : Coll) (q : Nat) : Nat :=
  ((c.admits.getD []).take q).foldl (fun n l => n + l.headD 0) 0

/-- EXCHANGE admission, with every count held (R306 step 3). -/
def admitRoutes (s : State) (c : Coll) (x : ExchBlk) : State :=
  let id := c.desc.id
  let r := readRoutes s c x
  match r.2 with
  | none => endColl r.1 id csMemErr
  | some (rs, _, e2m) =>
    let nl := nlocalOf e2m c.pos
    let k := if x.caps = 0 then (r.1, some (List.replicate nl (fld s 0x30 fTransportExchCap)))
      else
        let m := memRead r.1 x.caps (4 * nl)
        (m.1, m.2.map (fun b => (wordsOfBytes b).map (·.toNat)))
    match k.2 with
    | none => endColl k.1 id csMemErr
    | some caps =>
      let counts := (List.range (nrOf c)).map (fun q =>
        if q = c.pos then routeCounts rs q nl
        else ((c.peers.find? (fun p => p.pos == q)).map (fun p => bytesCounts p.countList nl)).getD [])
      let plan := admitPlan c x caps counts
      let adm := (List.range (nrOf c)).map (admittedOf plan)
      let own := splitRoutes rs c.pos (admittedOf plan c.pos)
      let s := collUpd k.1 id (fun c => { c with admits := some adm })
      let m := setDrops s x own.2
      if !m.2 then endColl m.1 id csMemErr else
      let s := noteDrops m.1 id own.2.length
      let f := takeFree s (planRows plan)
      let s := orMemErr id (memWrite f.2 x.info (infoBytes c x own.1 f.1 plan))
      ((List.range (nrOf c)).filter (· != c.pos)).foldl (fun s q =>
        sendPieces s c q kExchAdmit (countBytes (adm.getD q [])).length (countBytes (adm.getD q [])) true) s

/-- Steps that need something from every position. -/
def collAdmit (s : State) (id : BitVec 16) : State :=
  match collAt s id with
  | none => s
  | some c =>
    if c.desc.op = 3 ∧ c.admits = none ∧ allPeers c (·.ready) then admitBytes s c
    else if c.desc.op = 4 ∧ c.admits = none ∧ allPeers c (fun p => p.countTotal == some p.countGot) then
      (match c.xblk with
      | some x => admitRoutes s c x
      | none => s)
    else if c.desc.op = 0 ∧ !c.phase1 ∧ allPeers c (fun p => p.got0 == streamOwed c p.pos 0) then
      collUpd s id (fun c => { c with phase1 := true })
    else s

/-- Send to a position what may be sent now. -/
def peerSend (s : State) (id : BitVec 16) (q : Nat) : State :=
  match collAt s id with
  | none => s
  | some c =>
    match c.peers.find? (fun p => p.pos == q), c.xblk with
    | some p, x? =>
      if !p.ready ∨ q = c.pos then s else
      match c.desc.op, x? with
      | 4, some x =>
        if !p.sent0 then
          let r := readRoutes s c x
          match r.2 with
          | none => endColl r.1 id csMemErr
          | some (rs, _, e2m) =>
            let b := countBytes (routeCounts rs q (nlocalOf e2m q))
            sendPieces (peerUpd r.1 id q (fun p => { p with sent0 := true })) c q kExchCount b.length b true
        else if !p.sent1 ∧ p.admitTotal = some p.admitGot then
          orMemErr id (sendRows (peerUpd s id q (fun p => { p with sent1 := true })) c x p)
        else s
      | 5, some x =>
        if p.sent0 then s else
        let r := returnStream s c x q
        match r.2 with
        | none => endColl r.1 id csMemErr
        | some b => sendPieces (peerUpd r.1 id q (fun p => { p with sent0 := true })) c q kExchReturn 0 b false
      | 3, _ =>
        if p.sent0 ∨ p.grant = none then s
        else orMemErr id (sendStream (peerUpd s id q (fun p => { p with sent0 := true })) c p 0)
      | op, _ =>
        let s1 := if p.sent0 then s else orMemErr id (sendStream (peerUpd s id q (fun p => { p with sent0 := true })) c p 0)
        if op = 0 ∧ c.phase1 ∧ !p.sent1 then
          orMemErr id (sendStream (peerUpd s1 id q (fun p => { p with sent1 := true })) c p 1)
        else s1
    | none, _ => s

/-- Whether this member's part is complete (R303). -/
def collComplete (s : State) (c : Coll) : Bool :=
  let acked := !((s.net.out ++ s.net.waitq).any (fun m => match m.owner with
    | .coll i _ => i == c.desc.id
    | _ => false))
  acked && allPeers c (fun p => p.sent0 && p.got0 == streamOwed c p.pos 0)
    && (decide (c.desc.op ≠ 0) || (c.phase1 && allPeers c (fun p => p.sent1 && p.got1 == streamOwed c p.pos 1)))
    && (decide (c.desc.op ≠ 3 ∧ c.desc.op ≠ 4) || c.admits.isSome)
    && (decide (c.desc.op ≠ 4) || allPeers c (·.sent1))

/-- The stream of a position: kept, or this member's own. -/
def streamOf (c : Coll) (own : List Byte) (q : Nat) : List Byte :=
  if q = c.pos then own
  else ((c.peers.find? (fun p => p.pos == q)).map (fun p => streamBytes p.stream p.got0)).getD []

/-- TAG_STEP and TAG_SHARD of a position (R301, R324): TAG_SHARD is tensor id times 16,384 plus position; no packet carries TAG_STEP, and
that of another position is open, one value for one module, tensor and own step, as R324 has both gathers of a step carry it (log 34). -/
def tagsOf (s : State) (c : Coll) (q : Nat) : Word × Word :=
  let d := c.desc
  if q = c.pos then (d.tagStep, d.tagShard)
  else
    let shard := BitVec.ofNat 32 (d.tagShard.toNat / 16384 * 16384 + q)
    (Config.peerStep (posModule s c q) d.tagStep shard, shard)

/-- A gather-ledger entry (R301). -/
def ledgerEntry (s : State) (c : Coll) (own : List Byte) (q : Nat) : List Byte :=
  let d := c.desc
  let n := (shardOf c q).2
  let ts := if q = c.pos then d.ts else ((c.peers.find? (fun p => p.pos == q)).map (·.ts)).getD 0
  let body := (cutPlanes d n (streamOf c own q)).flatten ++ (if d.wire = 0 then [] else leBytes 4 ts.toNat)
  let tag := tagsOf s c q
  leBytes 4 tag.1.toNat ++ leBytes 4 tag.2.toNat ++ leBytes 4 (crc32 body).toNat ++ leBytes 4 1

/-- What is left to write once every stream has been applied (R301, R307, R308). -/
def collOutput (s : State) (c : Coll) : State × Bool :=
  match c.desc.op, c.xblk with
  | 2, _ =>
    if c.desc.ledger = 0 then (s, true) else
    let o := readParts s (ownShardParts c)
    match o.2 with
    | none => (o.1, false)
    | some own => memWrite o.1 c.desc.ledger ((List.range (nrOf c)).map (ledgerEntry o.1 c own)).flatten
  | 4, some x =>
    let r := readRoutes s c x
    match r.2 with
    | none => (r.1, false)
    | some (rs, _, _) =>
      let adm := c.admits.getD []
      let o := readTokenRows r.1 c x (splitRoutes rs c.pos (adm.getD c.pos [])).1
      match o.2 with
      | none => (o.1, false)
      | some own =>
        let plan := (List.range ((adm.headD []).length)).map (fun l => (admitOrder c).map (fun q => (q, (adm.getD q []).getD l 0)))
        memWrite o.1 c.desc.dst (packRows x (streamOf c own) plan)
  | 5, some x =>
    let o := returnStream s c x c.pos
    match o.2 with
    | none => (o.1, false)
    | some own => combineOut o.1 c x (streamOf c own)
  | _, _ => (s, true)

/-- End a complete part with DONE. -/
def collFinish (s : State) (id : BitVec 16) : State :=
  match collAt s id with
  | none => s
  | some c =>
    if !(collComplete s c) then s else
    let w := collOutput s c
    endColl w.1 id (if w.2 then csDone else csMemErr)

/-- Go on with a running collective. -/
def collPump (s : State) (id : BitVec 16) : State :=
  let s := collAdmit s id
  let n := match collAt s id with
    | some c => nrOf c
    | none => 0
  collFinish ((List.range n).foldl (fun s q => peerSend s id q) s) id

/-! ### Start (R298) -/

/-- The shard table from memory (R299). -/
def readTable (s : State) (c : Coll) : State × Option (List Byte) :=
  if c.desc.op = 0 ∨ c.desc.op ≥ 4 then (s, some []) else memRead s c.desc.table (16 * nrOf c)

/-- The digest of R298 over the descriptor's bytes and, for OP 1 and 2, the shard table. -/
def collDigest (d : CollDesc) (table : List Byte) : Word :=
  crc32 (leBytes 4 (d.op + d.red * 16 + d.wire * 256 + d.out * 4096 + d.id.toNat * 2 ^ 16) ++ leBytes 1 d.rankset
    ++ leBytes 2 d.rowK ++ (if d.op = 1 ∨ d.op = 2 then table else []))

/-- The own part at the start: copied or reduced within the module (R303). -/
def ownPart (s : State) (c : Coll) : State × Bool :=
  let copy (a b n : Nat) : State × Bool :=
    let r := memRead s b n
    match r.2 with
    | none => (r.1, false)
    | some l => memWrite r.1 a l
  match c.desc.op with
  | 0 => let k := pieceOf c c.pos; copy (c.desc.dst + k.1) (c.desc.src + k.1) k.2
  | 1 => let k := shardOf c c.pos; copy c.desc.dst (c.desc.src + k.1) k.2
  | 2 =>
    let r := readParts s (ownShardParts c)
    match r.2 with
    | none => (r.1, false)
    | some b => applyShard r.1 c c.pos c.desc.ts b
  | _ => (s, true)

/-- What COMBINE is owed per position, and what EXCHANGE skips, known at the start (R306, R308). -/
def exchStart (s : State) (c : Coll) : State × Bool :=
  let id := c.desc.id
  match c.desc.op, c.xblk with
  | 4, some x =>
    let r := readRoutes (setNet s { s.net with exchSrc := mapPut c.desc.table c.desc.src s.net.exchSrc }) c x
    match r.2 with
    | none => (r.1, false)
    | some (_, n, e2m) =>
      (raiseIf (decide (n > 0)) (collUpd r.1 id (fun c => { c with skipped := n, e2m := e2m })) 0x30 evTransportRouteBad, true)
  | 5, some x =>
    let r := readDropped s c x
    match r.2 with
    | none => (r.1, false)
    | some (rs, _) =>
      (collUpd r.1 id (fun c => { c with
        admits := some ((List.range (nrOf c)).map (fun q => [(rs.filter (fun e => !e.2 && e.1.q == q)).length])) }), true)
  | _, _ => (s, true)

/-- Compare a handshake, or take a grant (R298, R304). -/
def takeReady (s : State) (c : Coll) (q : Nat) (pk : Packet) : State :=
  let id := c.desc.id
  let digest := BitVec.ofNat 32 (leNat (pk.payload.take 4))
  let count := leNat (pk.payload.drop 8)
  if leNat ((pk.payload.drop 4).take 1) = 2 then
    let kept := count
    let s := peerUpd s id q (fun p => { p with grant := some kept })
    collUpd s id (fun c => { c with refused := c.refused + ((shardOf c q).2 - kept) })
  else if digest = c.digest then peerUpd s id q (fun p => { p with ready := true, count := count })
  else endColl s id csMismatch

/-- Start a collective: handshakes, the own part, and the handshakes that were already waiting (R298, R303). -/
def startColl (s : State) (c : Coll) : State :=
  let id := c.desc.id
  match ranksOf s c.desc.rankset with
  | none => endColl s id csMemErr
  | some ranks =>
    let pos := (ranks.findIdx? (· == myRank s)).getD 0
    let c := { c with running := true, ranks := ranks, pos := pos, peers := (List.range ranks.length).map (fun q => { pos := q }) }
    let r := readTable s c
    match r.2 with
    | none => endColl (collUpd r.1 id (fun _ => c)) id csMemErr
    | some tb =>
      let c := { c with table := (pieces 16 ranks.length tb).map (fun b => (leNat (b.take 8), leNat (b.drop 8))), digest := collDigest c.desc tb }
      let s := collUpd r.1 id (fun _ => c)
      let s := ((List.range ranks.length).filter (· != pos)).foldl (fun s q =>
        sendReady s c q c.digest false false (if c.desc.op = 3 then (shardOf c q).2 else 0)) s
      let o := ownPart s c
      if !o.2 then endColl o.1 id csMemErr else
      let e := exchStart o.1 c
      if !e.2 then endColl e.1 id csMemErr else
      let mine := e.1.net.early.filter (fun p => p.ctx == id)
      let s := setNet e.1 { e.1.net with early := e.1.net.early.filter (fun p => p.ctx != id) }
      let s := mine.foldl (fun s pk => match collAt s id with
        | some c => (match posOf s c pk.src with
          | some q => takeReady s c q pk
          | none => s)
        | none => s) s
      collPump s id

/-- The oldest collective armed and not yet started (R298). -/
def nextColl (s : State) : Option Coll := s.net.colls.find? (fun c => !c.running && c.ending.isNone)

/-- Collectives that run. -/
def runningColls (s : State) : Nat := (s.net.colls.filter (fun c => c.running && c.ending.isNone)).length

/-- Start a collective whose start condition holds (R296, R298). -/
def tryStartColl (s : State) : State :=
  match nextColl s with
  | none => s
  | some c =>
    if runningColls s ≥ 16 then s
    else if c.started then startColl s c
    else s

/-! ### Data and end -/

/-- Apply a COLL_DATA's bytes; false is a bus error on this member's buffers (R303). -/
def applyData (s : State) (c : Coll) (q : Nat) (pk : Packet) : State × Bool :=
  let d := c.desc
  let off := pk.addr.toNat
  match d.op with
  | 0 =>
    if pk.aux = 1 then memWrite s (d.dst + (pieceOf c q).1 + off) pk.payload
    else reduceInto s c (d.dst + (pieceOf c c.pos).1 + off) pk.payload
  | 1 => reduceInto s c (d.dst + off) (pk.payload.take ((shardOf c c.pos).2 - off))
  | 2 =>
    let p := (c.peers.find? (fun p => p.pos == q)).getD { pos := q }
    let m := keepBytes p.stream off pk.payload
    let s := peerUpd s d.id q (fun p => { p with stream := m, ts := pk.aux })
    if p.got0 + pk.payload.length < streamOwed c q 0 then (s, true)
    else applyShard s c q pk.aux (streamBytes m (streamOwed c q 0))
  | _ => memWrite s (d.dst + admitBase c q + off) (pk.payload.take (((c.admits.getD []).getD q []).headD 0 - off))

/-- Whether a COLL_DATA lies within what the position owes. -/
def dataOk (c : Coll) (q : Nat) (pk : Packet) : Bool :=
  let ph := if c.desc.op = 0 ∧ pk.aux = 1 then 1 else 0
  decide (1 ≤ pk.len.toNat) && decide (pk.addr.toNat % 16 = 0)
    && decide (pk.addr.toNat + pk.payload.length ≤ streamOwed c q ph)
    && (if c.desc.op = 0 then decide (pk.aux.toNat ≤ 1) else if c.desc.op = 2 ∧ c.desc.wire ≠ 0 then true else decide (pk.aux = 0))
    && decide (c.desc.op ≤ 3)

/-- COLL_ACK for a COLL_DATA (R304). -/
def sendCollAck (s : State) (pk : Packet) : State :=
  emit s (ownPacket s pk.src kCollAck pk.ctx pk.msgId pk.addr.toNat 0 [])

/-- Write the status record and, after DONE, the done counter; forget the collective (R302). -/
def closeColl (s : State) (c : Coll) (code : Nat) : State :=
  let rec' := leBytes 4 code ++ leBytes 4 (c.endEpoch.toNat + c.desc.id.toNat * 2 ^ 16) ++ leBytes 4 c.refused ++ leBytes 4 c.skipped
  let s := setNet s { s.net with colls := s.net.colls.erase c }
  let s := (memWrite s c.desc.status rec').1
  if code = csDone then
    let s := bump s 0x30 fTransportCollDoneCount
    if c.desc.doneCtr = 0 then s else (addOne s c.desc.doneCtr).1
  else raise s 0x30 evTransportCollFailed

/-- Bytes of DST that a collective could have written. -/
def dstLen (c : Coll) : Nat :=
  match c.desc.op with
  | 0 => c.desc.len
  | 1 => (shardOf c c.pos).2
  | 2 =>
    let size (n : Nat) : Nat :=
      if c.desc.out = 1 then 4 * n else if c.desc.out = 2 then 2 * n else (planeLens c.desc n).foldl (· + ·) 0
    c.table.foldl (fun a e => max a (size (e.1 + e.2))) 0
  | 3 => c.desc.len
  | 4 => (c.xblk.map (fun x => x.recvRows * x.rowb)).getD 0
  | _ => (c.xblk.map (fun x => x.t * x.topk * x.rowb * (if c.desc.out = 1 then 2 else 1))).getD 0

/-- The end of a part (R302): a started one that did not end DONE leaves DST unspecified. -/
def finishColl (s : State) (c : Coll) : State :=
  match c.ending with
  | none => s
  | some code =>
    let n := min (dstLen c) (bulkEnd - c.desc.dst)
    closeColl (if code ≠ csDone ∧ c.running then openRange s c.desc.dst n else s) c code

/-- COLL_ABORT's effect (R312). -/
def abortColls (s : State) : State :=
  ((s.net.colls.filter (fun c => c.ending.isNone)).map (·.desc.id)).foldl (fun s id => endColl s id csCmd) s

end Sys2Proof.Machine
end

