-- ==== Sys2Proof/Machine/Transport.lean ====
section
/-!
DEFINITION. The transport's rows (R282 to R287), the barriers (R294) and the collectives (R298 to R309). COLL_ARM,
COLL_ABORT, ROUTE and RANKSET are accesses to registers and stand in Accesses.lean.
-/

namespace Sys2Proof.Machine

/-! ### Packets that arrive -/

/-- Whether a packet is for this module. -/
def forMe (s : State) (pk : Packet) : Bool := pk.dst == moduleId s

/-- Take a packet of a KIND that is addressed to this module: one that breaks R281 or its own table is discarded and
counted (R281, R295, R309). -/
def receive (s : State) (pk : Packet) (kind : Nat) (ok : Bool) (f : State → State) : State :=
  if pk.kind.toNat ≠ kind ∨ !(forMe s pk && packetOk pk || !(packetOk pk)) then s else
  let s := takeInbox s pk
  if packetOk pk && ok then f s else packetBad s

/-- Refuse a packet of another epoch (R293). -/
def inEpoch (s : State) (pk : Packet) (f : State → State) : State :=
  if pk.epoch = epochNow s then f s else raise (bump s 0x30 fTransportEpochDropCount) 0x30 evTransportEpochDrop

/-- A response of this module (R283). -/
def respond (s : State) (pk : Packet) (kind aux : Nat) (payload : List Byte) : State :=
  emit s (ownPacket s pk.src kind 0 pk.msgId 0 aux payload)

/-- Code of R283 with which an access is refused, before any data is touched. -/
def refuseCode (s : State) (a len : Nat) : Option Nat :=
  if a % 16 ≠ 0 ∨ a + len > bulkEnd then some 0x01
  else if !(dieAwake s (a / regionSize)) then some 0x03
  else none

/-- RD_REQ (R283). -/
def execRdReq (pk : Packet) (s : State) : Answer :=
  .next (receive s pk kRdReq (decide (pk.len = 0) && decide (pk.epoch = 0) && decide (pk.ctx = 0)) (fun s =>
    let n := 16 * pk.aux.toNat
    let a := pk.addr.toNat
    if n > 4096 then respond s pk kErrResp 0x01 [] else
    match refuseCode s a n with
    | some c => respond s pk kErrResp c []
    | none =>
      let r := memRead s a n
      match r.2 with
      | some b => respond r.1 pk kRdResp 0 b
      | none => respond r.1 pk kErrResp 0x02 []))

/-- WR_REQ (R283, R284). -/
def execWrReq (pk : Packet) (s : State) : Answer :=
  .next (receive s pk kWrReq (decide (pk.epoch = 0) && decide (pk.ctx = 0)) (fun s =>
    if wasApplied s pk.src pk.msgId then respond s pk kWrAck 0 [] else
    let a := pk.addr.toNat
    match refuseCode s a pk.payload.length with
    | some c => respond s pk kErrResp c []
    | none =>
      let w := memWrite s a pk.payload
      if w.2 then respond (noteApplied w.1 pk.src pk.msgId) pk kWrAck 0 [] else respond w.1 pk kErrResp 0x02 []))

/-- The outstanding message that a response answers: MSG_ID, and the module it went to. -/
def answered (s : State) (pk : Packet) : Option Msg :=
  s.net.out.find? (fun m => m.pk.msgId == pk.msgId && m.pk.dst == pk.src)

/-- Forget a message in its asynchronous operation. -/
def opAnsweredBy (a : AsyncOp) (id : BitVec 32) : AsyncOp := { a with msgs := a.msgs.filter (· != id) }

/-- Change an asynchronous operation of a core. -/
def opUpd (s : State) (g op : Nat) (f : AsyncOp → AsyncOp) : State :=
  let c := coreOf s g
  setCore s g { c with asyncs := c.asyncs.map (fun a => if a.id == op then f a else a) }

/-- The target of a message as a FAB address (R139). -/
def fabAddr (m : Msg) : Nat := m.pk.dst.toNat * 2 ^ 44 + m.pk.addr.toNat

/-- RD_RESP (R284). -/
def execRdResp (pk : Packet) (s : State) : Answer :=
  .next (receive s pk kRdResp (decide (pk.epoch = 0)) (fun s =>
    match answered s pk with
    | none => s
    | some m =>
      if m.pk.kind.toNat ≠ kRdReq ∨ pk.len.toNat ≠ m.pk.aux.toNat then s else
      let s := dropMsg s pk.msgId
      match m.owner with
      | .async g op =>
        let at0 := fabAddr m
        pumpGathers 128 (opUpd s g op (fun a =>
          opAnsweredBy { a with got := pk.payload.zipIdx.foldl (fun m e => mapPut (at0 + e.2) e.1 m) a.got } pk.msgId)) g
      | _ => s))

/-- WR_ACK (R284). -/
def execWrAck (pk : Packet) (s : State) : Answer :=
  .next (receive s pk kWrAck (decide (pk.epoch = 0) && decide (pk.len = 0)) (fun s =>
    match answered s pk with
    | none => s
    | some m => if m.pk.kind.toNat ≠ kWrReq then s else dropMsg s pk.msgId))

/-- An access ends with a bus error (R283, R284, R302). -/
def failMsg (s : State) (m : Msg) : State :=
  let s := dropMsg s m.pk.msgId
  match m.owner with
  | .async g op => opUpd s g op (fun a =>
      opAnsweredBy { a with todo := [], failed := a.failed.or (some (fabAddr m)) } m.pk.msgId)
  | .commit g =>
    (match (coreOf s g).tile with
    | some t => tileFail s g causeMemErr t.ctx.pc (fabAddr m) 0
    | none => s)
  | .coll id _ => endColl s id csNoRoute
  | .control => s

/-- ERR_RESP (R283). -/
def execErrResp (pk : Packet) (s : State) : Answer :=
  .next (receive s pk kErrResp (decide (pk.epoch = 0) && decide (pk.len = 0)) (fun s =>
    match s.net.out.find? (fun m => m.pk.msgId == pk.msgId) with
    | none => s
    | some m => failMsg s m))

/-- PACKET_FORWARD (R281, R287). -/
def execPacketForward (pk : Packet) (s : State) : Answer :=
  .next (
    if forMe s pk then
      (if kindDefined pk.kind.toNat && packetOk pk then s else packetBad (takeInbox s pk))
    else
      let s := takeInbox s pk
      if !(packetOk pk) then packetBad s
      else if pk.ttl.toNat ≤ 1 then emit s (errResp s pk 0x05)
      else emit s { pk with ttl := pk.ttl - 1 })

/-- MSG_TIMEOUT (R284). -/
def execMsgTimeout (die : DieId) (id : BitVec 32) (s : State) : Answer :=
  .next (match s.net.out.find? (fun m => m.die == die.val && m.pk.msgId == id) with
    | none => s
    | some m =>
      let late := decide (m.first + 8000000 ≤ now s)
      if !late && decide (now s < m.last + fld s 0x30 fTransportMsgTimeout * 1000) then s
      else if late ∨ m.resends ≥ fld s 0x30 fTransportRetry then
        failMsg (raise (bump s 0x30 fTransportMsgFailedCount) 0x30 evTransportMsgFailed) m
      else resendMsg s m)

/-! ### Barriers -/

/-- BARRIER_ARRIVE (R294). -/
def execBarrierArrive (pk : Packet) (s : State) : Answer :=
  .next (receive s pk kBarrierArrive (decide (pk.len = 0) && decide (pk.addr = 0) && decide (pk.aux = 0)) (fun s =>
    inEpoch s pk (fun s =>
      if jstate s ≠ jsManager then packetBad s else
      match rankOf s pk.src with
      | some r => if r < 16384 then barrierArrival s pk.ctx r else packetBad s
      | none => packetBad s)))

/-- BARRIER_BELL (R204, R294). -/
def execBarrierBell (pk : Packet) (s : State) : Answer :=
  .next (receive s pk kBarrierBell (decide (pk.len = 0)) (fun s =>
    inEpoch s pk (fun s => takeBell s pk.ctx pk.addr.toNat)))

/-- BARRIER_RESEND (R294): every 100 microseconds. -/
def execBarrierResend (id : BitVec 16) (s : State) : Answer :=
  .next (match s.net.waiting.find? (fun w => w.1 == id) with
    | none => s
    | some w => if now s < w.2 + 100000 then s else sendArrival s id)

/-! ### Collectives -/

/-- COLL_START (R298). -/
def execCollStart (s : State) : Answer := .next (tryStartColl s)

/-- Whether a COLL_READY obeys R304. -/
def readyOk (pk : Packet) : Bool :=
  decide (pk.len.toNat = 1) && decide (pk.addr = 0) && decide (pk.aux = 0) && decide (pk.ctx ≠ 0)
    && decide (leNat ((pk.payload.drop 4).take 4) ≤ 2)
    && (decide (leNat ((pk.payload.drop 4).take 4) ≠ 1) || (decide (leNat (pk.payload.take 4) = 0) && decide (leNat (pk.payload.drop 8) = 0)))

/-- An abort notice for a collective that has not ended here (R298). -/
def takeAbort (s : State) (pk : Packet) : State :=
  match s.net.colls.find? (fun c => c.desc.id == pk.ctx && c.ending.isNone) with
  | none => s
  | some c =>
    let s := match posOf s c pk.src with
      | some q => peerUpd s pk.ctx q (fun p => { p with closed := true })
      | none => s
    endColl s pk.ctx csPeer

/-- COLL_READY (R298, R304): a handshake that comes before the collective runs here waits for it (log 35). -/
def execCollReady (pk : Packet) (s : State) : Answer :=
  .next (receive s pk kCollReady (readyOk pk) (fun s => inEpoch s pk (fun s =>
    let flags := leNat ((pk.payload.drop 4).take 4)
    if flags = 1 then takeAbort s pk else
    match collAt s pk.ctx with
    | none => if flags = 0 then setNet s { s.net with early := s.net.early ++ [pk] } else s
    | some c =>
      match posOf s c pk.src with
      | none => packetBad s
      | some q =>
        if flags = 2 ∧ c.desc.op ≠ 3 then packetBad s
        else collPump (takeReady s c q pk) pk.ctx)))

/-- COLL_DATA (R284, R298, R303, R304). -/
def execCollData (pk : Packet) (s : State) : Answer :=
  .next (receive s pk kCollData true (fun s => inEpoch s pk (fun s =>
    if wasApplied s pk.src pk.msgId then sendCollAck s pk else
    match collAt s pk.ctx with
    | none => packetBad s
    | some c =>
      match posOf s c pk.src with
      | none => packetBad s
      | some q =>
        if !(dataOk c q pk) then packetBad s else
        let w := applyData s c q pk
        let n := pk.payload.length
        let s := sendCollAck (noteApplied w.1 pk.src pk.msgId) pk
        if !w.2 then endColl s pk.ctx csMemErr else
        let ph1 := decide (c.desc.op = 0) && decide (pk.aux = 1)
        collPump (peerUpd s pk.ctx q (fun p => if ph1 then { p with got1 := p.got1 + n } else { p with got0 := p.got0 + n })) pk.ctx)))

/-- COLL_ACK (R304). -/
def execCollAck (pk : Packet) (s : State) : Answer :=
  .next (receive s pk kCollAck (decide (pk.len = 0) && decide (pk.aux = 0)) (fun s => inEpoch s pk (fun s =>
    match answered s pk with
    | none => s
    | some m =>
      match m.owner with
      | .coll id _ => if m.pk.addr = pk.addr then collPump (dropMsg s pk.msgId) id else s
      | _ => s)))

/-- COLL_END (R302). -/
def execCollEnd (id : BitVec 16) (s : State) : Answer :=
  .next (match s.net.colls.find? (fun c => c.desc.id == id && c.ending.isSome) with
    | none => s
    | some c => finishColl s c)

/-! ### The exchange engine -/

/-- Take an exchange packet of a running collective once (R284, R309). -/
def takeExch (s : State) (pk : Packet) (kind op : Nat) (ok : Coll → Peer1 → Bool) (f : State → Coll → Peer1 → State) : State :=
  receive s pk kind true (fun s => inEpoch s pk (fun s =>
    if wasApplied s pk.src pk.msgId then s else
    match collAt s pk.ctx with
    | none => packetBad s
    | some c =>
      match (posOf s c pk.src).bind (fun q => c.peers.find? (fun p => p.pos == q)) with
      | none => packetBad s
      | some p =>
        if c.desc.op ≠ op ∨ !(ok c p) then packetBad s
        else collPump (f (noteApplied s pk.src pk.msgId) c p) pk.ctx))

/-- Whether a packet of a count list obeys R309: the list holds `n` counts and is padded with zero to 16 bytes. -/
def listOk (pk : Packet) (n : Nat) : Bool :=
  let at0 := pk.addr.toNat
  decide (at0 % 16 = 0) && decide (pk.aux.toNat = pad16 (4 * n)) && decide (at0 + pk.payload.length ≤ pk.aux.toNat)
    && (pk.payload.drop (4 * n - at0)).all (· == 0)

/-- NLOCAL of a position, from E2M (R305). -/
def nlocalAt (c : Coll) (q : Nat) : Nat := nlocalOf c.e2m q

/-- EXCH_COUNT (R306, R309). -/
def execExchCount (pk : Packet) (s : State) : Answer :=
  .next (takeExch s pk kExchCount 4 (fun c _ => listOk pk (nlocalAt c c.pos)) (fun s c p =>
    peerUpd s c.desc.id p.pos (fun p => { p with
      countTotal := some pk.aux.toNat, countGot := p.countGot + pk.payload.length,
      countList := keepBytes p.countList pk.addr.toNat pk.payload })))

/-- EXCH_ADMIT (R306, R309). -/
def execExchAdmit (pk : Packet) (s : State) : Answer :=
  .next (takeExch s pk kExchAdmit 4 (fun c p => listOk pk (nlocalAt c p.pos)) (fun s c p =>
    peerUpd s c.desc.id p.pos (fun p => { p with
      admitTotal := some pk.aux.toNat, admitGot := p.admitGot + pk.payload.length,
      admitList := keepBytes p.admitList pk.addr.toNat pk.payload })))

/-- Keep stream bytes of a position. -/
def keepStream (pk : Packet) (s : State) (c : Coll) (p : Peer1) : State :=
  peerUpd s c.desc.id p.pos (fun p => { p with
    got0 := p.got0 + pk.payload.length, stream := keepBytes p.stream pk.addr.toNat pk.payload })

/-- Whether stream bytes lie within what the position owes. -/
def streamOk (pk : Packet) (c : Coll) (p : Peer1) : Bool :=
  decide (pk.aux = 0) && decide (1 ≤ pk.len.toNat) && decide (pk.addr.toNat % 16 = 0) && decide (pk.addr.toNat + pk.payload.length ≤ streamOwed c p.pos 0)

/-- EXCH_DATA (R307, R309). -/
def execExchData (pk : Packet) (s : State) : Answer :=
  .next (takeExch s pk kExchData 4 (streamOk pk) (keepStream pk))

/-- EXCH_RETURN (R308, R309). -/
def execExchReturn (pk : Packet) (s : State) : Answer :=
  .next (takeExch s pk kExchReturn 5 (streamOk pk) (keepStream pk))

end Sys2Proof.Machine
end

