-- ==== Sys2Proof/Machine/MgmtOps.lean ====
section
/-!
DEFINITION. The management session's own mechanics (R473 to R476, R486): sending, acknowledging, queueing and resending
messages, event notifications, and the export stream of channel 3 (R390).
-/

namespace Sys2Proof.Machine

/-- SEQ of R533 as a number. -/
def seqNat (boot count : Nat) : Nat := boot * 2 ^ 40 + count

/-- The 32 bytes of a log entry (R460). -/
def entryBytes (e : LogEntry) : List Byte :=
  leBytes 8 e.time.toNat ++ leBytes 8 (entryKey e) ++ leBytes 2 e.page ++ leBytes 1 e.bit ++ leBytes 1 e.kind
    ++ leBytes 4 (e.data.getD 0 0).toNat ++ leBytes 4 (e.data.getD 1 0).toNat ++ leBytes 4 (e.data.getD 2 0).toNat

/-- Change the manager. -/
def setMgmt (s : State) (m : Mgmt) : State := { s with mgmt := m }
/-- Replace the session. -/
def setSession (s : State) (x : Option Session) : State := setMgmt s { s.mgmt with session := x }

/-- Whether frames leave the management port: the link is up and the transmitter enabled (R519, R520). -/
def linkSends (s : State) : Bool := flag s 0x10 stMgmtLinkLinkUp && !s.mgmt.txDisabled

/-- Put a message on the wire. -/
def putMsg (s : State) (m : MgmtMsg) : State :=
  if linkSends s then bump (setMgmt s { s.mgmt with wire := s.mgmt.wire ++ [m] }) 0x10 fMgmtLinkTxFrames else s

/-- Send an unsequenced message on the session; its header acknowledges what has been delivered (R475). -/
def sendOut (s : State) (typ chan : Nat) (payload : List Byte) : State :=
  match s.mgmt.session with
  | none => s
  | some x =>
    let s := putMsg s ⟨x.peer, typ, x.id, 0, x.inSeq, chan, payload⟩
    setSession s (some { x with ackOwed := none, sentAt := now s })

/-- Send a sequenced message, or queue it while 256 are unacknowledged (R475). -/
def sendSeq (s : State) (typ chan : Nat) (payload : List Byte) (entries : List (Nat × Nat)) : State :=
  match s.mgmt.session with
  | none => s
  | some x =>
    if 256 ≤ x.unacked.length ∨ x.queue ≠ [] then
      setSession s (some { x with queue := x.queue ++ [(typ, chan, payload, entries)] })
    else
      let m : MgmtMsg := ⟨x.peer, typ, x.id, x.outSeq + 1, x.inSeq, chan, payload⟩
      let s := putMsg s m
      setSession s (some { x with unacked := x.unacked ++ [⟨m, now s, 0, entries⟩], outSeq := x.outSeq + 1,
                                  ackOwed := none, sentAt := now s })

/-- Send what waits for room, at most `n` messages. -/
def drainQueue : Nat → State → State
  | 0, s => s
  | n + 1, s =>
    match s.mgmt.session with
    | none => s
    | some x =>
      match x.queue with
      | [] => s
      | q :: r =>
        if 256 ≤ x.unacked.length then s else
        let s := setSession s (some { x with queue := [] })
        let s := sendSeq s q.1 q.2.1 q.2.2.1 q.2.2.2
        match s.mgmt.session with
        | none => s
        | some y => drainQueue n (setSession s (some { y with queue := r }))

/-- Send log entries from the session's next SEQ on, 44 to a message, at most `n` messages (R462, R486). -/
def pumpEventsN : Nat → State → State
  | 0, s => s
  | n + 1, s =>
    match s.mgmt.session with
    | none => s
    | some x =>
      if 256 ≤ x.unacked.length ∨ x.queue ≠ [] then s else
      let l := (s.health.log.filter (fun e => decide (seqNat x.nextEvent.1 x.nextEvent.2 ≤ entryKey e) && entryHeld s e)).take 44
      match l.getLast? with
      | none => s
      | some e =>
        let s := setSession s (some { x with nextEvent := (e.boot, e.count + 1) })
        pumpEventsN n (sendSeq s 0x31 5 (l.map entryBytes).flatten (l.map (fun e => (e.boot, e.count))))

/-- Send the log entries that the session still lacks. -/
def pumpEvents (s : State) : State := pumpEventsN 256 s

/-- The SEQ from which notifications start: the one asked for, or the oldest held when that is zero or no longer held
(R486). -/
def firstEvent (s : State) (want : Nat) : Nat × Nat :=
  match s.health.log with
  | [] => (s.health.boot, s.health.logCount + 1)
  | e :: _ =>
    if want ≠ 0 ∧ s.health.log.any (fun x => entryKey x == want) then (want / 2 ^ 40, want % 2 ^ 40)
    else if want ≠ 0 ∧ (s.health.log.all (fun x => decide (entryKey x < want))) then (want / 2 ^ 40, want % 2 ^ 40)
    else (e.boot, e.count)

/-! ### Export and import (R390, R391) -/

/-- Show a transfer in XFER_STAT (R395). -/
def noteXfer (s : State) (moved records result : Nat) : State :=
  setWide s 0xB wXferStat (wideOf [moved % 2 ^ 32, moved / 2 ^ 32, records, result])

/-- Records of the transfer shown last. -/
def xferRecords (s : State) : Nat := wideWord (wideVal s 0xB wXferStat) 2

/-- A transfer ends with a result of R396. -/
def endXfer (s : State) (code : Nat) : State :=
  match s.store.xfer with
  | none => s
  | some x =>
    let moved := if x.isImport then x.data.length else x.moved
    let s := noteXfer (setStore s { s.store with xfer := none }) moved (xferRecords s) code
    raise (setFlag s 0xB stStore3Transfer false) 0xB (if code = 1 then evStore3XferDone else evStore3XferFailed)

/-- Send chunks of the export stream while the session has room, at most `n` (R390, R475, R479). -/
def pumpExportN : Nat → State → State
  | 0, s => s
  | n + 1, s =>
    match s.mgmt.session, s.store.xfer with
    | some y, some x =>
      if x.isImport ∨ x.len ≤ x.moved ∨ 256 ≤ y.unacked.length ∨ y.queue ≠ [] then s else
      let k := min 1400 (x.len - x.moved)
      let bytes := (List.range k).map (fun i => mapGet (fun _ => (0 : Byte)) (x.moved + i) x.data)
      let s := sendSeq s 0x20 3 (leBytes 8 x.moved ++ bytes) []
      let s := setStore s { s.store with xfer := some { x with moved := x.moved + k } }
      pumpExportN n (noteXfer s (x.moved + k) (xferRecords s) 0)
    | _, _ => s

/-- Whether an export has been sent and acknowledged whole. -/
def exportDone (s : State) : Bool :=
  match s.mgmt.session, s.store.xfer with
  | some y, some x => !x.isImport && decide (0 < x.len) && decide (x.len ≤ x.moved)
      && !(y.unacked.any (fun u => u.msg.chan == 3)) && !(y.queue.any (fun q => q.2.1 == 3))
  | _, _ => false

/-- Send what the session has room for: queued messages, the export stream, log entries. -/
def pumpSession (s : State) : State :=
  let s := pumpExportN 256 (drainQueue 256 s)
  pumpEvents (if exportDone s then endXfer s 1 else s)

/-- The peer acknowledges up to `ack` (R475); log entries that such messages carried count as read (R461). -/
def takeAck (s : State) (ack : Nat) : State :=
  match s.mgmt.session with
  | none => s
  | some x =>
    if x.outSeq < ack then s else
    let read := ((x.unacked.filter (fun u => decide (u.msg.seq ≤ ack))).map (·.entries)).flatten
    let s := setSession s (some { x with unacked := x.unacked.filter (fun u => decide (ack < u.msg.seq)) })
    let s := { s with health := { s.health with log := s.health.log.map (fun e =>
      if read.contains (e.boot, e.count) then { e with read := true } else e) } }
    pumpSession s

end Sys2Proof.Machine
end

