-- ==== Sys2Proof/Machine/UpdOps.lean ====
section
/-!
DEFINITION. Shared operations of ledger checks (R327, R328) and of the update units (12_update.md).
-/

namespace Sys2Proof.Machine

/-! ### Ledger checks -/

/-- Armed checks of a die. -/
def ledgersOf (s : State) (d : Nat) : List Ledger := mapGet (fun _ => ([] : List Ledger)) d s.ledgers
/-- Replace the armed checks of a die. -/
def setLedgers (s : State) (d : Nat) (l : List Ledger) : State := { s with ledgers := mapSet (fun _ => ([] : List Ledger)) d l s.ledgers }

/-- Read a ledger check record; none where R327 refuses it. -/
def readLedger (v : Nat) : Option Ledger :=
  let w (off : Nat) : Nat := bitsOf v (8 * off) 32
  let q (off : Nat) : Nat := bitsOf v (8 * off) 64
  let ok := decide (w 0 ≠ 0) && decide (1 ≤ w 4) && decide (w 4 ≤ 16384) && bufOk (q 8) && bufOk (q 0x10) && ctrOk (q 0x18)
    && decide (q 0x28 ≠ 0) && ctrOk (q 0x28) && bufOk (q 0x30) && decide (q 0x38 = 0)
    && decide (q 8 + 16 * w 4 ≤ bulkEnd) && decide (q 0x10 + 16 * w 4 ≤ bulkEnd)
  if ok then some ⟨BitVec.ofNat 32 (w 0), w 4, q 8, q 0x10, q 0x18, BitVec.ofNat 64 (q 0x20), q 0x28, q 0x30, false⟩ else none

/-- LEDGER_ARM's effect (R192, R327). -/
def armLedger (s : State) (d a : Nat) : State :=
  let bad (s : State) : State := raise s (pgDie d) evWorkerDieLedgerBad
  if a % 64 ≠ 0 ∨ a + 64 > bulkEnd ∨ (ledgersOf s d).length ≥ 64 then bad s else
  let r := memReadNat s a 64
  match r.2.bind readLedger with
  | none => bad r.1
  | some l =>
    let z := startNow r.1 l.startCtr l.startTgt
    match z.2 with
    | none => bad z.1
    | some b => setLedgers z.1 d (ledgersOf z.1 d ++ [{ l with started := b }])

/-- GATE_ADD's effect (R337). -/
def gateAdd (s : State) (d a : Nat) : State :=
  if a % 8 ≠ 0 ∨ a + 8 > bulkEnd then raise s (pgDie d) evWorkerDieLedgerBad
  else
    let r := addOne s a
    raiseIf (!r.2) r.1 (pgDie d) evWorkerDieLedgerBad

/-- Reason for which a ledger entry fails, 0 when it does not (R328). -/
def ledgerReason (ref cur : List Byte) : Nat :=
  let w (b : List Byte) (i : Nat) : Nat := leNat ((b.drop (4 * i)).take 4)
  if w ref 3 ≠ 1 then 1 else if w cur 3 ≠ 1 then 2
  else if w ref 0 ≠ w cur 0 then 3 else if w ref 1 ≠ w cur 1 then 4 else if w ref 2 ≠ w cur 2 then 5 else 0

/-- The three words of a MEM_ERR result that R328 gives no value; the reason is one of 0x01 to 0x05 (log 44). -/
def memErrWords (seed : Nat) : List Nat :=
  [(Config.freeWord seed).toNat, (Config.freeWord (seed + 1)).toNat, 1 + (Config.freeWord (seed + 2)).toNat % 5]

/-- Run one ledger check (R328). A check counts once its result is written (R336). -/
def runLedger (s : State) (d : Nat) (l : Ledger) : State :=
  let pg := pgDie d
  let s := setLedgers s d ((ledgersOf s d).erase l)
  let a := memRead s l.ref (16 * l.nr)
  let b := memRead a.1 l.cur (16 * l.nr)
  let put (s : State) (ws : List Nat) : State × Bool :=
    let w := memWrite s l.result (ws.map (leBytes 4)).flatten
    (if w.2 then bump w.1 pg fWorkerDieLedgerCheckCount else w.1, w.2)
  match a.2, b.2 with
  | some x, some y =>
    let rs := List.zipWith ledgerReason (pieces 16 l.nr x) (pieces 16 l.nr y)
    let n := (rs.filter (· != 0)).length
    let q := rs.findIdx? (· != 0)
    let ws := if n = 0 then [1, 0, 0xFFFFFFFF, 0] else [2, n, q.getD 0, rs.getD (q.getD 0) 0]
    let w := put b.1 ws
    if n = 0 then (if w.2 then (addOne w.1 l.gate).1 else w.1)
    else
      let s := raise (bump w.1 pg fWorkerDieVersionMismatchCount) pg evWorkerDieVersionMismatch
      setWide s pg wLedgerLast (wideOf (ws ++ [l.id.toNat]))
  | _, _ =>
    let f := takeFree b.1 3
    raise (put f.2 (3 :: memErrWords f.1)).1 pg evWorkerDieLedgerBad

/-! ### FP32 operations of the update unit (R342) -/

/-- FP32 sum. -/
def f32Add (a b : Word) : Word := addFp32 .rne a b
/-- FP32 difference. -/
def f32Sub (a b : Word) : Word := toFp32 .rne (Num.add (decodeFp32 a) (Num.negate (decodeFp32 b)))
/-- FP32 product. -/
def f32Mul (a b : Word) : Word := mulFp32 .rne a b

/-- FP32 quotient, correctly rounded (R75, R342). -/
def f32Div (a b : Word) : Word :=
  match decodeFp32 a, decodeFp32 b with
  | .nan, _ => nan32
  | _, .nan => nan32
  | .inf _, .inf _ => nan32
  | .inf x, .fin y _ _ => if x != y then negInf32 else inf32
  | .fin x _ _, .inf y => if x != y then 0x80000000 else 0
  | .fin x m e, .fin y n f =>
    if n = 0 then (if m = 0 then nan32 else if x != y then negInf32 else inf32)
    else BitVec.ofNat 32 (roundRatio fmtFp32 .rne (x != y) m n (e - f))

/-- FP32 2^k-th root of a value, correctly rounded: `k` is 1 or 2 (R342). -/
def f32Root (k : Nat) (a : Word) : Word :=
  match decodeFp32 a with
  | .nan => nan32
  | .inf x => if x then nan32 else inf32
  | .fin x m e =>
    if m = 0 then a else if x then nan32 else
    let n : Int := (2 ^ k : Nat)
    let r := (e % n).toNat
    let big := m * 2 ^ r * 2 ^ 256
    let q := (e - r) / n - (256 / 2 ^ k : Nat)
    let root := if k = 1 then isqrt 160 big else isqrt 100 (isqrt 160 big)
    let exact := decide (root ^ 2 ^ k = big)
    if exact then BitVec.ofNat 32 (roundRatio fmtFp32 .rne false root 1 q) else roundBetween false root q

/-- The unsigned power of a value with one rounding. -/
def f32Pow (n : Nat) (a : Word) : Word :=
  let x := decodeFp32 a
  toFp32 .rne ((List.range n).foldl (fun p _ => Num.mul p x) (.fin false 1 0))

/-! ### Matrices (R342) -/

/-- A matrix by rows. -/
abbrev Mat := List (List Word)

/-- Rows of a list of values. -/
def toRows (cols : Nat) (l : List Word) : Mat := if cols = 0 then [] else pieces cols (l.length / cols + 1) l

/-- The transposed matrix. -/
def transposeMat (cols : Nat) (m : Mat) : Mat := (List.range cols).map (fun j => m.map (fun r => r.getD j 0))

/-- Combine two matrices element by element. -/
def zipMat (f : Word → Word → Word) (a b : Mat) : Mat := List.zipWith (List.zipWith f) a b

/-- Change every element. -/
def mapMat (f : Word → Word) (m : Mat) : Mat := m.map (·.map f)

/-- Round a value to BF16, as an FP32 word. -/
def bf16Word (w : Word) : Word := BitVec.ofNat 32 ((toBf16 .rne w).toNat * 2 ^ 16)

/-- One BF16 dot product as an array pass accumulates it: 32 elements of K a step, FP32 accumulation from the first
step's overwrite (R73, R112, R342). -/
def dotBf16 (a b : List Word) : Word :=
  let half (x : List Word) : Half := ⟨(x ++ List.replicate (16 - x.length) 0).map decodeFp32, 0, false⟩
  let g (l : List Word) : List (List Word) := pieces 32 (l.length / 32 + 1) l
  ((g a).zip (g b)).zipIdx.foldl (fun acc e =>
    let h (k : Nat) : Option Num := halfSum .bf16 (half ((e.1.1.drop k).take 16)) (half ((e.1.2.drop k).take 16))
    match pairSum .rne (h 0) (h 16) with
    | none => acc
    | some p => accumulate .rne (decide (e.2 = 0)) (.fin false 1 0) acc p) 0

/-- Product of two matrices: operands and result in BF16 (R342). -/
def mulMat (bcols : Nat) (a b : Mat) : Mat :=
  let bt := transposeMat bcols (mapMat bf16Word b)
  (mapMat bf16Word a).map (fun r => bt.map (fun c => bf16Word (dotBf16 r c)))

/-- c times the identity. -/
def scaledId (n : Nat) (c : Word) : Mat := (List.range n).map (fun i => (List.range n).map (fun j => if i = j then c else 0))

/-- One Newton-Schulz iteration (R342). -/
def nsStep (rows cols : Nat) (abc : Word × Word × Word) (x : Mat) : Mat :=
  let a := mulMat rows x (transposeMat cols x)
  let aa := mulMat rows a a
  let b := zipMat f32Add (mapMat (f32Mul abc.2.1) a) (mapMat (f32Mul abc.2.2) aa)
  zipMat f32Add (mapMat (f32Mul abc.1) x) (mulMat cols b x)

/-- The default coefficients (3.0, -3.2, 1.2). -/
def nsDefault : Word × Word × Word := (0x40400000, 0xC04CCCCD, 0x3F99999A)

/-- An FP32 sum whose order of additions the manual leaves open (R342): two terms at a time, of the values reached so far, until one is
left. -/
def sumOpen (terms : List Word) : Nat → List Word → Word
  | 0, l => l.headD 0
  | _ + 1, [] => 0
  | _ + 1, [x] => x
  | n + 1, l =>
    let i := Config.sumPick terms (2 * n) % l.length
    let rest := l.eraseIdx i
    let j := Config.sumPick terms (2 * n + 1) % rest.length
    sumOpen terms n (f32Add (l.getD i 0) (rest.getD j 0) :: rest.eraseIdx j)

/-- frob of R342: the FP32 root of the FP32 sum of the squares. -/
def frobNorm (l : List Word) : Word :=
  let sq := l.map (fun x => f32Mul x x)
  f32Root 1 (sumOpen sq sq.length sq)

/-- Orthogonalise (R342, ORTHO). -/
def orthogonalise (rows cols : Nat) (eps : Word) (coefs : List (Word × Word × Word)) (y : Mat) : Mat :=
  let n := f32Add (frobNorm y.flatten) eps
  let x := mapMat (fun v => bf16Word (f32Div v n)) y
  if rows > cols then transposeMat rows (coefs.foldl (fun x c => nsStep cols rows c x) (transposeMat cols x))
  else coefs.foldl (fun x c => nsStep rows cols c x) x

/-- FP32 of a small natural number. -/
def f32Nat (n : Nat) : Word := toFp32 .rne (.fin false n 0)

/-- Product of `n + 1` equal matrices, from the left. -/
def powMat (k : Nat) (t : Mat) : Nat → Mat
  | 0 => t
  | n + 1 => mulMat k (powMat k t n) t

/-- iroot of R342: the inverse p-th root by coupled Newton steps. -/
def invRoot (n p iters : Nat) (m : Mat) : Mat :=
  let c := f32Root (if p = 2 then 1 else 2) (f32Div (f32Nat 2) (frobNorm m.flatten))
  let mm := mapMat (f32Mul (f32Pow p c)) m
  ((List.range iters).foldl (fun (a : Mat × Mat) _ =>
    let t := mapMat (fun v => f32Div v (f32Nat p)) (zipMat f32Sub (scaledId n (f32Nat (p + 1))) a.2)
    (mulMat n a.1 t, mulMat n (powMat n t (p - 1)) a.2)) (scaledId n c, mm)).1

/-! ### Descriptors and state records -/

/-- The update unit of a die. -/
def updOf (s : State) (d : Nat) : Upd := mapGet (fun _ => ({} : Upd)) d s.upds
/-- Replace the update unit of a die. -/
def setUpd (s : State) (d : Nat) (u : Upd) : State := { s with upds := mapSet (fun _ => ({} : Upd)) d u s.upds }

/-- A state record (R339); planes in the order MASTER, MOM1, MOM2, EMA, WC_VAL, WC_SCL, WC_SIDE, FACT_L, FACT_R, ROOT_L,
ROOT_R. -/
structure StateRec where
  tensor : Nat
  rows : Nat
  cols : Nat
  m1Bf16 : Bool
  m2Bf16 : Bool
  stepCount : Nat
  elemBase : Nat
  rowOff : Nat
  wholeRows : Nat
  planes : List Nat
  b1pow : Word
  b2pow : Word
  owed : Nat
  streamed : Nat
  rsvdOk : Bool
  deriving DecidableEq, Repr

/-- Plane of a number. -/
def plane (r : StateRec) (k : Nat) : Nat := r.planes.getD k 0

/-- Read a state record from its bytes. -/
def readStateRec (v : Nat) : StateRec :=
  let w (off : Nat) : Nat := bitsOf v (8 * off) 32
  let q (off : Nat) : Nat := bitsOf v (8 * off) 64
  { tensor := bitsOf (w 0) 0 18, rows := bitsOf (w 4) 0 24, cols := bitsOf (w 8) 0 16, m1Bf16 := (w 8).testBit 16,
    m2Bf16 := (w 8).testBit 17, stepCount := w 0xC, elemBase := bitsOf (q 0x10) 0 40, rowOff := bitsOf (w 0x18) 0 24,
    wholeRows := bitsOf (w 0x1C) 0 24, planes := (List.range 11).map (fun i => q (0x20 + 8 * i)),
    b1pow := BitVec.ofNat 32 (w 0x78), b2pow := BitVec.ofNat 32 (w 0x7C), owed := w 0x84, streamed := w 0x88,
    rsvdOk := decide (w 0 < 2 ^ 18) && decide (w 4 < 2 ^ 24) && decide (w 8 < 2 ^ 18) && decide (q 0x10 < 2 ^ 40)
      && decide (w 0x18 < 2 ^ 24) && decide (w 0x1C < 2 ^ 24) && decide (w 0x8C < 2) && decide (bitsOf v (8 * 0x90) 896 = 0) }

/-- Read an update descriptor's fields and whether its reserved bits are zero (R343). -/
def readUpdDesc (v : Nat) : UpdDesc × Bool :=
  let w (off : Nat) : Nat := bitsOf v (8 * off) 32
  let q (off : Nat) : Nat := bitsOf v (8 * off) 64
  let b (off : Nat) : Word := BitVec.ofNat 32 (w off)
  ({ rule := bitsOf (w 0) 0 4, nesterov := (w 0).testBit 4, skipNf := (w 0).testBit 5, emaEn := (w 0).testBit 6,
     nsIters := bitsOf (w 0) 7 4, wcFmt := bitsOf (w 0) 11 3, split := bitsOf (w 0) 14 2, rootP := bitsOf (w 0) 16 1,
     id := b 4, state := q 8, grad := q 0x10, gscale := q 0x18, scratch := q 0x20, scratchLen := q 0x28, qdesc := q 0x30,
     coef := q 0x38, startCtr := q 0x40, startTgt := BitVec.ofNat 64 (q 0x48), doneCtr := q 0x50, status := q 0x58,
     lr := b 0x60, wd := b 0x64, b1 := b 0x68, b2 := b 0x6C, eps := b 0x70, emaDecay := b 0x74, scale := b 0x78,
     rootInterval := bitsOf (w 0x7C) 0 16 },
   decide (w 0 < 2 ^ 17) && decide (w 0x7C < 2 ^ 16))

/-- Whether a range lies in region d. -/
def inRegion (d a len : Nat) : Bool := decide (d * regionSize ≤ a) && decide (a + len ≤ (d + 1) * regionSize)

/-- An aligned range of region d. -/
def regOk (d a len al : Nat) : Bool := decide (a % al = 0) && inRegion d a len

/-- Side-list words of a row: spans times C (R71). -/
def sideWords (cols cap : Nat) : Nat := (cols + 255) / 256 * cap

/-- Bytes a row takes in a plane (R340). -/
def planeRow (wcFmt : Nat) (r : StateRec) (cap k : Nat) : Nat :=
  match k with
  | 0 => 4 * r.cols
  | 1 => if r.m1Bf16 then 2 * r.cols else 4 * r.cols
  | 2 => if r.m2Bf16 then 2 * r.cols else 4 * r.cols
  | 3 => 4 * r.cols
  | 4 => (match wcFmt with
    | 1 => r.cols / 2
    | 2 => r.cols / 2
    | 3 => r.cols
    | 4 => r.cols
    | 5 => 2 * r.cols
    | _ => 0)
  | 5 => if wcFmt = 1 ∨ wcFmt = 2 then r.cols / 16 else 0
  | 6 => 4 * sideWords r.cols cap
  | 7 => 4 * r.rows
  | 9 => 4 * r.rows
  | _ => 4 * r.cols

/-- Bytes of a row of plane k for a descriptor. -/
def rowBytesOf (d : UpdDesc) (r : StateRec) (cap k : Nat) : Nat := planeRow d.wcFmt r cap k

/-- Rows of a plane. -/
def planeRows (r : StateRec) (k : Nat) : Nat :=
  if k ≤ 6 then r.rows else if k = 7 ∨ k = 9 then r.rows else r.cols

/-- Whether a plane is required, and whether it may be present (R340). -/
def planeRule (d : UpdDesc) (cap k : Nat) : Bool × Bool :=
  match k with
  | 0 => (true, true)
  | 1 => (true, true)
  | 2 => (decide (d.rule = 1), decide (d.rule = 1))
  | 3 => (d.emaEn, true)
  | 4 => (decide (d.wcFmt ≠ 0), true)
  | 5 => (decide (d.wcFmt = 1) || decide (d.wcFmt = 2), true)
  | 6 => (decide (d.wcFmt ≠ 0) && decide (cap > 0), true)
  | _ => (decide (d.rule = 3), decide (d.rule = 3))

/-- Planes of a state record are present and placed as R338 to R340 state. -/
def planesOk (d : UpdDesc) (r : StateRec) (die cap : Nat) : Bool :=
  (List.range 11).all (fun k =>
    let a := plane r k
    let q := planeRule d cap k
    if a = 0 then !q.1 else q.2 && regOk die a (planeRows r k * rowBytesOf d r cap k) 64)

/-- Least SCRATCH_LEN (R346). -/
def scratchNeed (d : UpdDesc) (r : StateRec) : Nat :=
  let R := r.rows
  let C := r.cols
  let W := r.wholeRows
  match d.rule, d.split with
  | 2, 0 => 8 * R * C + 8 * (min R C) ^ 2
  | 2, 1 => 4 * R * C
  | 2, 2 => 12 * W * C + 8 * (min W C) ^ 2
  | 3, _ => 8 * R * C + 12 * R ^ 2 + 12 * C ^ 2
  | _, _ => 0

/-- Codes and fields that the rule takes (R343). -/
def updCodesOk (d : UpdDesc) : Bool :=
  decide (d.rule ≤ 3) && decide (d.wcFmt ≤ 5) && decide (d.split ≤ 2) && (decide (d.split = 0) || decide (d.rule = 2))
    && (!d.nesterov || decide (d.rule = 0) || decide (d.rule = 2))
    && (if d.rule ≥ 2 then decide (1 ≤ d.nsIters) && decide (d.nsIters ≤ 8) else decide (d.nsIters = 0))
    && (decide (d.rootP = 0) || decide (d.rule = 3))
    && (if d.rule = 3 then decide (1 ≤ d.rootInterval) else decide (d.rootInterval = 0))
    && (decide (d.coef = 0) || decide (d.rule = 2)) && decide (d.id ≠ 0)
    && (decide (d.wcFmt ≠ 0) || decide (d.qdesc = 0))

/-- Finite hyperparameters, the decays from 0 to 1 (R343). -/
def updHypersOk (d : UpdDesc) : Bool :=
  [d.lr, d.wd, d.b1, d.b2, d.eps, d.emaDecay, d.scale].all (fun w => !(nonFinite32 w))
    && [d.b1, d.b2, d.emaDecay].all (fun w => decide (w.toNat ≤ 0x3F800000) || decide (w = 0x80000000))

/-- Rows of GRAD that must lie in region d: ROWS, and with KFP all WHOLE_ROWS (R343). -/
def gradRows (d : UpdDesc) (r : StateRec) : Nat := if d.rule = 3 then max r.rows r.wholeRows else r.rows

/-- Addresses of a descriptor in region d (R338, R343). -/
def updAddrsOk (d : UpdDesc) (r : StateRec) (die : Nat) : Bool :=
  regOk die d.grad (4 * gradRows d r * r.cols) 16 && (decide (d.gscale = 0) || regOk die d.gscale 4 4)
    && regOk die d.scratch d.scratchLen 64
    && (decide (d.wcFmt = 0) || regOk die d.qdesc 32 32)
    && (decide (d.coef = 0) || regOk die d.coef (12 * d.nsIters) 4)
    && (decide (d.startCtr = 0) || regOk die d.startCtr 8 8) && (decide (d.doneCtr = 0) || regOk die d.doneCtr 8 8)
    && regOk die d.status 16 16

/-- ROWS and COLS in range (R339, R343). -/
def updShapeOk (d : UpdDesc) (r : StateRec) : Bool :=
  decide (1 ≤ r.rows) && decide (r.cols % 32 = 0) && decide (32 ≤ r.cols) && decide (r.cols ≤ 65504)
    && (decide (d.rule ≠ 3) || (decide (r.rows ≤ 8192) && decide (r.cols ≤ 8192)))
    && (decide (d.split ≠ 2) || decide (r.rowOff + r.rows ≤ r.wholeRows))

/-- The quantisation descriptor of an armed update, as it stood at arming (R79, log 44). -/
def updQuant (d : UpdDesc) : Option QDesc := if d.wcFmt = 0 then none else parseQDesc d.quant

/-- Cap of the side list, from the quantisation descriptor. -/
def capOf (q : Option QDesc) : Nat := (q.map (·.cap)).getD 0

/-- The bytes of the quantisation descriptor that a descriptor names: none where it cannot be read there (R343); no bytes where it has
no working copy. -/
def readQuant (s : State) (d : UpdDesc) (die : Nat) : State × Option (List Byte) :=
  if d.wcFmt = 0 then (s, some []) else
  if !(regOk die d.qdesc 32 32) then (s, none) else memRead s d.qdesc 32

/-- UPD_ARM's effect (R343). -/
def armUpd (s : State) (die a : Nat) : State :=
  let pg := pgUpd die
  let bad (s : State) : State := raise s pg evUpdateUpdBad
  if a % 64 ≠ 0 ∨ !(inRegion die a 128) ∨ (updOf s die).armed.length ≥ 64 then bad s else
  let r := memReadNat s a 128
  match r.2 with
  | none => bad r.1
  | some v =>
    let d := readUpdDesc v
    if !(d.2 && updCodesOk d.1 && updHypersOk d.1 && regOk die d.1.state 256 256) then bad r.1 else
    let x := memReadNat r.1 d.1.state 256
    match x.2 with
    | none => bad x.1
    | some sv =>
      let rec' := readStateRec sv
      let q := readQuant x.1 d.1 die
      match q.2 with
      | none => bad q.1
      | some qb =>
        let desc := { d.1 with quant := qb }
        let cap := capOf (updQuant desc)
        if desc.wcFmt ≠ 0 ∧ updQuant desc = none then bad (raise q.1 pg evUpdateQdescBad)
        else if rec'.rsvdOk && updShapeOk desc rec' && planesOk desc rec' die cap && updAddrsOk desc rec' die
            && decide (scratchNeed desc rec' ≤ desc.scratchLen) then
          let s := setStore q.1 { q.1.store with sideCaps := mapSet (fun _ => 0) desc.state cap q.1.store.sideCaps }
          let z := startNow s desc.startCtr desc.startTgt
          match z.2 with
          | none => bad z.1
          | some b => setUpd z.1 die { updOf z.1 die with armed := (updOf z.1 die).armed ++ [{ desc with started := b }] }
        else bad q.1

/-! ### Ends (R355) -/

/-- Update status codes (R355). -/
def usDone : Nat := 1
/-- See `usDone`. -/
def usSkipped : Nat := 2
/-- See `usDone`. -/
def usFailed : Nat := 3
/-- See `usDone`. -/
def usPartial : Nat := 4
/-- See `usDone`. -/
def usAborted : Nat := 5
/-- See `usDone`. -/
def usJournalLost : Nat := 6

/-- Write a status record and, for DONE and SKIPPED, add the done counter (R355). -/
def updStatus (s : State) (die : Nat) (d : UpdDesc) (code committed total nf : Nat) : State :=
  let pg := pgUpd die
  let bytes := leBytes 4 code ++ leBytes 4 d.id.toNat ++ leBytes 2 committed ++ leBytes 2 total ++ leBytes 4 (min nf (2 ^ 32 - 1))
  let w := memWrite s d.status bytes
  let s := if code = usDone then bump w.1 pg fUpdateUpdatesDone else w.1
  let s := raiseIf (decide (code = usSkipped)) s pg evUpdateUpdSkipped
  if code ≤ usSkipped then (if d.doneCtr = 0 ∨ !w.2 then s else (addOne s d.doneCtr).1)
  else raise s pg evUpdateUpdFailed

/-- Take back a tile of the unit that waits in the dispatcher's store; one on a core runs on, and nothing waits for it (log 24). -/
def dropTile (s : State) (die : Nat) (x : UpdRun) : State :=
  match x.work.bind (·.tile) with
  | none => s
  | some id =>
    if (entryOf (dispOf s die) id).any (fun e => e.core.isNone) then setDisp s die (freeEntry (dispOf s die) id) else s

/-- A shard that a capture could not mark while its update was committing is owed once the commit phase is over (R353). -/
def oweLate (s : State) (state : Nat) : State :=
  match s.store.capture with
  | none => s
  | some c =>
    if !(c.later.contains state) then s else
    let w := memWrite s (state + 0x84) (leBytes 4 c.num)
    setStore w.1 { w.1.store with capture := some { c with later := c.later.filter (· != state) } }

/-- End the running update; PARTIAL and JOURNAL_LOST keep the log and hold the unit (R352, R356). -/
def endUpd (s : State) (die : Nat) (x : UpdRun) (code : Nat) : State :=
  let s := dropTile s die x
  let keep := decide (code = usPartial) || decide (code = usJournalLost)
  let s := setUpd s die { updOf s die with run := if keep then some { x with held := true, waiting := none, work := none } else none }
  oweLate (updStatus s die x.desc code x.next x.total x.nf) x.desc.state

/-- The end of a bus error: FAILED before any commit, PARTIAL after (R355). -/
def failUpd (s : State) (die : Nat) (x : UpdRun) : State := endUpd s die x (if x.next = 0 then usFailed else usPartial)

/-! ### Prepare (R346, R347, R342) -/

/-- FP32 words of a range. -/
def readWords (s : State) (a n : Nat) : State × Option (List Word) :=
  let r := memRead s a (4 * n)
  (r.1, r.2.map wordsOfBytes)

/-- A momentum plane's row range as FP32 words (R340). -/
def readMom (s : State) (a : Nat) (bf : Bool) (first n cols : Nat) : State × Option (List Word) :=
  if bf then
    let r := memRead s (a + 2 * first * cols) (2 * n * cols)
    (r.1, r.2.map (fun b => (pieces 2 (n * cols) b).map (fun h => BitVec.ofNat 32 (leNat h * 2 ^ 16))))
  else readWords s (a + 4 * first * cols) (n * cols)

/-- gs: the word at GSCALE_ADDR, or 1.0 (R342). -/
def gradScale (s : State) (d : UpdDesc) : State × Option Word :=
  if d.gscale = 0 then (s, some one32) else
  let r := memReadNat s d.gscale 4
  (r.1, r.2.map (BitVec.ofNat 32))

/-- The scaled gradient of rows `first` to `first + n - 1`. -/
def scaledGrad (s : State) (d : UpdDesc) (r : StateRec) (first n : Nat) : State × Option (List Word) :=
  let gs := gradScale s d
  match gs.2 with
  | none => (gs.1, none)
  | some k =>
    let g := readWords gs.1 (d.grad + 4 * first * r.cols) (n * r.cols)
    (g.1, g.2.map (fun l => l.map (fun v => f32Mul v k)))

/-- Coefficient triples of ORTHO (R342). -/
def readCoefs (s : State) (d : UpdDesc) : State × Option (List (Word × Word × Word)) :=
  if d.coef = 0 then (s, some (List.replicate d.nsIters nsDefault)) else
  let r := readWords s d.coef (3 * d.nsIters)
  (r.1, r.2.map (fun l => (pieces 3 d.nsIters l).map (fun t => (t.getD 0 0, t.getD 1 0, t.getD 2 0))))

/-- What the matrix work leaves: momentum and update of the shard's rows, new factors and roots by KIND. -/
structure MatOut where
  m : List Word
  o : List Word
  extra : List (Nat × List Word)
  deriving DecidableEq, Repr

/-- beta1 * m + g, element by element. -/
def momentum (b1 : Word) (m g : List Word) : List Word := List.zipWith (fun x y => f32Add (f32Mul b1 x) y) m g

/-- ORTHO's prepare phase on a whole shard (SPLIT 0) or gathered matrix (SPLIT 2) (R342). -/
def orthoPrepare (s : State) (d : UpdDesc) (r : StateRec) (g : List Word) : State × Option MatOut :=
  let coefs := readCoefs s d
  if d.split = 2 then
    let whole := readWords coefs.1 d.scratch (r.wholeRows * r.cols)
    match coefs.2, whole.2 with
    | some cs, some m =>
      let f := takeFree whole.1 (r.wholeRows * r.cols)
      -- the gradient of the other members' rows is not in this member's memory: with NESTEROV it is left open
      let y := if d.nesterov then m.zipIdx.map (fun e =>
          let own := decide (r.rowOff * r.cols ≤ e.2) && decide (e.2 < (r.rowOff + r.rows) * r.cols)
          f32Add (f32Mul d.b1 e.1) (if own then g.getD (e.2 - r.rowOff * r.cols) 0 else Config.freeWord (f.1 + e.2)))
        else m
      let o := (orthogonalise r.wholeRows r.cols d.eps cs (toRows r.cols y)).flatten
      let cut (l : List Word) : List Word := (l.drop (r.rowOff * r.cols)).take (r.rows * r.cols)
      (f.2, some ⟨cut m, cut o, []⟩)
    | _, _ => (whole.1, none)
  else
    let m0 := readMom coefs.1 (plane r 1) r.m1Bf16 0 r.rows r.cols
    match coefs.2, m0.2 with
    | some cs, some m =>
      let m' := momentum d.b1 m g
      let y := if d.nesterov then momentum d.b1 m' g else m'
      (m0.1, some ⟨m', (orthogonalise r.rows r.cols d.eps cs (toRows r.cols y)).flatten, []⟩)
    | _, _ => (m0.1, none)

/-- KFP's prepare phase (R342). -/
def kfpPrepare (s : State) (d : UpdDesc) (r : StateRec) (g : List Word) : State × Option MatOut :=
  let a1 := readWords s (plane r 7) (r.rows * r.rows)
  let a2 := readWords a1.1 (plane r 8) (r.cols * r.cols)
  let a3 := readWords a2.1 (plane r 9) (r.rows * r.rows)
  let a4 := readWords a3.1 (plane r 10) (r.cols * r.cols)
  let m0 := readMom a4.1 (plane r 1) r.m1Bf16 0 r.rows r.cols
  match a1.2, a2.2, a3.2, a4.2, m0.2 with
  | some fl, some fr, some rl, some rr, some m =>
    let gm := toRows r.cols g
    let gt := transposeMat r.cols gm
    let l' := zipMat f32Add (mapMat (f32Mul d.b2) (toRows r.rows fl)) (mulMat r.rows gm gt)
    let r' := zipMat f32Add (mapMat (f32Mul d.b2) (toRows r.cols fr)) (mulMat r.cols gt gm)
    let fresh := decide ((r.stepCount + 1) % max 1 d.rootInterval = 0)
    let p := if d.rootP = 0 then 2 else 4
    let damp (n : Nat) (x : Mat) : Mat := zipMat f32Add x (scaledId n d.eps)
    let ql := if fresh then invRoot r.rows p d.nsIters (damp r.rows l') else toRows r.rows rl
    let qr := if fresh then invRoot r.cols p d.nsIters (damp r.cols r') else toRows r.cols rr
    let pm := mulMat r.cols (mulMat r.cols ql gm) qr
    let m' := momentum d.b1 m pm.flatten
    (m0.1, some ⟨m', m', [(1, l'.flatten), (2, r'.flatten)] ++ (if fresh then [(3, ql.flatten), (4, qr.flatten)] else [])⟩)
  | _, _, _, _, _ => (m0.1, none)

/-- Rows of a sub-shard cut: as many as fit in 64 MiB, and at least one (R350). -/
def rowsFit (rowB : Nat) : Nat := max 1 (0x4000000 / max 1 rowB)

/-- Bytes of one row of an image (R350). -/
def imageRow (d : UpdDesc) (r : StateRec) (cap : Nat) : Nat :=
  (List.range 7).foldl (fun a k => if plane r k = 0 then a else a + rowBytesOf d r cap k) 0

/-- The cut of a number of rows: first row and count of each piece. -/
def cutRows (n fit : Nat) : List (Nat × Nat) :=
  (List.range ((n + fit - 1) / fit)).map (fun i => (i * fit, min fit (n - i * fit)))

/-- Bytes of one row of a sub-shard of a KIND (R350). -/
def kindRow (d : UpdDesc) (r : StateRec) (cap k : Nat) : Nat :=
  if k = 0 then imageRow d r cap else 4 * (if k = 1 ∨ k = 3 then r.rows else r.cols)

/-- The last sub-shard also carries 16 bytes: where they would not fit in its 64 MiB, its last row makes one more (R350). -/
def fitTail (d : UpdDesc) (r : StateRec) (cap : Nat) (l : List (Nat × Nat × Nat)) : List (Nat × Nat × Nat) :=
  match l.getLast? with
  | none => l
  | some (k, first, n) =>
    if n ≤ 1 ∨ n * kindRow d r cap k + 16 ≤ 0x4000000 then l
    else l.dropLast ++ [(k, first, n - 1), (k, first + n - 1, 1)]

/-- The sub-shards of an update: KIND, first row, rows (R350). -/
def subShards (d : UpdDesc) (r : StateRec) (cap : Nat) (kinds : List Nat) : List (Nat × Nat × Nat) :=
  fitTail d r cap (((0 :: kinds).map (fun k =>
    let n := if k = 0 ∨ k = 1 ∨ k = 3 then r.rows else r.cols
    (cutRows n (rowsFit (kindRow d r cap k))).map (fun c => (k, c.1, c.2)))).flatten)

/-- The scratch of matrix rules holds what the unit's tiles left there (R342, R346): open beyond the gathered input. -/
def openScratch (s : State) (d : UpdDesc) (r : StateRec) : State :=
  let need := scratchNeed d r
  let keep := if d.split = 2 then 4 * r.wholeRows * r.cols else 0
  if d.rule ≤ 1 ∨ need ≤ keep then s else openRange s (d.scratch + keep) (need - keep)

/-- Count the unit's results and raise the events of R359 (R90, R354). -/
def updCounts (s : State) (die : Nat) (c : FmtCounts) : State :=
  let p := pgUpd die
  let s := bumpBy (bumpBy s p fUpdateInfCount c.inf) p fUpdateNanCount c.nan
  let s := raiseIf (decide (c.inf + c.nan > 0)) s p evUpdateNonfinite
  let s := raiseIf (decide (c.spill > 0)) (bumpBy s p fUpdateSpillCount c.spill) p evUpdateOutlierSpill
  let s := raiseIf (decide (c.satBlock > 0)) (bumpBy s p fUpdateSatBlockCount c.satBlock) p evUpdateSaturatedBlocks
  raiseIf (decide (c.satValue > 0)) (bumpBy s p fUpdateSatValueCount c.satValue) p evUpdateSaturatedValues

/-- Replace the running update. -/
def setRun (s : State) (die : Nat) (x : UpdRun) : State := setUpd s die { updOf s die with run := some x }

/-- Array tiles of a prepare phase: one for each matrix product of the rule (R342, R348, log 24). -/
def matProducts (d : UpdDesc) (r : StateRec) : Nat :=
  if d.rule = 2 then 3 * d.nsIters
  else if (r.stepCount + 1) % max 1 d.rootInterval = 0 then 4 + 2 * d.nsIters * (1 + (if d.rootP = 0 then 2 else 4)) else 4

/-- The task of a tile of the unit (R348): replayable, PREEMPT = 1, ACC_SLOTS = 16, PRIO = UPD_PRIO, its image and its done counter
in UPD_AREA. What Fethaum puts there, and so the image's length, tag, entry and arguments, is open (log 24). -/
def updTask (s : State) (die : Nat) (id : Word) (f : Nat) : Task :=
  let area := (wideVal s (pgUpd die) wUpdArea).toNat % 2 ^ 64
  let w (k : Nat) : Nat := (Config.freeWord (f + k)).toNat
  let len := 1 + w 0 % 8192
  { img := area, len := len, tag := Config.freeWord (f + 1), entry := w 2 % len, slots := 16, nonReplay := false,
    prio := fld s (pgUpd die) fUpdateUpdPrio, preempt := true, ref := id, done := area + 8 * (w 3 % 131072),
    args := (List.range 4).map (fun k => Config.freeDword (f + 4 + k)) }

/-- Submit the next tile as a mode 0 release to the die's dispatcher (R194, R348); a full store takes it when an entry is free
(R196). -/
def submitTile (s : State) (die : Nat) (x : UpdRun) (w : UpdWork) : State :=
  if storeFree (dispOf s die) = 0 then
    raiseIf (!w.late) (setRun s die { x with work := some { w with late := true } }) (pgDisp die) evDispatcherStoreOverflow
  else
    let f := takeFree s 8
    let p := dispOf f.2 die
    let bell := bellAt f.2 die (dispTime f.2 die + fld f.2 (pgDisp die) fDispatcherBellLead)
    let s := setDisp f.2 die { p with nextOrder := p.nextOrder + 1 }
    let s := addEntry s die (updTask s die x.desc.id f.1) bell p.nextOrder
    setRun s die { x with work := some { left := w.left - 1, tile := some p.nextId } }

/-- The prepare phase is over: the commits come next, of what the matrix work left (R346). -/
def enterCommit (s : State) (die : Nat) (x : UpdRun) (r : StateRec) (mo : MatOut) : State :=
  let n := (subShards x.desc r (capOf (updQuant x.desc)) (mo.extra.map (·.1))).length
  setRun (openScratch s x.desc r) die { x with
    phase := .commit, mNew := mo.m, oNew := mo.o, extra := mo.extra, next := 0, total := n, image := none, work := none }

/-- The state record and the scaled gradient that a prepare phase reads; none is a bus error. -/
def prepareReads (s : State) (d : UpdDesc) : State × Option (StateRec × List Word) :=
  let r0 := memReadNat s d.state 256
  match r0.2 with
  | none => (r0.1, none)
  | some v =>
    let r := readStateRec v
    let g := scaledGrad r0.1 d r 0 r.rows
    (g.1, g.2.map (fun l => (r, l)))

/-- ORTHO with SPLIT 1 writes the shard's new momentum to scratch and ends (R342); its results count (R75, R354). -/
def momentumOut (s : State) (die : Nat) (x : UpdRun) (r : StateRec) (g : List Word) : State :=
  let m0 := readMom s (plane r 1) r.m1Bf16 0 r.rows r.cols
  match m0.2 with
  | none => failUpd m0.1 die x
  | some m =>
    let out := momentum x.desc.b1 m g
    let w := memWrite m0.1 x.desc.scratch (out.map (fun v => leBytes 4 v.toNat)).flatten
    if w.2 then endUpd (updCounts w.1 die (countFp32s out)) die x usDone else failUpd w.1 die x

/-- The scan for non-finite gradients, the end of an update that it skips, and the start of the matrix work (R346 to R348). -/
def prepareStart (s : State) (die : Nat) (x : UpdRun) : State :=
  let d := x.desc
  let i := prepareReads s d
  match i.2 with
  | none => failUpd i.1 die x
  | some (r, g) =>
    let nf := (g.filter nonFinite32).length
    let x := { x with nf := nf, b1pow := f32Mul r.b1pow d.b1, b2pow := f32Mul r.b2pow d.b2 }
    let s := bumpBy i.1 (pgUpd die) fUpdateNonfiniteGradCount nf
    if d.skipNf && decide (nf > 0) then endUpd s die x usSkipped
    else if d.rule ≤ 1 then enterCommit s die x r ⟨[], [], []⟩
    else if d.split = 1 then momentumOut s die x r g
    else submitTile s die x { left := matProducts d r }

/-- With every tile done, what their products give (R342). -/
def prepareFinish (s : State) (die : Nat) (x : UpdRun) : State :=
  let i := prepareReads s x.desc
  match i.2 with
  | none => failUpd i.1 die x
  | some (r, g) =>
    let o := if x.desc.rule = 2 then orthoPrepare i.1 x.desc r g else kfpPrepare i.1 x.desc r g
    match o.2 with
    | none => failUpd o.1 die x
    | some mo => enterCommit o.1 die x r mo

/-- A round of the prepare phase: its start, the next tile once the last one is done, or its end (R346, R348). -/
def prepareUpd (s : State) (die : Nat) (x : UpdRun) : State :=
  match x.work with
  | none => prepareStart s die x
  | some w => if w.tile.isSome then s else if w.left = 0 then prepareFinish s die x else submitTile s die x w

/-- A store entry of the die's dispatcher has ended: where it was the unit's tile, the work goes on, or a failure ends the update
(R348). -/
def updTileEnd (s : State) (die id : Nat) (done : Bool) : State :=
  match (updOf s die).run with
  | none => s
  | some x =>
    match x.work with
    | none => s
    | some w =>
      if w.tile ≠ some id then s
      else if done then setRun s die { x with work := some { w with tile := none } }
      else endUpd s die { x with work := none } usFailed

/-! ### Commit (R350 to R353) -/

/-- Rounding of an element at one of the unit's own sites (R345). -/
def updRnd (key : NoiseWords) (step stream : Word) (e : Nat) : Rnd := siteRnd true ⟨key, step, stream⟩ e

/-- What one element's rule gives: momentum, second moment, master (R342). -/
def elemRule (d : UpdDesc) (b1pow b2pow g m v w : Word) (mo : Option (Word × Word)) : Word × Word × Word :=
  let one (x : Word) : Word := f32Sub one32 x
  let fin (u : Word) : Word := f32Sub w (f32Mul d.lr (f32Add u (f32Mul d.wd w)))
  match d.rule, mo with
  | 0, _ =>
    let m' := f32Add (f32Mul d.b1 m) g
    (m', v, fin (if d.nesterov then f32Add (f32Mul d.b1 m') g else m'))
  | 1, _ =>
    let m' := f32Add (f32Mul d.b1 m) (f32Mul (one d.b1) g)
    let v' := f32Add (f32Mul d.b2 v) (f32Mul (one d.b2) (f32Mul g g))
    let u := f32Div (f32Div m' (one b1pow)) (f32Add (f32Root 1 (f32Div v' (one b2pow))) d.eps)
    (m', v', fin u)
  | _, some x => (x.1, v, fin (f32Mul d.scale x.2))
  | _, none => (m, v, w)

/-- The new EMA: its last addition rounds stochastically (R342, R345). -/
def elemEma (d : UpdDesc) (key : NoiseWords) (step : Word) (e : Nat) (ema w : Word) : Word :=
  toFp32 (updRnd key step 0xFFFF0102 e) (Num.add (decodeFp32 ema)
    (decodeFp32 (f32Mul (f32Sub one32 d.emaDecay) (f32Sub w ema))))

/-- Bytes and counts of a momentum value (R340, R345). -/
def storeMom (bf : Bool) (key : NoiseWords) (step stream : Word) (e : Nat) (w : Word) : List Byte × FmtCounts :=
  if bf then let h := toBf16 (updRnd key step stream e) w; (leBytes 2 h.toNat, countBf16 h)
  else (leBytes 4 w.toNat, countFp32 w)

/-- Join pieces with their counts. -/
def joinOut (l : List (List Byte × FmtCounts)) : List Byte × FmtCounts :=
  ((l.map (·.1)).flatten, l.foldl (fun (a : FmtCounts) x => a.add x.2) {})

/-- The working copy of a row: values, scales, side list; FP8 and BF16 extract nothing, so that all their side-list entries are unused
(R71, R344). -/
def workingCopy (d : UpdDesc) (q : QDesc) (key : NoiseWords) (step : Word) (first : Nat) (ws : List Word) :
    List Byte × List Byte × List Byte × FmtCounts :=
  let site : NoiseSite := ⟨key, step, q.stream⟩
  let rnd (j : Nat) : Rnd := siteRnd q.stoch site (q.indexBase + first + j)
  if d.wcFmt ≤ 2 then
    let o := quantRow { q with bi4 := decide (d.wcFmt = 2), indexBase := q.indexBase + first } key step ws
    (o.values, o.scales, (o.side.map (fun w => leBytes 4 w.toNat)).flatten, o.counts)
  else if d.wcFmt ≤ 4 then
    let o := ws.zipIdx.map (fun e => toFp8 (if d.wcFmt = 3 then fmtE4m3 else fmtE5m2) (rnd e.2) q.tscale e.1)
    (o.map (·.1), [], List.replicate (4 * sideWords ws.length q.cap) 0, o.foldl (fun (a : FmtCounts) x => a.add x.2) {})
  else
    let o := joinOut (ws.zipIdx.map (fun e => let h := toBf16 (rnd e.2) e.1; (leBytes 2 h.toNat, countBf16 h)))
    (o.1, [], List.replicate (4 * sideWords ws.length q.cap) 0, o.2)

/-- Old values of a sub-shard of rows: gradient, MOM1, MOM2, MASTER, EMA. -/
def oldRows (s : State) (d : UpdDesc) (r : StateRec) (first n : Nat) :
    State × Option (List Word × List Word × List Word × List Word × List Word) :=
  let g := scaledGrad s d r first n
  let m := readMom g.1 (plane r 1) r.m1Bf16 first n r.cols
  let v := if plane r 2 = 0 then (m.1, some []) else readMom m.1 (plane r 2) r.m2Bf16 first n r.cols
  let w := readWords v.1 (plane r 0 + 4 * first * r.cols) (n * r.cols)
  let e := if plane r 3 = 0 then (w.1, some []) else readWords w.1 (plane r 3 + 4 * first * r.cols) (n * r.cols)
  match g.2, m.2, v.2, w.2, e.2 with
  | some g', some m', some v', some w', some e' => (e.1, some (g', m', v', w', e'))
  | _, _, _, _, _ => (e.1, none)

/-- The image of a sub-shard of rows: planes in order, with their counts (R350). -/
def rowImage (s : State) (x : UpdRun) (r : StateRec) (q : Option QDesc) (first n : Nat) :
    State × Option (List Byte × FmtCounts) :=
  let d := x.desc
  let key := keyWords x.key
  let o := oldRows s d r first n
  match o.2 with
  | none => (o.1, none)
  | some (g, m, v, w, ema) =>
    let e0 := r.elemBase + first * r.cols
    let e (i : Nat) : Nat := r.tensor * 2 ^ 40 + e0 + i
    let res := (List.range (n * r.cols)).map (fun i =>
      let j := first * r.cols + i
      elemRule d x.b1pow x.b2pow (g.getD i 0) (m.getD i 0) (v.getD i 0) (w.getD i 0)
        (if d.rule ≥ 2 then some (x.mNew.getD j 0, x.oNew.getD j 0) else none))
    let master := joinOut (res.map (fun t => (leBytes 4 t.2.2.toNat, countFp32 t.2.2)))
    let mom1 := joinOut (res.zipIdx.map (fun t => storeMom r.m1Bf16 key x.step 0xFFFF0100 (e t.2) t.1.1))
    let mom2 := if plane r 2 = 0 then ([], {}) else
      joinOut (res.zipIdx.map (fun t => storeMom r.m2Bf16 key x.step 0xFFFF0101 (e t.2) t.1.2.1))
    let emaOut := if plane r 3 = 0 then ([], {}) else
      joinOut (res.zipIdx.map (fun t =>
        let old := ema.getD t.2 0
        if d.emaEn then let n := elemEma d key x.step (e t.2) old t.1.2.2; (leBytes 4 n.toNat, countFp32 n)
        else (leBytes 4 old.toNat, ({} : FmtCounts))))
    let wc : List (List Byte × List Byte × List Byte × FmtCounts) := match q with
      | none => []
      | some qd => (toRows r.cols (res.map (·.2.2))).zipIdx.map (fun row =>
          workingCopy d qd key x.step (e0 + row.2 * r.cols) row.1)
    let keep (k : Nat) (b : List Byte) : List Byte := if plane r k = 0 then [] else b
    let bytes := master.1 ++ mom1.1 ++ mom2.1 ++ emaOut.1 ++ keep 4 (wc.map (·.1)).flatten
      ++ keep 5 (wc.map (·.2.1)).flatten ++ keep 6 (wc.map (·.2.2.1)).flatten
    (o.1, some (bytes, wc.foldl (fun (a : FmtCounts) t => a.add t.2.2.2)
      ((master.2.add mom1.2).add (mom2.2.add emaOut.2))))

/-- The four words committed with the last sub-shard (R339, R350). -/
def tailBytes (x : UpdRun) (r : StateRec) : List Byte :=
  leBytes 4 (r.stepCount + 1) ++ leBytes 4 x.b1pow.toNat ++ leBytes 4 x.b2pow.toNat ++ leBytes 4 x.step.toNat

/-- A commit record (R351). -/
structure CommitRec where
  id : Nat
  state : Nat
  sub : Nat
  count : Nat
  seq : Nat
  rec' : Nat
  len : Nat
  crc : Nat
  rowStart : Nat
  rowCount : Nat
  kind : Nat
  deriving DecidableEq, Repr

/-- The 64 bytes of a commit record. -/
def commitBytes (c : CommitRec) : List Byte :=
  leBytes 4 c.id ++ leBytes 4 c.state ++ leBytes 2 c.sub ++ leBytes 2 c.count ++ leBytes 4 c.seq ++ leBytes 8 c.rec'
    ++ leBytes 4 c.len ++ leBytes 4 c.crc ++ leBytes 4 c.rowStart ++ leBytes 4 c.rowCount ++ leBytes 4 c.kind
    ++ List.replicate 20 0

/-- Read a commit record; none makes the copy unreadable (R351). -/
def readCommit (v : Nat) : Option CommitRec :=
  let w (off : Nat) : Nat := bitsOf v (8 * off) 32
  let c : CommitRec := ⟨w 0, bitsOf v 32 8, bitsOf v 64 16, bitsOf v 80 16, w 0xC, bitsOf v 128 64, w 0x18, w 0x1C,
    bitsOf v 256 24, bitsOf v 288 24, bitsOf v 320 4⟩
  if c.state ≤ 2 ∧ c.kind ≤ 4 then some c else none

/-- Offsets of the three copies in the journal. -/
def commitOffs : List Nat := [0x4000000, 0x4001000, 0x4002000]

/-- Write the three copies of a record; the record stands once two hold it (R351, log 82). -/
def writeCopies (s : State) (die : Nat) (c : CommitRec) : State × Bool :=
  let r := commitOffs.foldl (fun (a : State × Nat) o =>
    let w := partWrite a.1 die journalPage o (commitBytes c)
    (w.1, if w.2 then a.2 + 1 else a.2)) (s, 0)
  (r.1, decide (2 ≤ r.2))

/-- The record in force: the value that two copies hold alike (R351). -/
def voteCopies (s : State) (die : Nat) : State × Option CommitRec :=
  let r := commitOffs.foldl (fun (a : State × List (Option (List Byte))) o =>
    let x := partRead a.1 die journalPage o 64
    (x.1, a.2 ++ [x.2])) (s, [])
  let good (b : Option (List Byte)) : Bool := match b with
    | some l => (readCommit (leNat l)).isSome
    | none => false
  let c (i : Nat) : Option (List Byte) := let b := r.2.getD i none; if good b then b else none
  let pick := if (c 0).isSome && c 0 == c 1 then c 0 else if (c 0).isSome && c 0 == c 2 then c 0
    else if (c 1).isSome && c 1 == c 2 then c 1 else none
  (r.1, pick.bind (fun l => readCommit (leNat l)))

/-- Where the parts of an image go: address and bytes of each (R350, R351). -/
def imageParts (d : UpdDesc) (r : StateRec) (cap kind first n : Nat) (last : Bool) : List (Nat × Nat) :=
  (if kind = 0 then
    (List.range 7).filterMap (fun k => if plane r k = 0 then none
      else let b := rowBytesOf d r cap k; if b = 0 then none else some (plane r k + first * b, n * b))
  else
    let w := if kind = 1 ∨ kind = 3 then r.rows else r.cols
    [(plane r (6 + kind) + 4 * first * w, 4 * n * w)])
  ++ (if last then [(d.state + 0xC, 4), (d.state + 0x78, 4), (d.state + 0x7C, 4), (d.state + 0x80, 4)] else [])

/-- Copy an image home; false is a bus error. -/
def copyHome (s : State) : List (Nat × Nat) → List Byte → State × Bool
  | [], _ => (s, true)
  | (a, n) :: r, b =>
    let w := memWrite s a (b.take n)
    if w.2 then copyHome w.1 r (b.drop n) else (w.1, false)

/-- Compute the image of the next sub-shard into the journal (R351): its length, or none on a bus error. -/
def computeImage (s : State) (die : Nat) (x : UpdRun) (r : StateRec) (q : Option QDesc) : State × Option Nat :=
  let subs := subShards x.desc r (capOf q) (x.extra.map (·.1))
  let k := subs.getD x.next (0, 0, 0)
  let last := decide (x.next + 1 = x.total)
  let img := if k.1 = 0 then rowImage s x r q k.2.1 k.2.2
    else
      let w := if k.1 = 1 ∨ k.1 = 3 then r.rows else r.cols
      let all := ((x.extra.find? (fun e => e.1 == k.1)).map (·.2)).getD []
      let vals := (all.drop (k.2.1 * w)).take (k.2.2 * w)
      (s, some ((vals.map (fun v => leBytes 4 v.toNat)).flatten, countFp32s vals))
  match img.2 with
  | none => (img.1, none)
  | some (b, c) =>
    let bytes := b ++ (if last then tailBytes x r else [])
    let w := partWrite (updCounts img.1 die c) die journalPage 0 bytes
    (w.1, if w.2 then some bytes.length else none)

/-- Commit the sub-shard whose image is in the journal and copy it home (R351). -/
def commitSub (s : State) (die : Nat) (x : UpdRun) (r : StateRec) (q : Option QDesc) (len : Nat) : State :=
  let subs := subShards x.desc r (capOf q) (x.extra.map (·.1))
  let k := subs.getD x.next (0, 0, 0)
  let img := partRead s die journalPage 0 len
  match img.2 with
  | none => failUpd img.1 die x
  | some b =>
    let seq := (updOf s die).seq + 1
    let c : CommitRec := ⟨x.desc.id.toNat, 1, x.next, x.total, seq.toNat, x.desc.state, len, (crc32 b).toNat, k.2.1, k.2.2, k.1⟩
    let w := writeCopies img.1 die c
    if !w.2 then failUpd w.1 die x else
    let s := bump (setUpd w.1 die { updOf w.1 die with seq := seq, jdesc := some x.desc }) (pgUpd die) fUpdateSubshardCount
    let h := copyHome s (imageParts x.desc r (capOf q) k.1 k.2.1 k.2.2 (decide (x.next + 1 = x.total))) b
    let x' := { x with next := x.next + 1, image := none, waiting := none }
    if !h.2 then endUpd h.1 die { x with image := none, waiting := none, next := x.next + 1 } usPartial else
    let w := writeCopies h.1 die { c with state := 2 }
    if !w.2 then endUpd w.1 die x' usPartial
    else if x'.next = x.total then endUpd w.1 die x' usDone
    else setRun w.1 die x'

/-- One round of the commit phase: image, the wait of R353, commit and copy-back (R351, R353). -/
def subshardRound (s : State) (die : Nat) (x : UpdRun) : State :=
  let d := x.desc
  let r0 := memReadNat s d.state 256
  match r0.2 with
  | none => failUpd r0.1 die x
  | some v =>
    let r := readStateRec v
    let q := updQuant d
    let im := match x.image with
      | some n => (r0.1, some n)
      | none => computeImage r0.1 die x r q
    match im.2 with
    | none => failUpd im.1 die x
    | some n =>
      if r.owed > r.streamed then
        let w := memWrite im.1 (d.state + 0x8C) (leBytes 4 1)
        setRun w.1 die { x with image := some n, waiting := some (now s) }
      else commitSub im.1 die { x with image := some n } r q n

/-- A logged update goes on: a prepare phase from its beginning, a commit phase with its next sub-shard, or to its end where the
last one was committed (R352). A held one goes on at UPD_RESUME alone, so that R382 still finds it HELD after a die reset (R356). -/
def resumeRun (s : State) (die : Nat) (asked : Bool) : State :=
  match (updOf s die).run with
  | none => s
  | some x =>
    if x.held && !asked then s else
    let s := dropTile s die x
    let x' := { x with held := false, image := none, waiting := none, work := none }
    if x.phase = .commit ∧ x.next ≥ x.total then endUpd s die x' usDone else setRun s die x'

/-- The journal cannot tell what it holds: it ends the logged update JOURNAL_LOST (R352). -/
def journalLost (s : State) (die : Nat) : State :=
  raise (match (updOf s die).run with
    | some x => endUpd s die x usJournalLost
    | none => s) (pgUpd die) evUpdateJournalFail

/-- Repeat the copy-back of the record in force (R352), with the formats of the update that committed it. -/
def replayCommit (s : State) (die : Nat) (c : CommitRec) (d : UpdDesc) (asked : Bool) : State :=
  let pg := pgUpd die
  let img := partRead s die journalPage 0 c.len
  let r0 := memReadNat img.1 c.rec' 256
  let stop (s : State) : State := match (updOf s die).run with
    | some x => endUpd s die x usPartial
    | none => s
  match img.2, r0.2 with
  | some b, some sv =>
    if (crc32 b).toNat ≠ c.crc then journalLost r0.1 die else
    let h := copyHome r0.1 (imageParts d (readStateRec sv) (capOf (updQuant d)) c.kind c.rowStart c.rowCount
      (decide (c.sub + 1 = c.count))) b
    if !h.2 then stop h.1 else
    let w := writeCopies h.1 die { c with state := 2 }
    if !w.2 then stop w.1 else
    resumeRun (raise (bump w.1 pg fUpdateJournalReplayCount) pg evUpdateJournalReplayed) die asked
  | _, _ => stop r0.1

/-- The restart of the journal (R352); `asked` for UPD_RESUME. -/
def restartJournal (s : State) (die : Nat) (asked : Bool) : State :=
  let v := voteCopies s die
  match v.2, (updOf v.1 die).jdesc with
  | none, _ => journalLost v.1 die
  | some c, some d => if c.state = 1 then replayCommit v.1 die c d asked else resumeRun v.1 die asked
  | some _, none => resumeRun v.1 die asked

/-- The restart of the journal at a die wake, a die reset or a warm reset (R352). -/
def journalRestart (s : State) (die : Nat) : State := restartJournal s die false

/-- UPD_ABORT's effect (R357). -/
def abortUpd (s : State) (die : Nat) : State :=
  let u := updOf s die
  let s := setUpd s die { u with armed := [] }
  let s := u.armed.foldl (fun s d => updStatus s die d usAborted 0 0 0) s
  match u.run with
  | none => s
  | some x => if x.held then s else endUpd s die x (if x.next = 0 then usAborted else usPartial)

/-- UPD_RESUME's effect (R352, R356). -/
def resumeUpd (s : State) (die : Nat) : State := restartJournal s die true

/-- UPD_DISCARD's effect (R356): no effect unless an update is held. -/
def discardUpd (s : State) (die : Nat) : State :=
  let u := updOf s die
  match u.run with
  | some x => if x.held then setUpd s die { u with run := none } else s
  | none => s

end Sys2Proof.Machine
end

