-- ==== Sys2Proof/Machine/StoreOps.lean ====
section
/-!
DEFINITION. Shared operations of the checkpoint store (13_checkpoint.md): blocks and units (R363 to R369), the clutch
stream (R372, R373), parity (R375), securing (R376), rebuilding (R385) and restoring (R382 to R384).
-/

namespace Sys2Proof.Machine

/-- Bytes of a unit (R363). -/
def unitSize : Nat := 0x100000
/-- Packets of a unit (R377). -/
def unitPackets : Nat := 256

/-! ### Blocks (R363, R366, R368, R369) -/

/-- State of a flash die. -/
def flashOf (s : State) (d : Nat) : FlashState := mapGet (fun _ => ({} : FlashState)) d s.store.dies
/-- Set the state of a flash die. -/
def setFlash (s : State) (d : Nat) (f : FlashState) : State :=
  setStore s { s.store with dies := mapSet (fun _ => ({} : FlashState)) d f s.store.dies }

/-- Dies that answer. -/
def liveDies (s : State) : List Nat := (List.range 64).filter (fun d => !(flashOf s d).failed)

/-- Blocks of a die that hold or may hold units: user blocks 0 to 8,943 and the spares taken, 9,240 on, without the
retired ones (R363, R368). -/
def usableBlocks (f : FlashState) : List Nat :=
  (List.range 8944 ++ (List.range f.sparesUsed).map (9240 + ·)).filter (fun b => !(mapHas b f.retired))

/-- Erase count of a block. -/
def erasesOf (f : FlashState) (b : Nat) : Nat := mapGet (fun _ => 0) b f.erases

/-- Units that a block holds. -/
def blockUnits (s : State) (d b : Nat) : List FlashUnit := s.store.units.filter (fun u => u.die == d && u.block == b)

/-- Blocks of a die that hold no unit. -/
def freeBlocks (s : State) (d : Nat) : List Nat := (usableBlocks (flashOf s d)).filter (fun b => (blockUnits s d b).isEmpty)

/-- The block with the least key, the first of equal ones. -/
def leastBy (key : Nat → Nat) : List Nat → Option Nat
  | [] => none
  | b :: r => match leastBy key r with
    | none => some b
    | some c => if key b ≤ key c then some b else some c

/-- A new block of a die: the free block with the lowest erase count (R366). -/
def newBlock (s : State) (d : Nat) : Option Nat := leastBy (erasesOf (flashOf s d)) (freeBlocks s d)

/-- Place for one more unit of a clutch on a die: a block of that clutch with room, else a new block. -/
def placeOn (s : State) (d num : Nat) : Option (Nat × Nat) :=
  let mine := (s.store.units.filter (fun u => u.die == d && u.clutch == num)).map (·.block)
  match mine.find? (fun b => decide ((blockUnits s d b).length < 12)) with
  | some b => some (b, (blockUnits s d b).length)
  | none => (newBlock s d).map (fun b => (b, 0))

/-- Place for a unit: round-robin over the live dies from the clutch's unit count (R363). -/
def placeUnit (s : State) (num : Nat) : Option (Nat × Nat × Nat) :=
  let live := liveDies s
  let at' := (s.store.units.filter (fun u => u.clutch == num)).length
  let order := (List.range live.length).map (fun i => live.getD ((at' + i) % live.length) 0)
  order.findSome? (fun d => (placeOn s d num).map (fun p => (d, p.1, p.2)))

/-- Whether the store writes nothing but its system area (R369). -/
def readOnly (s : State) : Bool := flag s 8 stStore0ReadOnly

/-- Go read-only (R369). -/
def goReadOnly (s : State) : State := raise (setFlag s 8 stStore0ReadOnly true) 8 evStore0EndOfLife

/-- Note lost units (R364): they count, and a secured clutch that held them is degraded (R370). -/
def loseUnits (s : State) (p : FlashUnit → Bool) : State :=
  let hit := s.store.units.filter (fun u => p u && !u.lost)
  let s := setStore s { s.store with units := s.store.units.map (fun u => if p u then { u with lost := true, data := [] } else u) }
  let s := bumpBy s 8 fStore0UnitLostCount hit.length
  hit.foldl (fun s u => degradeClutch s u.clutch) s

/-- Write a unit to the store; `lost` marks one that was lost as it was written and whose source was gone (R379). -/
def writeUnit (s : State) (num kind round stripe : Nat) (data : SMap Byte) (lost : Bool) : State :=
  match placeUnit s num with
  | none => bump s 8 fStore0UnitLostCount
  | some p =>
    let f := flashOf s p.1
    let f := if p.2.2 = 0 then { f with programmed := mapPut p.2.1 (now s) f.programmed } else f
    let s := setFlash s p.1 f
    let s := setStore s { s.store with units := s.store.units ++
      [⟨num, kind, round, stripe, p.1, p.2.1, p.2.2, if lost then [] else data, lost⟩] }
    let s := bump s 8 fStore0ProgMibCount
    if lost then bump s 8 fStore0UnitLostCount else s

/-- Slots that are free for units. -/
def freeSlots (s : State) : Nat := (liveDies s).foldl (fun n d => n + 12 * (freeBlocks s d).length) 0

/-- Free spares of a die. -/
def freeSpares (f : FlashState) : Nat := 696 - f.sparesUsed

/-- Set SPARE_MIN and SPARE_MIN_DIE, and raise EOL_WARN the first time a die falls to the warning level (R368, R394). -/
def noteSpares (s : State) : State :=
  match leastBy (fun d => freeSpares (flashOf s d)) (liveDies s) with
  | none => s
  | some d =>
    let n := freeSpares (flashOf s d)
    let s := setFld (setFld s 8 fStore0SpareMin n) 8 fStore0SpareMinDie d
    if !s.store.eolWarned && decide (100 * n ≤ fld s 8 fStore0EolWarnPct * 696) then
      raise (setStore s { s.store with eolWarned := true }) 8 evStore0EolWarn
    else s

/-- Erase a block. -/
def eraseBlock (s : State) (d b : Nat) : State :=
  let f := flashOf s d
  setFlash s d { f with erases := mapUpd (fun _ => 0) b (· + 1) f.erases, programmed := mapErase b f.programmed }

/-- Move the units of a block to another block of the die and erase the first. -/
def moveBlock (s : State) (d b c : Nat) : State :=
  let s := setStore s { s.store with units := s.store.units.map (fun u =>
    if u.die = d ∧ u.block = b then { u with block := c } else u) }
  let f := flashOf s d
  eraseBlock (setFlash s d { f with programmed := mapPut c (now s) f.programmed }) d b

/-- Retire a block (R368): a spare takes its place, its units move or are lost; without a spare the store goes
read-only (R369). -/
def retireBlock (s : State) (d b : Nat) (readable atLife : Bool) : State :=
  let s := if readable then s else loseUnits s (fun u => u.die == d && u.block == b)
  let s := raise (bump s 8 fStore0BlockRetiredCount) 8 evStore0BlockRetired
  let s := noteInput s 14 1
  let s := setStore s { s.store with worn := s.store.worn + (if atLife then 1 else 0) }
  let f := flashOf s d
  if f.sparesUsed ≥ 696 then goReadOnly (logSpare (setFlash s d { f with retired := mapPut b true f.retired }) 6 d 2) else
  let spare := 9240 + f.sparesUsed
  let f := { f with sparesUsed := f.sparesUsed + 1, retired := mapPut b true f.retired,
                    programmed := mapPut spare (now s) (mapErase b f.programmed) }
  let s := setFlash s d f
  let s := setStore s { s.store with units := s.store.units.map (fun u =>
    if u.die = d ∧ u.block = b then { u with block := spare } else u) }
  noteSpares (raiseIf (decide (f.sparesUsed = 696)) (spareIn s 6 d) 6 evHealthSpareExhausted)

/-- A flash die fails (R369). -/
def failFlash (s : State) (d : Nat) : State :=
  let s := setFlash s d { flashOf s d with failed := true }
  let s := raise (loseUnits s (fun u => u.die == d)) 8 evStore0FlashDieFailed
  let mask := wideVal s 8 wDieFailed ||| BitVec.ofNat 256 (2 ^ d)
  let n := 64 - (liveDies s).length
  let s := setFld (setWide s 8 wDieFailed mask) 8 fStore0DiesFailed n
  noteSpares (if n > 8 then goReadOnly s else s)

/-! ### Sparse bytes -/

/-- Bytes of a sparse range. -/
def sparseBytes (m : SMap Byte) (a n : Nat) : List Byte := (List.range n).map (fun i => mapGet (fun _ => (0 : Byte)) (a + i) m)
/-- Little-endian number of a sparse range. -/
def sparseNat (m : SMap Byte) (a n : Nat) : Nat := leNat (sparseBytes m a n)
/-- Unit u of a stream. -/
def unitOf (m : SMap Byte) (u : Nat) : SMap Byte :=
  (mapKeep (fun a _ => decide (u * unitSize ≤ a) && decide (a < (u + 1) * unitSize)) m).map (fun e => (e.1 - u * unitSize, e.2))
/-- Add two units over GF(2⁸) (R375). -/
def addUnit (a b : SMap Byte) : SMap Byte := b.foldl (fun m e => mapUpd (fun _ => (0 : Byte)) e.1 (· ^^^ e.2) m) a
/-- A unit times a constant of GF(2⁸). -/
def scaleUnit (c : Nat) (a : SMap Byte) : SMap Byte :=
  if c = 0 then [] else a.map (fun e => (e.1, BitVec.ofNat 8 (gfMul c e.2.toNat)))
/-- A stream from its units. -/
def joinUnits (l : SMap (SMap Byte)) : SMap Byte := (l.map (fun u => u.2.map (fun e => (u.1 * unitSize + e.1, e.2)))).flatten
/-- Next multiple of 4 KiB. -/
def pad4k (n : Nat) : Nat := (n + 4095) / 4096 * 4096

/-! ### Records (R373) -/

/-- The header of a record. -/
structure RecHead where
  kind : Nat
  plane : Nat
  tensor : Nat
  layer : Nat
  expert : Nat
  fmt : Nat
  r0 : Nat
  r1 : Nat
  c0 : Nat
  c1 : Nat
  step : Nat
  clutch : Nat
  rank : Nat
  len : Nat
  pcrc : Nat
  deriving DecidableEq, Repr

/-- The 64 bytes of a record header. -/
def headBytes (h : RecHead) : List Byte :=
  let b := leBytes 2 0x5A31 ++ leBytes 1 h.kind ++ leBytes 1 h.plane ++ leBytes 4 h.tensor ++ leBytes 2 h.layer
    ++ leBytes 2 h.expert ++ leBytes 4 h.fmt ++ leBytes 4 h.r0 ++ leBytes 4 h.r1 ++ leBytes 2 h.c0 ++ leBytes 2 h.c1
    ++ leBytes 4 h.step ++ leBytes 4 h.clutch ++ leBytes 4 h.rank ++ leBytes 8 h.len ++ leBytes 4 h.pcrc
  b ++ leBytes 4 (crc32 b).toNat ++ List.replicate 8 0

/-- Read a record header; none where its magic, check or codes are wrong. -/
def readHead (b : List Byte) : Option RecHead :=
  let n (off k : Nat) : Nat := leNat ((b.drop off).take k)
  let kind := n 2 1
  let plane := n 3 1
  let fmt := bitsOf (n 0xC 4) 0 4
  if n 0 2 = 0x5A31 ∧ n 0x34 4 = (crc32 (b.take 0x34)).toNat ∧ kind ≤ 3 ∧ (plane ≤ 10 ∨ plane = 0xFF) ∧ fmt ≤ 8 then
    some ⟨kind, plane, bitsOf (n 4 4) 0 18, n 8 2, n 10 2, fmt, bitsOf (n 0x10 4) 0 24, bitsOf (n 0x14 4) 0 24, n 0x18 2, n 0x1A 2,
      n 0x1C 4, n 0x20 4, bitsOf (n 0x24 4) 0 15, n 0x28 8, n 0x30 4⟩
  else none

/-- Records of a stream with the offsets of their payloads; none where a header is wrong. -/
def readRecords (m : SMap Byte) (len : Nat) : Nat → Nat → Option (List (RecHead × Nat))
  | 0, _ => some []
  | n + 1, at' =>
    if at' ≥ len ∨ sparseNat m at' 64 = 0 then some [] else
    match readHead (sparseBytes m at' 64) with
    | none => none
    | some h => (readRecords m len n (at' + pad4k (64 + h.len))).map (fun l => (h, at' + 64) :: l)

/-- Every record of a stream. -/
def allRecords (m : SMap Byte) (len : Nat) : Option (List (RecHead × Nat)) := readRecords m len (len / 4096 + 1) 0

/-- Append a record to a capture's stream; units that cover a payload which could not be read are lost. -/
def addRecord (c : Capture) (h : RecHead) (payload : Option (List Byte)) : Capture :=
  let p := payload.getD []
  let h := { h with pcrc := (crc32 p).toNat }
  let total := pad4k (64 + h.len)
  let m := ocStore c.stream c.len (headBytes h ++ p)
  let bad := if payload.isSome then [] else (List.range (total / unitSize + 2)).map (c.len / unitSize + ·)
  { c with stream := m, len := c.len + total, bad := c.bad ++ bad.filter (fun u => decide (u * unitSize < c.len + total)) }

/-! ### The shard catalogue (R481, R482) -/

/-- The catalogue of the loaded job. -/
def catalogue (s : State) : List CatEntry := (s.job.map (·.catalogue)).getD []
/-- Tensor-table entry of a tensor id. -/
def tensorOf (s : State) (id : Nat) : Option TensorEntry := ((s.job.map (·.tensors)).getD []).find? (fun t => t.id == id)
/-- WC_FMT of a tensor's FORMAT code (R343, R373). -/
def wcOfFormat (f : Nat) : Nat := match f with
  | 2 => 1
  | 3 => 2
  | 6 => 3
  | 7 => 4
  | 1 => 5
  | _ => 0
/-- FORMAT code of a plane (R373). -/
def planeFormat (r : StateRec) (tfmt k : Nat) : Nat :=
  match k with
  | 1 => if r.m1Bf16 then 1 else 0
  | 2 => if r.m2Bf16 then 1 else 0
  | 4 => tfmt
  | 5 => 4
  | 6 => 5
  | _ => 0

/-- State record at an address. -/
def stateRecAt (s : State) (a : Nat) : State × Option (StateRec × Nat) :=
  let r := memReadNat s a 256
  (r.1, r.2.map (fun v => (readStateRec v, v)))

/-- Bytes of plane k of a catalogue entry. -/
def planeBytes (s : State) (e : CatEntry) (r : StateRec) (k : Nat) : Nat :=
  let wc := wcOfFormat ((tensorOf s e.tensor).map (·.fmt) |>.getD 0)
  planeRows r k * planeRow wc r (mapGet (fun _ => 0) e.state s.store.sideCaps) k

/-- Header of a record of a shard. -/
def shardHead (s : State) (c : Capture) (e : CatEntry) (kind plane fmt step len : Nat) : RecHead :=
  let t := tensorOf s e.tensor
  ⟨kind, plane, e.tensor, (t.map (·.layer)).getD 0xFFFF, (t.map (·.expert)).getD 0xFFFF, fmt, e.r0, e.r1, e.c0, e.c1, step, c.num,
    fld s 0x31 fMembershipRank, len, 0⟩

/-- LAST_STEP of a state record. -/
def lastStep (v : Nat) : Nat := bitsOf v (8 * 0x80) 32

/-- Stream bytes that a shard will take. -/
def shardLen (s : State) (e : CatEntry) : Nat :=
  match (stateRecAt s e.state).2 with
  | none => pad4k 320
  | some r => ((List.range 11).filter (fun k => decide (plane r.1 k ≠ 0))).foldl (fun n k => n + pad4k (64 + planeBytes s e r.1 k)) 0
    + pad4k 320

/-- Read a shard's planes and state record into the stream (R372, R373). -/
def streamShard (s : State) (c : Capture) (e : CatEntry) : State × Capture :=
  let x := stateRecAt s e.state
  match x.2 with
  | none => (x.1, addRecord c (shardHead s c e 1 0xFF 8 0 256) none)
  | some r =>
    let step := lastStep r.2
    let tf := ((tensorOf s e.tensor).map (·.fmt)).getD 0
    let p := ((List.range 11).filter (fun k => decide (plane r.1 k ≠ 0))).foldl (fun (p : State × Capture) k =>
      let n := planeBytes s e r.1 k
      let d := memRead p.1 (plane r.1 k) n
      (d.1, addRecord p.2 (shardHead s c e 0 k (planeFormat r.1 tf k) step n) d.2)) (x.1, c)
    (p.1, addRecord p.2 (shardHead s c e 1 0xFF 8 step 256) (some (leBytes 256 r.2)))

/-- Header of a record that belongs to no shard. -/
def plainHead (s : State) (c : Capture) (kind tensor len : Nat) : RecHead :=
  ⟨kind, 0xFF, tensor, 0xFFFF, 0xFFFF, 8, 0, 0, 0, 0, fld s (pgDie 0) fWorkerDieStep - 1, c.num, fld s 0x31 fMembershipRank, len, 0⟩

/-- Add a record that belongs to no shard. -/
def addPlain (s : State) (c : Capture) (kind tensor : Nat) (p : Option (List Byte)) (len : Nat) : Capture :=
  addRecord c (plainHead s c kind tensor len) p

/-- The job record's payload (R482). -/
def jobRecord (s : State) : State × Option (List Byte) :=
  let step := fld s (pgDie 0) fWorkerDieStep
  let cons := match s.ingest with
    | some i => memReadNat s i.cons 8
    | none => (s, some 0)
  (cons.1, cons.2.map (fun v => leBytes 4 (step - 1) ++ leBytes 4 step ++ leBytes 4 (fld s 0x31 fMembershipJobId)
    ++ leBytes 4 (epochNow s).toNat ++ leBytes 16 ((wideVal s (pgDie 0) wRngKey).extractLsb' 0 128).toNat
    ++ leBytes 8 ((s.ingest.map (·.taken)).getD 0) ++ leBytes 8 v ++ List.replicate 16 0))

/-- Payload of the membership table record. -/
def membershipBytes (s : State) : List Byte :=
  (s.net.members.map (fun e => leBytes 4 e.1 ++ leBytes 4 e.2.toNat)).flatten
/-- Payload of the rank-set record. -/
def ranksetBytes (s : State) : List Byte :=
  (s.net.ranksets.map (fun e => leBytes 2 e.1 ++ leBytes 2 e.2.length ++ (e.2.map (leBytes 2)).flatten)).flatten
/-- Payload of the route record. -/
def routeBytes (s : State) : List Byte := (s.net.routes.map (fun e => leBytes 2 e.1 ++ leBytes 2 e.2.toNat)).flatten

/-- An address and the bytes that memory holds there. -/
def memRecord (s : State) (a n : Nat) : State × Option (List Byte) :=
  let r := memRead s a n
  (r.1, r.2.map (fun b => leBytes 8 a ++ b))

/-- Records of the exchange blocks and their E2M tables. -/
def exchRecords (p : State × Capture) : State × Capture :=
  (p.1.net.exchSrc.map (·.1)).foldl (fun (p : State × Capture) a =>
    let b := memRecord p.1 a 64
    let c := addPlain b.1 p.2 3 3 b.2 72
    let e := (b.2.bind (fun l => readExch (leNat (l.drop 8)))).map (fun x => (x.e2m, 4 * x.e))
    match e with
    | none => (b.1, c)
    | some t => let m := memRecord b.1 t.1 t.2
                (m.1, addPlain m.1 c 3 4 m.2 (8 + t.2))) p

/-- The records captured at the bell: job record, tables, exchange blocks (R372, R373). -/
def plainRecords (s : State) (c : Capture) : State × Capture :=
  let j := jobRecord s
  let c := addPlain s c 2 0 j.2 64
  let t (c : Capture) (id : Nat) (b : List Byte) : Capture := addPlain s c 3 id (some b) b.length
  exchRecords (j.1, t (t (t c 0 (membershipBytes s)) 1 (ranksetBytes s)) 2 (routeBytes s))

/-! ### Capture (R372 to R376) -/

/-- Change the capture under way. -/
def setCapture (s : State) (c : Capture) : State := setStore s { s.store with capture := some c }

/-- The capture of a clutch whose low 16 bits a packet names. -/
def captureOf (s : State) (ctx : BitVec 16) : Option Capture :=
  s.store.capture.bind (fun c => if BitVec.ofNat 16 c.num = ctx then some c else none)

/-- Units of a stream length. -/
def unitsOf (len : Nat) : Nat := (len + unitSize - 1) / unitSize

/-- Module at a position of rank set 0. -/
def memberAt (s : State) (pos : Nat) : BitVec 16 := entryId (memberEntry s ((workingRanks s).getD pos 0))

/-- Send one contribution: 256 packets, or one with ZERO (R375, R378). -/
def sendContribution (s : State) (c : Capture) (dst : BitVec 16) (sub r t : Nat) (d : Option (SMap Byte)) : State :=
  match d with
  | none => sendCk s dst sub c.num (r * 2 ^ 20) (t + 2 ^ 8) []
  | some m => (List.range unitPackets).foldl (fun s i =>
      sendCk s dst sub c.num (r * 2 ^ 20 + 4096 * i) t (sparseBytes m (4096 * i) 4096)) s

/-- Send the contributions of the whole stream once every shard is streamed and U is known (R375, R377). -/
def trySend (s : State) : State :=
  match s.store.capture, myPos s with
  | some c, some pos =>
    match c.u with
    | some u =>
      if !c.begun || !c.todo.isEmpty || c.sent then s else
      let s := setCapture s { c with sent := true }
      if !(hasParity c.n) then s else
      (List.range u).foldl (fun s r =>
        match placeOf c.n c.k c.g r pos with
        | none => s
        | some (t, i) =>
          let d := if r < unitsOf c.len then some (unitOf c.stream r) else none
          let s := sendContribution s c (memberAt s (pPos c.n c.k c.g r t)) 2 r t d
          sendContribution s c (memberAt s (qPos c.n c.k c.g r t)) 3 r t (d.map (scaleUnit (gfPow 2 i)))) s
    | none => s
  | _, _ => s

/-- U becomes known (R377). -/
def takeU (s : State) (u : Nat) : State :=
  match s.store.capture with
  | some c => trySend (setClutch (setCapture s { c with u := some u }) c.num { clutchOf s c.num with u := u })
  | none => s

/-- The capture ends FAILED here: shards not yet streamed are owed no more (R379). -/
def failHere (s : State) (reason : Nat) : State :=
  match s.store.capture with
  | some c =>
    let s := c.todo.foldl (fun s i => match (catalogue s)[i]? with
      | some e => (memWrite (memWrite s (e.state + 0x88) (leBytes 4 c.num)).1 (e.state + 0x8C) (leBytes 4 0)).1
      | none => s) s
    failClutch s c.num reason
  | none => s

/-- The group manager ends the capture on every member (R379). -/
def abortClutch (s : State) (reason : Nat) : State :=
  match s.store.capture with
  | some c => if holdsRankZero s then failHere (ckToAll s 7 c.num reason []) reason else s
  | none => s

/-- A capture found unfinished at power-on, module reset or the start of a restore (R380). -/
def interruptCapture (s : State) : State := failHere s 5

/-- The group manager takes a unit count (R377, R379). -/
def takeCount (s : State) (rank count : Nat) (noRoom : Bool) : State :=
  match s.store.capture with
  | some c =>
    if noRoom then abortClutch s 3 else
    let c := { c with counts := mapPut rank count c.counts }
    let s := setCapture s c
    if (workingRanks s).all (fun r => mapHas r c.counts) && c.u.isNone then
      let u := (c.counts.map (·.2)).foldl max 0
      takeU (ckToAll s 1 c.num 0 (startBytes c.num c.k c.g c.barrier u)) u
    else s
  | none => s

/-- Parity units that a position writes: those whose stripe has a data unit that is not zero (R374). -/
def parityNeeded (s : State) (c : Capture) (u pos : Nat) : Nat :=
  ((List.range u).map (fun r => ((parityOf c.n c.k c.g r pos).filter (fun p =>
    (List.range (stripeData c.n c.k p.1)).any (fun i =>
      decide (r < mapGet (fun _ => 0) ((workingRanks s).getD (dataPos c.n c.k c.g r p.1 i) 0) c.counts)))).length)).sum

/-- A clutch is committed here (R376). -/
def commitHere (s : State) (num : Nat) : State :=
  match s.store.capture with
  | some c => if c.num = num then
      secureClutch s num (c.lostSome || readOnly s || s.store.units.any (fun u => u.clutch == num && u.lost)) else s
  | none => s

/-- The group manager takes a member's SECURED (R376). -/
def takeSecured (s : State) (rank own parity : Nat) : State :=
  match s.store.capture with
  | some c =>
    let pos := (workingRanks s).findIdx (· == rank)
    let short := decide (own < mapGet (fun _ => 0) rank c.counts)
      || (hasParity c.n && decide (parity < parityNeeded s c (c.u.getD 0) pos))
    let c := { c with secured := c.secured.filter (· != rank) ++ [rank], lostSome := c.lostSome || short }
    let s := setCapture s c
    if (workingRanks s).all c.secured.contains then commitHere (ckToAll s 6 c.num 0 []) c.num else s
  | none => s

/-- Send a report to the group manager, which takes its own at once. -/
def toGm (s : State) (clutch sub addr auxHi : Nat) (here : State → State) : State :=
  if holdsRankZero s then here s else sendCk s (gmId s) sub clutch addr auxHi []

/-- Whether an accumulator has every contribution or zero status (R375). -/
def accDone (c : Capture) (a : ParityAcc) : Bool :=
  (List.range (stripeData c.n c.k a.stripe)).all (fun i => a.zero.contains i || decide ((mapGet (fun _ => ([] : List Nat)) i a.got).length = unitPackets))

/-- Accumulator of a parity unit. -/
def accOf (c : Capture) (r t : Nat) (q : Bool) : ParityAcc :=
  (c.parity.find? (fun a => a.round == r && a.stripe == t && a.q == q)).getD ⟨r, t, q, [], [], []⟩

/-- Parity units that this member holds and that are not all zero. -/
def heldParity (c : Capture) (u pos : Nat) : List ParityAcc :=
  ((List.range u).map (fun r => (parityOf c.n c.k c.g r pos).map (fun p => accOf c r p.1 p.2))).flatten

/-- Whether every unit that this member writes is ready. -/
def readyToWrite (s : State) (c : Capture) : Bool :=
  c.sent && !c.written && (match c.u, myPos s with
    | some u, some pos => !(hasParity c.n) || (heldParity c u pos).all (accDone c)
    | _, _ => false)

/-! ### Rebuilding a unit (R385) -/

/-- Inverse in GF(2⁸). -/
def gfDiv (a b : Nat) : Nat := gfMul a (gfInv b)

/-- Data places of a stripe, other than the target's, that are on lost positions; and whether a position is readable. -/
def otherLost (n k g r t : Nat) (target : Option Nat) (lost : List Nat) : List Nat :=
  (List.range (stripeData n k t)).filter (fun i => decide (some i ≠ target) && lost.contains (dataPos n k g r t i))

/-- The chosen units of a stripe with their decoding coefficients, as (position, coefficient, kind), in position order;
none where fewer than n are readable. `kind` and `i` name the unit to rebuild: data i, P or Q. -/
def chooseUnits (n k g r t kind i : Nat) (lost : List Nat) : Option (List (Nat × Nat × Nat)) :=
  let target := if kind = 0 then some i else none
  let miss := otherLost n k g r t target lost
  let data := (List.range (stripeData n k t)).filter (fun x => decide (some x ≠ target) && !(miss.contains x))
  let a := gfPow 2
  let dp := fun (f : Nat → Nat) => data.map (fun x => (dataPos n k g r t x, f x, 0))
  let p := pPos n k g r t
  let q := qPos n k g r t
  let pOk := !(lost.contains p) && decide (kind ≠ 1)
  let qOk := !(lost.contains q) && decide (kind ≠ 2)
  let pick : Option (List (Nat × Nat × Nat)) :=
    match kind, miss with
    | 0, [] => if pOk then some (dp (fun _ => 1) ++ [(p, 1, 1)])
               else if qOk then some (dp (fun x => gfDiv (a x) (a i)) ++ [(q, gfInv (a i), 2)]) else none
    | 0, [j] => if pOk && qOk then
        let den := a i ^^^ a j
        some (dp (fun x => gfDiv (a x ^^^ a j) den) ++ [(p, gfDiv (a j) den, 1), (q, gfInv den, 2)]) else none
    | 1, [] => some (dp (fun _ => 1))
    | 1, [j] => if qOk then some (dp (fun x => 1 ^^^ gfDiv (a x) (a j)) ++ [(q, gfInv (a j), 2)]) else none
    | 2, [] => some (dp a)
    | 2, [j] => if pOk then some (dp (fun x => a x ^^^ a j) ++ [(p, a j, 1)]) else none
    | _, _ => none
  pick.map (fun l => (List.range n).filterMap (fun pos => l.find? (fun e => e.1 == pos)))

/-- Positions whose units a restore cannot read: the ranks it rebuilds. -/
def lostPositions (s : State) : List Nat :=
  match s.store.restore with
  | some r => (workingRanks s).zipIdx.filterMap (fun e => if r.entries.any (fun x => x.1 == e.1) then some e.2 else none)
  | none => []

/-- Begin to rebuild a unit of a rank: the requests go to the chosen contributors (R385). False where it cannot be. -/
def startRebuild (s : State) (num rank kind round stripe : Nat) : State × Bool :=
  let c := clutchOf s num
  match (workingRanks s).findIdx? (· == rank) with
  | none => (s, false)
  | some pos =>
    let lost := pos :: lostPositions s
    let where' : Option (Nat × Nat) := if kind = 0 then placeOf c.n c.k c.g round pos else some (stripe, 0)
    match where'.bind (fun w => (chooseUnits c.n c.k c.g round w.1 kind w.2 lost).map (fun l => (w.1, l))) with
    | none => (s, false)
    | some (t, l) =>
      let ranks := l.map (fun e => ((workingRanks s).getD e.1 0, e.2.1, e.2.2))
      let body := leBytes 2 rank ++ List.replicate 14 0 ++ (ranks.map (fun e => leBytes 2 e.1 ++ leBytes 1 e.2.1 ++ leBytes 1 e.2.2)).flatten
      let body := body ++ List.replicate ((16 - body.length % 16) % 16) 0
      let s := setStore s { s.store with rebuild := some { rank := rank, clutch := num, kind := kind, round := round, stripe := t,
                                                           chain := l.length } }
      (ranks.foldl (fun s e => sendCk s (entryId (memberEntry s e.1)) 12 num (round * 2 ^ 20) l.length body) s, true)

/-! ### Restore (R382 to R387) -/

/-- Whether this module's store holds its own part of a clutch whole. -/
def ownWhole (s : State) (num : Nat) : Bool :=
  let c := clutchOf s num
  decide (0 < c.own) && decide ((s.store.units.filter (fun u => u.clutch == num && u.kind == 0 && !u.lost)).length = c.own)

/-- Ranks whose units of a clutch were lost with their holder; a restarted group manager that has its own part misses nothing. -/
def missingRanks (s : State) (num : Nat) : List Nat :=
  (s.store.lost.filter (fun l => decide (num ≤ l.upto) && !(l.holder == moduleId s && ownWhole s num))).map (·.rank)

/-- Whether every stripe of a retained clutch can be decoded (R384, R389). -/
def decodable (s : State) (num : Nat) : Bool :=
  let c := clutchOf s num
  let ranks := workingRanks s
  let gone := ranks.zipIdx.filterMap (fun e => if (missingRanks s num).contains e.1 then some e.2 else none)
  let mine := myPos s
  let away (r pos : Nat) (kind : Nat) : Bool := gone.contains pos
    || (mine == some pos && s.store.units.any (fun u => u.clutch == num && u.round == r && u.kind == kind && u.lost))
  decide (c.st = 2 ∨ c.st = 3) &&
  (if hasParity c.n then
    (List.range c.u).all (fun r => (List.range (stripeCount c.n c.k)).all (fun t =>
      decide ((((List.range (stripeData c.n c.k t)).filter (fun i => away r (dataPos c.n c.k c.g r t i) 0)).length
        + (if away r (pPos c.n c.k c.g r t) 1 then 1 else 0) + (if away r (qPos c.n c.k c.g r t) 2 then 1 else 0)) ≤ 2)))
  else (missingRanks s num).isEmpty && !(s.store.units.any (fun u => u.clutch == num && u.lost)))

/-- The clutch that a restore takes, and whether it falls back (R384). -/
def chooseClutch (s : State) : Option (Nat × Bool) :=
  let want := wideWord (wideVal s 0xA wRestoreSel) 0
  if want ≠ 0 then (if decodable s want then some (want, false) else none)
  else if latestClutch s ≠ 0 ∧ decodable s (latestClutch s) then some (latestClutch s, false)
  else if previousClutch s ≠ 0 ∧ decodable s (previousClutch s) then some (previousClutch s, true)
  else none

/-- Write RESTORE_RESULT (R395). -/
def restoreResult (s : State) (code clutch step ranks : Nat) : State :=
  setWide s 0xA wRestoreResult (wideOf [code, clutch, step, ranks])

/-- A restore ends here with a result (R382, R396). -/
def closeRestore (s : State) (code : Nat) : State :=
  match s.store.restore with
  | none => s
  | some r =>
    let s := setStore s { s.store with restore := some { r with ended := true }, rebuild := none }
    let s := setFlag (setFlag s 0xA stStore2Restoring false) 0xA stStore2WaitStandby false
    let s := restoreResult s code r.clutch (clutchOf s r.clutch).step r.entries.length
    if code = 1 ∨ code = 2 then raise s 0xA evStore2RestoreDone else raise s 0xA evStore2RestoreFailed

/-- A restore that cannot start: no clutch decodes (R384). -/
def noClutch (s : State) : State :=
  raise (restoreResult s 3 0 0 0) 0xA evStore2RestoreFailed

/-- The layout of a clutch that this module's directory lacks, because it joined after it: N is the number of working ranks, and what no
packet brings (k, the stride rule, U, epoch and bell) is free (R24, R388, log 86). -/
def learnClutch (s : State) (num : Nat) : State :=
  if num = 0 ∨ (clutchOf s num).n ≠ 0 then s else
  let n := (workingRanks s).length
  let f := takeFree s 3
  let w (k : Nat) : Nat := (Config.freeWord (f.1 + k)).toNat
  let k := if hasParity n then 2 + w 0 % (min 14 (n - 2) - 1) else 0
  let g := if hasParity n then layoutStride n k num (Config.freeBool f.1) else 1
  setClutch f.2 num { st := 2, k := k, n := n, g := g, u := w 1 % 2 ^ 24, epoch := w 2 % 2 ^ 16, bell := (Config.freeDword f.1).toNat }

/-- A new holder that knows no retained clutch takes the restored one and another, whose number is free, as LATEST and PREVIOUS
(R386, log 86). -/
def learnRetained (s : State) (num : Nat) : State :=
  if latestClutch s ≠ 0 then learnClutch s num else
  let f := takeFree s 1
  let w := (Config.freeWord f.1).toNat
  let other := if w = num then 0 else w
  let s := setFld (setFld f.2 9 fStore1Latest (max num other)) 9 fStore1Previous (min num other)
  learnClutch (learnClutch s num) other

/-- The units of a lost rank are away until its new holder has rebuilt them: the retained clutches are DEGRADED (R370, R386). -/
def awayClutches (s : State) : State :=
  [latestClutch s, previousClutch s].foldl (fun s c =>
    if hasParity (clutchOf s c).n then
      let s := degradeClutch s c
      if (clutchOf s c).st = 3 then setClutch s c { clutchOf s c with away := true } else s
    else s) s

/-- The units of lost ranks are whole again: a clutch that lacks no other is SECURED (R386). -/
def settleClutches (s : State) : State :=
  let s := setStore s { s.store with lost := s.store.lost.filter (fun l => !l.restored) }
  [latestClutch s, previousClutch s].foldl (fun s c =>
    if (clutchOf s c).away then
      let whole := !(s.store.units.any (fun u => u.clutch == c && u.lost))
      setClutch s c { clutchOf s c with away := false, st := if whole ∧ (clutchOf s c).st = 3 then 2 else (clutchOf s c).st }
    else s) s

/-- A module takes RESTORE_START (R380, R382). -/
def takeRestore (s : State) (clutch bell source : Nat) (entries : List (Nat × BitVec 16)) (fallback : Bool) : State :=
  let s := interruptCapture s
  let s := if source = 0 ∧ entries.any (fun e => e.2 == moduleId s) then learnRetained s clutch else s
  let s := if entries.isEmpty then s else awayClutches s
  let r : Restore := { clutch := clutch, bell := bell, source := source, entries := entries, fallback := fallback }
  let s := setStore s { s.store with restore := some r, rebuild := none, requests := [], early := [] }
  setFlag (setFlag s 0xA stStore2Restoring true) 0xA stStore2WaitStandby false

/-- Whether a lost rank still waits for a standby member (R386). -/
def waitsStandby (s : State) : Bool := s.store.lost.any (fun l => l.striped && l.holder == 0)

/-- The group manager starts a restore (R382, R384, R386). -/
def startRestore (s : State) : State :=
  if !(holdsRankZero s) then s
  else if waitsStandby s then setFlag s 0xA stStore2WaitStandby true
  else
    let s := learnClutch (learnClutch s (latestClutch s)) (previousClutch s)
    let source := wideWord (wideVal s 0xA wRestoreSel) 1 % 2
    let pick := if source = 1 then some (wideWord (wideVal s 0xA wRestoreSel) 0, false) else chooseClutch s
    match pick with
    | none => noClutch s
    | some (num, fb) =>
      let s := raiseIf fb s 0xA evStore2Fallback
      let entries := (s.store.lost.filter (fun l => !l.restored && l.holder != 0)).map (fun l => (l.rank, l.holder))
      let bell := now s + groupLead s
      let body := leBytes 4 num ++ leBytes 2 entries.length ++ leBytes 2 0 ++ leBytes 8 bell
        ++ (entries.map (fun e => leBytes 2 e.1 ++ leBytes 2 e.2.toNat)).flatten
      let body := body ++ List.replicate ((16 - body.length % 16) % 16) 0
      takeRestore (ckToAll s 9 num source body) num bell source entries fb

/-- Catalogue entry of a record (R382). -/
def entryFor (s : State) (h : RecHead) : Option CatEntry :=
  (catalogue s).find? (fun e => e.tensor == h.tensor && e.r0 == h.r0 && e.r1 == h.r1 && e.c0 == h.c0 && e.c1 == h.c1)

/-- Step s that the state records carry: none where two differ, and the job record's where no shard has been updated
(R383). -/
def restoreStep (m : SMap Byte) (l : List (RecHead × Nat)) : Option Nat :=
  let steps := (l.filter (fun e => decide (e.1.kind = 1))).filterMap (fun e =>
    if sparseNat m (e.2 + 0xC) 4 = 0 then none else some (sparseNat m (e.2 + 0x80) 4))
  match steps with
  | [] => some ((l.find? (fun e => decide (e.1.kind = 2))).map (fun e => sparseNat m e.2 4) |>.getD 0)
  | x :: r => if r.all (· == x) then some x else none

/-- Write a shard's record to its place (R382 step 4). -/
def restoreShard (s : State) (m : SMap Byte) (num : Nat) (x : RecHead × Nat) : State :=
  match entryFor s x.1 with
  | none => s
  | some e =>
    if x.1.kind = 1 then
      (memWrite s e.state (sparseBytes m x.2 0x84 ++ leBytes 4 num ++ leBytes 4 num ++ leBytes 4 0 ++ sparseBytes m (x.2 + 0x90) 0x70)).1
    else match stateRecAt s e.state with
      | (s, some r) => if plane r.1 x.1.plane = 0 then s else (memWrite s (plane r.1 x.1.plane) (sparseBytes m x.2 x.1.len)).1
      | (s, none) => s

/-- Entries of a table record cut into pieces. -/
def tableRows (m : SMap Byte) (x : RecHead × Nat) (n : Nat) : List (List Byte) :=
  (List.range (x.1.len / n)).map (fun i => sparseBytes m (x.2 + n * i) n)

/-- Rank sets of a byte list: set, NR, ranks. -/
def readRanksets : Nat → List Byte → List (Nat × List Nat)
  | 0, _ => []
  | n + 1, b =>
    if b.length < 4 then [] else
    let nr := leNat ((b.drop 2).take 2)
    (leNat (b.take 2), (List.range nr).map (fun i => leNat ((b.drop (4 + 2 * i)).take 2))) :: readRanksets n (b.drop (4 + 2 * nr))

/-- Load a table record (R382 step 5). -/
def restoreTable (s : State) (m : SMap Byte) (x : RecHead × Nat) : State :=
  match x.1.tensor with
  | 0 => setCounts (setNet s { s.net with members := (tableRows m x 8).foldl (fun t b =>
      mapSet (fun _ => (0 : BitVec 32)) (leNat (b.take 4)) (BitVec.ofNat 32 (leNat (b.drop 4))) t) [] })
  | 1 => setNet s { s.net with ranksets := (readRanksets x.1.len (sparseBytes m x.2 x.1.len)).foldl (fun t e => mapPut e.1 e.2 t) [] }
  | 2 => setNet s { s.net with routes := (tableRows m x 4).foldl (fun t b =>
      mapSet (fun _ => (0 : BitVec 16)) (leNat (b.take 2)) (BitVec.ofNat 16 (leNat (b.drop 2))) t) [] }
  | _ => (memWrite s (sparseNat m x.2 8) (sparseBytes m (x.2 + 8) (x.1.len - 8))).1

/-- Set the generator and the ingest queue from the job record (R382 step 6, R383, R484). -/
def restoreJob (s : State) (m : SMap Byte) (step : Nat) (x : RecHead × Nat) : State :=
  let key := BitVec.ofNat 256 (sparseNat m (x.2 + 0x10) 16)
  let s := (List.range 4).foldl (fun s d => setFld (setWide s (pgDie d) wRngKey key) (pgDie d) fWorkerDieStep (step + 1)) s
  let s := raiseIf (decide (sparseNat m (x.2 + 4) 4 ≠ (step + 1) % 2 ^ 32)) s 0xA evStore2RngRealigned
  let taken := sparseNat m (x.2 + 0x20) 8
  match s.ingest with
  | none => s
  | some i =>
    let s := (memWrite s i.cons (sparseBytes m (x.2 + 0x28) 8)).1
    let s := (memWrite s i.prod (leBytes 8 (taken / i.record))).1
    { s with ingest := some { i with taken := taken } }

/-- Whether a stream's records obey the layout and this job (R373, R391). -/
def layoutOk (s : State) (m : SMap Byte) (l : List (RecHead × Nat)) : Bool :=
  l.all (fun x => decide ((crc32 (sparseBytes m x.2 x.1.len)).toNat = x.1.pcrc)
    && (decide (x.1.kind ≥ 2) || (entryFor s x.1).isSome)
    && (decide (x.1.kind ≠ 2) || decide (sparseNat m (x.2 + 8) 4 = fld s 0x31 fMembershipJobId)))

/-- Write a whole stream: state records, planes, tables, then the generator (R382 steps 4 to 6). Answers the step or the
result code that ends the restore. -/
def applyStream (s : State) (m : SMap Byte) (len num : Nat) : State × Except Nat Nat :=
  match allRecords m len with
  | none => (s, .error 4)
  | some l =>
    if !(layoutOk s m l) then (s, .error 4) else
    match restoreStep m l with
    | none => (s, .error 5)
    | some step =>
      let of (k : Nat) := l.filter (fun x => decide (x.1.kind = k))
      let s := (of 1 ++ of 0).foldl (fun s x => restoreShard s m num x) s
      let s := (of 3).foldl (fun s x => restoreTable s m x) s
      let s := (of 2).foldl (fun s x => restoreJob s m step x) s
      (s, .ok step)

/-- The units that a new holder still owes its store after a takeover: own units, then parity, of both retained clutches,
the restored one first (R386). -/
def reprotectList (s : State) (first rank : Nat) : List (Nat × Nat × Nat × Nat × Nat) :=
  let other := if first = latestClutch s then previousClutch s else latestClutch s
  match (workingRanks s).findIdx? (· == rank) with
  | none => []
  | some pos => ((([first, other].filter (fun c => decide (c ≠ 0))).map (fun num =>
      let c := clutchOf s num
      (List.range c.u).map (fun r => (num, rank, 0, r, 0))
        ++ ((List.range c.u).map (fun r => (parityOf c.n c.k c.g r pos).map (fun p =>
            (num, rank, (if p.2 then 2 else 1), r, p.1)))).flatten)).flatten)

/-- The group manager takes a result (R382): with every working rank DONE the restore ends, and training resumes at the
step barrier of step s + 1; any other result ends it. -/
def takeRestoreResult (s : State) (rank code : Nat) : State :=
  match s.store.restore with
  | none => s
  | some r =>
    if r.ended then s else
    let r := { r with results := mapPut rank code r.results }
    let s := setStore s { s.store with restore := some r }
    if code ≠ 1 then closeRestore s code
    else if (workingRanks s).all (fun w => mapHas w r.results) then
      let s := setStore s { s.store with lost := s.store.lost.map (fun l => { l with restored := true }) }
      closeRestore s (if r.fallback then 2 else 1)
    else s

/-- This module's part of the restore has ended: RESTORE_DONE goes out (R382 step 7), and a new holder turns to
re-protection (R386 step 3). -/
def finishPart (s : State) (res : Except Nat Nat) : State :=
  match s.store.restore with
  | none => s
  | some r =>
    let me := fld s 0x31 fMembershipRank
    let mine := r.entries.any (fun e => e.2 == moduleId s)
    let s := setStore s { s.store with rebuild := none }
    match res with
    | .error code =>
      if holdsRankZero s then takeRestoreResult s 0 code
      else closeRestore (sendCk s (gmId s) 11 r.clutch 0 code []) code
    | .ok step =>
      let s := setClutch s r.clutch { clutchOf s r.clutch with step := step }
      let s := if s.planNext.isSome then { s with planNext := some (step + 1) } else s
      let todo := if mine ∧ r.source = 0 then reprotectList s r.clutch me else []
      let s := if todo.isEmpty then s else
        setFlag (setStore s { s.store with reprotect := todo ++ s.store.reprotect }) 0xA stStore2Reprotecting true
      if holdsRankZero s then takeRestoreResult s 0 1
      else closeRestore (sendCk s (gmId s) 11 r.clutch 0 1 []) 1

/-- Write the restored stream from the units at hand. -/
def finishUnits (s : State) : State :=
  match s.store.restore with
  | none => s
  | some r =>
    let own := s.store.units.filter (fun u => u.clutch == r.clutch && u.kind == 0 && !u.lost)
    let units := r.units.foldl (fun m e => mapPut e.1 e.2 m) (own.foldl (fun m u => mapPut u.round u.data m) [])
    let a := applyStream s (joinUnits units) ((clutchOf s r.clutch).u * unitSize) r.clutch
    finishPart a.1 a.2

/-- Rebuild the next unit that the restore needs, or write the stream when none is left (R382 step 4, R385). -/
def nextUnit (s : State) : State :=
  match s.store.restore with
  | none => s
  | some r =>
    match r.need with
    | [] => finishUnits s
    | n :: _ =>
      let x := startRebuild s r.clutch (fld s 0x31 fMembershipRank) 0 n 0
      if x.2 then x.1 else finishPart x.1 (.error 3)

/-- Step 4 of a restore from the store, once the module is quiet: which units must be rebuilt. -/
def readOwnUnits (s : State) : State :=
  match s.store.restore with
  | none => s
  | some r =>
    let c := clutchOf s r.clutch
    let have' := (s.store.units.filter (fun u => u.clutch == r.clutch && u.kind == 0 && !u.lost)).map (·.round)
    let mine := r.entries.any (fun e => e.2 == moduleId s)
    let need := (List.range (if mine && !(ownWhole s r.clutch) then c.u else c.own)).filter (fun n => !(have'.contains n))
    nextUnit (setStore s { s.store with restore := some { r with need := need } })

/-- RESTORE_ABORT, or a loss before RESTORE_DONE (R387, R394). -/
def abortRestore (s : State) : State :=
  match s.store.restore with
  | some r => if r.ended then s else closeRestore s 6
  | none => s

/-- A risk report at the group manager (R371, R379). -/
def takeRisk (s : State) (risk : Nat) : State :=
  let x := s.store
  let recent := x.riskTimes.filter (fun t => decide (now s < t + 86400 * 1000000000))
  if !(holdsRankZero s) || decide (risk < fld s 9 fStore1RiskLevel) || x.capture.isSome then s
  else if !(flag s 9 fStore1AutoEn) || decide (fld s 9 fStore1RiskMax ≤ recent.length) then bump s 9 fStore1RiskDeniedCount
  else setStore s { x with due := true, dueRisk := true, riskTimes := recent }

/-- TRIGGER's effect (R371). -/
def triggerClutch (s : State) : State :=
  if holdsRankZero s && s.store.capture.isNone then setStore s { s.store with due := true, asked := true } else s

end Sys2Proof.Machine
end

