-- ==== Sys2Proof/Machine/XferOps.lean ====
section
/-!
DEFINITION. Export and import of a member's clutch (R390, R391) and the end of a unit's rebuild (R385). The manual names the
fields of the 64-byte export header without their places; the places here are the model's (log 50).
-/

namespace Sys2Proof.Machine

/-- The export header: MAGIC, clutch, step, rank, N, JOB_ID, record count, stream length, CRC-32 (R390). -/
def exportHead (s : State) (num count len : Nat) : List Byte :=
  let c := clutchOf s num
  let b := leBytes 4 0x5A32 ++ leBytes 4 num ++ leBytes 4 c.step ++ leBytes 2 (fld s 0x31 fMembershipRank) ++ leBytes 2 c.n
    ++ leBytes 4 (fld s 0x31 fMembershipJobId) ++ leBytes 4 count ++ leBytes 8 len ++ List.replicate 28 0
  b ++ leBytes 4 (crc32 b).toNat

/-- All units are at hand: make the export stream and begin to send it. -/
def buildExport (s : State) (x : Xfer) : State :=
  let c := clutchOf s x.clutch
  let own := s.store.units.filter (fun u => u.clutch == x.clutch && u.kind == 0 && !u.lost)
  let m := joinUnits (x.units.foldl (fun m e => mapPut e.1 e.2 m) (own.foldl (fun m u => mapPut u.round u.data m) []))
  match allRecords m (c.own * unitSize) with
  | none => endXfer s 4
  | some l =>
    let len := l.foldl (fun a e => max a (e.2 - 64 + pad4k (64 + e.1.len))) 0
    let head := (exportHead s x.clutch l.length len).zipIdx.map (fun e => (e.2, e.1))
    let data : SMap Byte := head ++ m.map (fun e => (e.1 + 64, e.2))
    let s := setStore s { s.store with xfer := some { x with data := data, len := 64 + len, units := [] } }
    pumpSession (noteXfer s 0 l.length 0)

/-- The next lost unit of an export is rebuilt while the group is up; else the export ends UNIT_LOST (R390). -/
def exportNext (s : State) : State :=
  match s.store.xfer with
  | none => s
  | some x =>
    if x.isImport ∨ 0 < x.len then s else
    match x.need with
    | [] => buildExport s x
    | r :: _ =>
      if s.store.rebuild.isSome then s else
      if !(isMember s) then endXfer s 7 else
      let b := startRebuild s x.clutch (fld s 0x31 fMembershipRank) 0 r 0
      if b.2 then b.1 else endXfer s 7

/-- Begin a transfer. -/
def openXfer (s : State) (x : Xfer) : State :=
  noteXfer (setFlag (setStore s { s.store with xfer := some x }) 0xB stStore3Transfer true) 0 0 0

/-- EXPORT (R390). -/
def startExport (s : State) (num rank : Nat) : State :=
  let c := clutchOf s num
  let have' := (s.store.units.filter (fun u => u.clutch == num && u.kind == 0 && !u.lost)).map (·.round)
  let need := (List.range c.own).filter (fun r => !(have'.contains r))
  let s := openXfer s { isImport := false, session := true, clutch := num, rank := rank, need := need }
  if c.st = 2 ∨ c.st = 3 then exportNext s else endXfer s 3

/-- IMPORT (R391). -/
def startImport (s : State) (num rank : Nat) : State :=
  openXfer s { isImport := true, session := true, clutch := num, rank := rank }

/-- An import ends with an error, and a restore that waits for it with it (R391). -/
def failImport (s : State) (code : Nat) : State :=
  let s := endXfer s code
  match s.store.restore with
  | some r => if r.source = 1 && r.begun && !r.ended then finishPart s (.error code) else s
  | none => s

/-- Write the state records and planes of a stream: step 4 of R382 alone. -/
def importPlanes (s : State) (m : SMap Byte) (len num : Nat) : State × Except Nat Nat :=
  match allRecords m len with
  | none => (s, .error 4)
  | some l =>
    if !(layoutOk s m l) then (s, .error 4) else
    let of (k : Nat) := l.filter (fun x => decide (x.1.kind = k))
    ((of 1 ++ of 0).foldl (fun s x => restoreShard s m num x) s, .ok 0)

/-- A whole import is written under R382: at once, or at the bell of the restore that waits for it. -/
def finishImport (s : State) : State :=
  match s.store.xfer with
  | none => s
  | some x =>
    if !x.isImport ∨ x.len = 0 ∨ x.data.length < x.len then s else
    let m : SMap Byte := (x.data.filter (fun e => decide (64 ≤ e.1))).map (fun e => (e.1 - 64, e.2))
    let waits := match s.store.restore with
      | some r => decide (r.source = 1) && !r.ended && !r.begun
      | none => false
    if waits then s else
    let n := ((allRecords m (x.len - 64)).map (·.length)).getD 0
    let serves := match s.store.restore with
      | some r => decide (r.source = 1) && r.begun && !r.ended
      | none => false
    let a := if serves then applyStream s m (x.len - 64) x.clutch else importPlanes s m (x.len - 64) x.clutch
    match a.2 with
    | .error code => failImport (noteXfer a.1 x.len n 0) code
    | .ok step =>
      let s := endXfer (noteXfer a.1 x.len n 0) 1
      if serves then finishPart s (.ok step) else s

/-- Whether the 64 bytes of an export header fit this import (R391). -/
def importHeadOk (s : State) (x : Xfer) : Bool :=
  let n (off k : Nat) : Nat := sparseNat x.data off k
  decide (n 0 2 = 0x5A32) && decide (n 60 4 = (crc32 (sparseBytes x.data 0 60)).toNat)
    && decide (n 16 4 = fld s 0x31 fMembershipJobId) && decide (n 12 2 = x.rank)

/-- Bytes of an import at a stream offset: none where they lie beyond the announced length (R479). -/
def takeImport (s : State) (off : Nat) (bytes : List Byte) : Option State :=
  match s.store.xfer with
  | none => none
  | some x =>
    if !x.isImport then none
    else if 0 < x.len ∧ x.len < off + bytes.length then none
    else
      let x := { x with data := bytes.zipIdx.foldl (fun m e => mapPut (off + e.2) e.1 m) x.data }
      let s := noteXfer (setStore s { s.store with xfer := some x }) x.data.length (xferRecords s) 0
      if 0 < x.len then some (finishImport s) else
      if !((List.range 64).all (fun i => mapHas i x.data)) then some s else
      if !(importHeadOk s x) then some (failImport s 4) else
      let s := setStore s { s.store with xfer := some { x with len := 64 + sparseNat x.data 24 8 } }
      some (finishImport (noteXfer s x.data.length (sparseNat x.data 20 4) 0))

/-- XFER_ABORT (R394). -/
def abortXfer (s : State) : State :=
  match s.store.xfer with
  | some x => if x.isImport then failImport s 6 else endXfer s 6
  | none => s

/-- A rebuilt unit goes to the store and counts in the directory (R386, R395); a zero unit is not written (R374). -/
def keepRebuilt (s : State) (b : Rebuild) : State :=
  let s := writeUnit s b.clutch b.kind b.round b.stripe b.data false
  let c := clutchOf s b.clutch
  setClutch s b.clutch (if b.kind = 0 then { c with own := c.own + 1 } else { c with parity := c.parity + 1 })

/-- A rebuilt unit is whole: it serves the restore, the re-protection or the export that asked for it. -/
def unitRebuilt (s : State) (b : Rebuild) : State :=
  let s := setStore s { s.store with rebuild := none }
  let forRestore := match s.store.restore with
    | some r => r.begun && !r.ended && r.need.head? == some b.round && decide (b.kind = 0)
    | none => false
  let forReprotect := s.store.reprotect.head? == some (b.clutch, b.rank, b.kind, b.round, b.stripe)
    || s.store.reprotect.head? == some (b.clutch, b.rank, b.kind, b.round, 0)
  match forRestore, forReprotect, s.store.restore, s.store.xfer with
  | true, _, some r, _ =>
    nextUnit (setStore s { s.store with restore := some { r with need := r.need.tail, units := mapPut b.round b.data r.units } })
  | _, true, _, _ =>
    let s := setStore s { s.store with reprotect := s.store.reprotect.tail }
    let s := if readOnly s || b.data.all (fun e => e.2 == 0) then s else keepRebuilt s b
    exportNext s
  | _, _, _, some x =>
    exportNext (setStore s { s.store with
      xfer := some { x with need := x.need.filter (· != b.round), units := mapPut b.round b.data x.units } })
  | _, _, _, none => s

end Sys2Proof.Machine
end

