-- ==== Sys2Proof/Machine/Store.lean ====
section
/-!
DEFINITION. The rows of the checkpoint store, the clutches and recovery (13_checkpoint.md). TRIGGER, CAPTURE_ABORT,
RESTORE, RESTORE_ABORT, EXPORT, IMPORT and XFER_ABORT are register accesses and stand in Accesses.lean; RESTORE_BELL
stands in Recovery.lean.
-/

namespace Sys2Proof.Machine

/-! ### Checkpoint packets (R377, R378) -/

/-- Take a checkpoint packet of a subtype; a reserved subtype or one that breaks R378 is discarded and counted. -/
def ckReceive (s : State) (pk : Packet) (sub : Nat) (ok : Bool) (f : State → State) : State :=
  if ckSub pk = 0 ∨ 13 ≤ ckSub pk then receive s pk kCheckpoint false f
  else if ckSub pk = sub then receive s pk kCheckpoint ok f
  else s

/-- AUX bits [31:8]. -/
def ckHi (pk : Packet) : Nat := pk.aux.toNat / 2 ^ 8
/-- Bytes of a payload as a number. -/
def payNat (pk : Packet) (off n : Nat) : Nat := leNat ((pk.payload.drop off).take n)
/-- Round of ADDR. -/
def ckRound (pk : Packet) : Nat := bitsOf pk.addr.toNat 20 24
/-- Offset of ADDR. -/
def ckOff (pk : Packet) : Nat := bitsOf pk.addr.toNat 0 20
/-- Position of a packet's sender in rank set 0. -/
def srcPos (s : State) (pk : Packet) : Option Nat := (rankOf s pk.src).bind (fun r => (workingRanks s).findIdx? (· == r))

/-! ### Starting and capturing -/

/-- CLUTCH_PERIOD_EXPIRY (R371): counted from the last capture bell, or from the job's start before the first. -/
def execClutchPeriodExpiry (s : State) : Answer :=
  .next (match s.store.lastBell with
    | some t =>
      if holdsRankZero s && flag s 9 fStore1AutoEn && s.store.capture.isNone
          && decide (t + fld s 9 fStore1ClutchPeriod * 1000000000 ≤ now s) then
        setStore s { s.store with due := true }
      else s
    | none => s)

/-- RISK (R371). -/
def execRisk (pk : Packet) (s : State) : Answer :=
  .next (ckReceive s pk 8 (decide (pk.len = 0) && decide (pk.addr = 0) && decide (ckHi pk < 2 ^ 8)) (fun s => takeRisk s (ckHi pk)))

/-- CLUTCH_START (R377): the first one of a clutch, then the one that carries U. -/
def execClutchStart (pk : Packet) (s : State) : Answer :=
  .next (ckReceive s pk 1 (decide (pk.len = 1) && decide (pk.addr = 0) && decide (ckHi pk = 0)
      && decide (payNat pk 5 1 = 0) && decide (payNat pk 10 2 = 0)) (fun s =>
    let num := payNat pk 0 4
    let u := payNat pk 12 4
    if u = 0 then (if s.store.capture.isNone then takeStart s num (payNat pk 4 1) (payNat pk 6 2) (BitVec.ofNat 16 (payNat pk 8 2)) else s)
    else match s.store.capture with
      | some c => if c.num = num then takeU s u else s
      | none => s))

/-- Whether an update of the shard of a state record is in its commit phase (R353). -/
def committing (s : State) (a : Nat) : Bool :=
  (List.range 4).any (fun d => (updOf s d).run.any (fun x => x.phase == .commit && !x.held && x.desc.state == a))

/-- CAPTURE_BELL (R353, R372, R377, R379): every shard becomes owed, one that an update is committing once it has, the other records are
captured, the unit count goes out; the core count of the job's telemetry changes here (R453). -/
def execCaptureBell (s : State) : Answer :=
  .next (match s.store.capture with
    | none => s
    | some c =>
      match c.bell with
      | none => s
      | some t =>
        if now s < t ∨ c.begun then s else
        let s := setHealth s { s.health with jobCores := serviceable s }
        let s := setClutch s c.num { clutchOf s c.num with bell := t, step := fld s (pgDie 0) fWorkerDieStep - 1 }
        if !(capturesHere s) then setCapture s { c with begun := true } else
        let states := (catalogue s).map (·.state)
        let s := states.foldl (fun s a => if committing s a then s else (memWrite s (a + 0x84) (leBytes 4 c.num)).1) s
        let p := plainRecords s { c with
          begun := true, todo := List.range states.length, later := states.filter (committing s) }
        let s := p.1
        let len := (catalogue s).foldl (fun n e => n + shardLen s e) p.2.len
        let own := unitsOf len
        let held := (myPos s).map (fun pos => ((List.range own).map (fun r => (parityOf c.n c.k c.g r pos).length)).sum)
        let need := own + (if hasParity c.n then held.getD 0 else 0)
        let noRoom := !(readOnly s) && decide (freeSlots s < need)
        let s := setFlag (setCapture s p.2) 9 stStore1Streaming (decide (p.2.todo ≠ []))
        toGm s c.num 4 own (if noRoom then 1 else 0) (fun s => takeCount s 0 own noRoom))

/-- Whether an update has asked for the shard at a place of the catalogue to be streamed at once (R353, R372). -/
def streamAsked (s : State) (i : Nat) : Bool :=
  (catalogue s)[i]?.any (fun e => (memReadNat s (e.state + 0x8C) 4).2 == some 1)

/-- SHARD_STREAM (R372): a shard with STREAM_REQ comes first, then catalogue order. -/
def execShardStream (s : State) : Answer :=
  .next (match s.store.capture with
    | none => s
    | some c =>
      if !c.begun then s else
      let due := c.todo.filter (fun i => !((catalogue s)[i]?.any (fun e => c.later.contains e.state)))
      match (due.find? (streamAsked s)).or due.head? with
      | none => s
      | some i =>
        let todo := c.todo.filter (· != i)
        match (catalogue s)[i]? with
        | none => setCapture s { c with todo := todo }
        | some e =>
          let p := streamShard s c e
          let s := (memWrite p.1 (e.state + 0x88) (leBytes 4 c.num)).1
          let s := (memWrite s (e.state + 0x8C) (leBytes 4 0)).1
          let s := setCapture s { p.2 with todo := todo }
          trySend (if todo = [] then setFlag s 9 stStore1Streaming false else s))

/-- A contribution to a parity unit that this member holds (R375). -/
def takeContribution (s : State) (pk : Packet) (q : Bool) : State :=
  match captureOf s pk.ctx, myPos s, srcPos s pk with
  | some c, some pos, some from' =>
    let r := ckRound pk
    let t := bitsOf (ckHi pk) 0 8
    match placeOf c.n c.k c.g r from' with
    | none => s
    | some (t', i) =>
      let holder := if q then qPos c.n c.k c.g r t else pPos c.n c.k c.g r t
      if t' ≠ t ∨ holder ≠ pos ∨ !(hasParity c.n) then packetBad s else
      let a := accOf c r t q
      let seen := mapGet (fun _ => ([] : List Nat)) i a.got
      if a.zero.contains i ∨ seen.contains (ckOff pk) then s else
      let a := if pk.len = 0 then { a with zero := a.zero ++ [i] }
        else { a with got := mapPut i (seen ++ [ckOff pk]) a.got,
                      data := addUnit a.data (ocStore [] (ckOff pk) pk.payload) }
      let rest := c.parity.filter (fun x => !(x.round == r && x.stripe == t && x.q == q))
      setCapture s { c with parity := rest ++ [a] }
  | _, _, _ => s

/-- Whether a contribution obeys R378. -/
def contributionOk (pk : Packet) : Bool :=
  decide (pk.addr.toNat < 2 ^ 44) && decide (ckHi pk < 2 ^ 9)
    && (if (ckHi pk).testBit 8 then decide (pk.len = 0) && decide (ckOff pk = 0) else decide (pk.len = 256) && decide (ckOff pk % 4096 = 0))

/-- UNIT_P (R375, R378). -/
def execUnitP (pk : Packet) (s : State) : Answer :=
  .next (ckReceive s pk 2 (contributionOk pk) (fun s => takeContribution s pk false))

/-- UNIT_Q (R375, R378). -/
def execUnitQ (pk : Packet) (s : State) : Answer :=
  .next (ckReceive s pk 3 (contributionOk pk) (fun s => takeContribution s pk true))

/-- UNIT_COUNT (R377, R379). -/
def execUnitCount (pk : Packet) (s : State) : Answer :=
  .next (ckReceive s pk 4 (decide (pk.len = 0) && decide (ckHi pk < 2)) (fun s =>
    match captureOf s pk.ctx, rankOf s pk.src with
    | some _, some r => if holdsRankZero s then takeCount s r pk.addr.toNat (decide (ckHi pk = 1)) else s
    | _, _ => s))

/-- UNIT_WRITTEN (R363, R374, R376): every unit of its own and every parity unit that is not zero goes to flash at once,
and SECURED goes out; a read-only store writes nothing. `lost` names units, as (kind, round), that were lost as they were
written and whose source had left the stage (R379). -/
def execUnitWritten (lost : List (Nat × Nat)) (s : State) : Answer :=
  .next (match s.store.capture, myPos s with
    | some c, some pos =>
      if !(readyToWrite s c) then s else
      let ro := readOnly s
      let own := unitsOf c.len
      let parity := if hasParity c.n then (heldParity c (c.u.getD 0) pos).filter (fun a =>
        decide (a.zero.length < stripeData c.n c.k a.stripe)) else []
      let s := if ro then s else (List.range own).foldl (fun s r =>
        writeUnit s c.num 0 r 0 (unitOf c.stream r) (c.bad.contains r || lost.contains (0, r))) s
      let s := if ro then s else parity.foldl (fun s a =>
        let kind := if a.q then 2 else 1
        writeUnit s c.num kind a.round a.stripe a.data (lost.contains (kind, a.round))) s
      let no := if ro then 0 else own
      let np := if ro then 0 else parity.length
      let s := setClutch s c.num { clutchOf s c.num with own := no, parity := np }
      let s := setCapture s { c with written := true }
      toGm s c.num 5 (no + np * 2 ^ 32) 0 (fun s => takeSecured s 0 no np)
    | _, _ => s)

/-- SECURED (R376). -/
def execSecured (pk : Packet) (s : State) : Answer :=
  .next (ckReceive s pk 5 (decide (pk.len = 0) && decide (ckHi pk = 0)) (fun s =>
    match captureOf s pk.ctx, rankOf s pk.src with
    | some _, some r => if holdsRankZero s then takeSecured s r (bitsOf pk.addr.toNat 0 32) (bitsOf pk.addr.toNat 32 32) else s
    | _, _ => s))

/-- CLUTCH_COMMIT (R376). -/
def execClutchCommit (pk : Packet) (s : State) : Answer :=
  .next (ckReceive s pk 6 (decide (pk.len = 0) && decide (pk.addr = 0) && decide (ckHi pk = 0)) (fun s =>
    match captureOf s pk.ctx with
    | some c => commitHere s c.num
    | none => s))

/-- CLUTCH_ABORT (R379, R380). -/
def execClutchAbort (pk : Packet) (s : State) : Answer :=
  .next (ckReceive s pk 7 (decide (pk.len = 0) && decide (pk.addr = 0) && decide (ckHi pk < 2 ^ 8)) (fun s =>
    match captureOf s pk.ctx with
    | some _ => failHere s (ckHi pk)
    | none => s))

/-! ### Restore and rebuilding -/

/-- RESTORE_START (R382). -/
def execRestoreStart (pk : Packet) (s : State) : Answer :=
  let n := payNat pk 4 2
  .next (ckReceive s pk 9 (decide (pk.len.toNat = 1 + (n + 3) / 4) && decide (pk.addr = 0) && decide (ckHi pk < 2)
      && decide (payNat pk 6 2 = 0)) (fun s =>
    takeRestore s (payNat pk 0 4) (payNat pk 8 8) (ckHi pk)
      ((List.range n).map (fun i => (payNat pk (16 + 4 * i) 2, BitVec.ofNat 16 (payNat pk (18 + 4 * i) 2)))) false))

/-- This member's unit of a round as a contributor gives it: a unit that was never written is zero, a lost one is none
(R374, R385). -/
def contributedUnit (s : State) (q : ChainReq) (kind : Nat) : Option (SMap Byte) :=
  match s.store.units.find? (fun u => BitVec.ofNat 16 u.clutch == q.clutch && u.kind == kind && u.round == q.round) with
  | some u => if u.lost then none else some u.data
  | none => some []

/-- Send one packet of the running sum to the next in the chain, or to the new holder (R385). -/
def sendPart (s : State) (q : ChainReq) (place i : Nat) (sum : SMap Byte) : State :=
  let dst := match q.chain[place + 1]? with
    | some e => entryId (memberEntry s e.1)
    | none => q.holder
  sendControl s dst kCheckpoint q.clutch (BitVec.ofNat 64 (q.round * 2 ^ 20 + 4096 * i)).toNat (0x0A + place * 2 ^ 8) (sparseBytes sum 0 4096)

/-- 4 KiB of a unit. -/
def unitPart (m : SMap Byte) (off : Nat) : SMap Byte :=
  (mapKeep (fun a _ => decide (off ≤ a) && decide (a < off + 4096)) m).map (fun e => (e.1 - off, e.2))

/-- Place of this member in a chain. -/
def chainPlace (s : State) (q : ChainReq) : Option Nat := q.chain.findIdx? (fun e => e.1 == fld s 0x31 fMembershipRank)

/-- Take a running sum: pass it on along the chain, take it as the new holder, or keep it until its request comes. -/
def takePart (s : State) (pk : Packet) : State :=
  let place := ckHi pk
  let r := ckRound pk
  match s.store.requests.find? (fun q => q.clutch == pk.ctx && q.round == r && chainPlace s q == some (place + 1)) with
  | some q =>
    let e := q.chain.getD (place + 1) (0, 0, 0)
    match contributedUnit s q e.2.2 with
    | none => s
    | some m =>
      let sum := addUnit (ocStore [] 0 pk.payload) (scaleUnit e.2.1 (unitPart m (ckOff pk)))
      let q' := { q with sent := q.sent + 1 }
      let rest := s.store.requests.filter (· != q)
      let s := setStore s { s.store with requests := if q'.sent = unitPackets then rest else rest ++ [q'] }
      sendPart s q (place + 1) (ckOff pk / 4096) sum
  | none =>
    match s.store.rebuild with
    | some b =>
      if BitVec.ofNat 16 b.clutch = pk.ctx ∧ b.round = r ∧ place + 1 = b.chain then
        if b.got.contains (ckOff pk) then s else
        let b := { b with data := addUnit b.data (ocStore [] (ckOff pk) pk.payload), got := b.got ++ [ckOff pk] }
        if b.got.length = unitPackets then unitRebuilt s b else setStore s { s.store with rebuild := some b }
      else setStore s { s.store with early := s.store.early ++ [pk] }
    | none => setStore s { s.store with early := s.store.early ++ [pk] }

/-- REBUILD_REQ (R385): the first in the chain starts the sum; parts that came before their request follow. -/
def execRebuildReq (pk : Packet) (s : State) : Answer :=
  let n := ckHi pk
  let chain := (List.range n).map (fun i => (payNat pk (16 + 4 * i) 2, payNat pk (18 + 4 * i) 1, payNat pk (19 + 4 * i) 1))
  .next (ckReceive s pk 12 (decide (n < 2 ^ 8) && decide (pk.len.toNat = 1 + (n + 3) / 4) && decide (ckOff pk = 0)
      && decide (pk.addr.toNat < 2 ^ 44) && chain.all (fun e => decide (e.2.2 ≤ 2))) (fun s =>
    let q : ChainReq := { holder := pk.src, clutch := pk.ctx, rank := payNat pk 0 2, round := ckRound pk, chain := chain }
    match chainPlace s q with
    | none => s
    | some 0 =>
      let e := chain.getD 0 (0, 0, 0)
      match contributedUnit s q e.2.2 with
      | none => s
      | some m => (List.range unitPackets).foldl (fun s i => sendPart s q 0 i (scaleUnit e.2.1 (unitPart m (4096 * i)))) s
    | some _ =>
      let held := s.store.early
      let s := setStore s { s.store with requests := s.store.requests ++ [q], early := [] }
      held.foldl takePart s))

/-- REBUILD_PART (R385). -/
def execRebuildPart (pk : Packet) (s : State) : Answer :=
  .next (ckReceive s pk 10 (decide (pk.len = 256) && decide (pk.addr.toNat < 2 ^ 44) && decide (ckOff pk % 4096 = 0)
    && decide (ckHi pk < 2 ^ 8)) (fun s => takePart s pk))

/-- RESTORE_DONE (R382). -/
def execRestoreDone (pk : Packet) (s : State) : Answer :=
  .next (ckReceive s pk 11 (decide (pk.len = 0) && decide (pk.addr = 0) && decide (ckHi pk < 2 ^ 8)) (fun s =>
    match s.store.restore, rankOf s pk.src with
    | some r, some rank => if holdsRankZero s && BitVec.ofNat 16 r.clutch == pk.ctx then takeRestoreResult s rank (ckHi pk) else s
    | _, _ => s))

/-- A member that rebuilds nothing: whether the new holder has finished is not told in any packet, so it may be SECURED again
(R386, log 86). -/
def reprotectedElsewhere (s : State) : State :=
  if !([latestClutch s, previousClutch s].any (fun c => (clutchOf s c).away)) then s else
  let f := takeFree s 1
  if Config.freeBool f.1 then settleClutches f.2 else f.2

/-- REPROTECT (R386): the next unit that the store lacks is rebuilt; with none left the bring-in of class 9 is done
(R465) and each clutch that was DEGRADED is SECURED again. -/
def execReprotect (s : State) : Answer :=
  .next (if s.store.rebuild.isSome || flag s 0xA stStore2Restoring then s else
    if !(flag s 0xA stStore2Reprotecting) then reprotectedElsewhere s else
    match s.store.reprotect with
    | [] => settleClutches (spareIn (setFlag s 0xA stStore2Reprotecting false) 9 (fld s 0x31 fMembershipRank))
    | x :: rest =>
      let b := startRebuild s x.1 x.2.1 x.2.2.1 x.2.2.2.1 x.2.2.2.2
      if b.2 then b.1 else setStore s { s.store with reprotect := rest })

/-- End the job on this module: collectives, updates, plan and dispatchers stop. -/
def endJob (s : State) : State :=
  let s := abortColls s
  let s := (List.range 4).foldl abortUpd s
  let s := (List.range 4).foldl (fun s d =>
    setFlag (setFlag s (pgDisp d) fDispatcherEnable false) (pgDisp d) stDispatcherEnabled false) s
  let s := setFlag { s with planNext := none } 0 stManagerJobRunning false
  if modState s = msRunning then setFld s 0 stManagerModuleState msReady else s

/-- GM_WAIT_EXPIRY (R388). -/
def execGmWaitExpiry (s : State) : Answer :=
  .next (match s.net.gmLost with
    | some t =>
      if t + fld s 0xA fStore2GmWait * 1000000000 ≤ now s then
        let s := setFld (endJob s) 0x31 stMembershipJstate jsUnjoined
        setNet s { s.net with gmLost := none }
      else s
    | none => s)

/-! ### Flash upkeep (R366 to R369) -/

/-- Whether a block holds retained data or system data (R367). -/
def holdsData (s : State) (d b : Nat) : Bool :=
  (decide (8944 ≤ b) && decide (b < 9240)) || (blockUnits s d b).any (fun u => !u.lost)

/-- FLASH_REFRESH (R367). -/
def execFlashRefresh (die : FlashDie) (block : Fin 9936) (why : RefreshCause) (s : State) : Answer :=
  let d := die.val
  let b := block.val
  let due := match why with
    | .age days => decide (fld s 8 fStore0RefreshDays < days)
    | .corrected bits => decide (60 < bits)
  .next (if !(flag s 8 fStore0RefreshEn) || (flashOf s d).failed || !due || !(holdsData s d b) then s else
    let system := decide (8944 ≤ b) && decide (b < 9240)
    if system then
      let s := eraseBlock s d b
      let f := flashOf s d
      bump (setFlash s d { f with programmed := mapPut b (now s) f.programmed }) 8 fStore0RefreshCount
    else if readOnly s then s
    else match newBlock s d with
      | some c => bump (moveBlock s d b c) 8 fStore0RefreshCount
      | none => s)

/-- WEAR_LEVEL (R366). -/
def execWearLevel (die : FlashDie) (s : State) : Answer :=
  let d := die.val
  let f := flashOf s d
  let blocks := usableBlocks f
  let top := blocks.foldl (fun m b => max m (erasesOf f b)) 0
  let used := blocks.filter (fun b => !(blockUnits s d b).isEmpty)
  .next (match leastBy (erasesOf f) used, leastBy (fun b => top - erasesOf f b) (freeBlocks s d), leastBy (erasesOf f) blocks with
    | some b, some c, some low =>
      if f.failed || readOnly s || decide (top ≤ erasesOf f low + 1000) then s else moveBlock s d b c
    | _, _, _ => s)

/-- BLOCK_RETIRE (R368). -/
def execBlockRetire (die : FlashDie) (block : Fin 9936) (why : RetireCause) (readable : Bool) (s : State) : Answer :=
  let d := die.val
  let b := block.val
  let f := flashOf s d
  let due := match why with
    | .programOrErase => true
    | .corrected bits => decide (90 < bits)
    | .eraseCount => decide (40000 ≤ erasesOf f b)
  .next (if f.failed || mapHas b f.retired || !due then s
    else retireBlock s d b readable (match why with
      | .eraseCount => true
      | _ => false))

/-- FLASH_DIE_FAIL (R369). -/
def execFlashDieFail (die : FlashDie) (s : State) : Answer :=
  .next (if (flashOf s die.val).failed then s else failFlash s die.val)

end Sys2Proof.Machine
end

