-- ==== Sys2Proof/Machine/Groups.lean ====
section
/-!
DEFINITION. The rows of membership (10_collectives.md): joining (R291), updates and epochs (R293), heartbeats (R292), and
the takeover of a lost rank (R386). JOIN, JOIN_OPEN, ROUTE and RANKSET are accesses to registers and stand in
Accesses.lean.
-/

namespace Sys2Proof.Machine

/-! ### Joining (R291) -/

/-- The JOIN_REQ of this module (R295). -/
def joinBytes (s : State) : List Byte :=
  let restart := match s.job with
    | some j => j.restart
    | none => false
  leBytes 4 s.net.jobId.toNat ++ leBytes 2 (strapRole s + (if restart then 4 else 0)) ++ leBytes 2 (formerRank s)
    ++ List.replicate 8 0 ++ ((portReports s).map (fun w => leBytes 4 w.toNat)).flatten
    ++ leBytes 4 (latestClutch s) ++ leBytes 4 (previousClutch s) ++ List.replicate 8 0

/-- Whether JOIN_REQ goes out on a port: ACTIVE, and its partner the group manager or already a member. Of a partner that this module's own
table does not list it cannot tell, and the choice is open (R291, log 80). -/
def joinPort (s : State) (seed p : Nat) : Bool :=
  let q := BitVec.ofNat 16 (partnerId s p)
  portActive s p && (q == gmId s || (rankOf s q).isSome || Config.freeBool (seed + p))

/-- Send JOIN_REQ (R291). -/
def sendJoin (s : State) : State :=
  let body := joinBytes s
  let f := takeFree s 16
  let s := ((List.range 16).filter (joinPort s f.1)).foldl (fun s p =>
    let m := takeMsgId s
    portSend m.2 p (ownPacket m.2 (gmId s) kJoinReq 0 m.1 0 0 body)) f.2
  setNet s { s.net with joinSent := some (now s) }

/-- JOIN's effect (R315): a member or standby strap starts to join, with GM_ID and JOB_ID as they stand; no effect in JSTATE 2 to 5. -/
def joinModule (s : State) : State :=
  if (strapRole s = 1 ∨ strapRole s = 3) ∧ jstate s ≤ 1 then
    let n := { s.net with stepped := false, gm := BitVec.ofNat 16 (fld s 0x31 fMembershipGmId),
                          jobId := BitVec.ofNat 32 (fld s 0x31 fMembershipJobId) }
    sendJoin (setFld (setNet s n) 0x31 stMembershipJstate jsJoining)
  else s

/-- JOIN_OPEN's effect (R290, R315): on the group manager the first opening sets the epoch to 1. -/
def openJoins (s : State) (on : Bool) : State :=
  if strapRole s ≠ 2 then s else
  let s := setFlag s 0x31 fMembershipJoinOpen on
  if on ∧ epochNow s = 0 then setFld s 0x31 fMembershipEpoch 1 else s

/-- JOIN_RETRY (R291). -/
def execJoinRetry (s : State) : Answer :=
  .next (match s.net.joinSent with
    | some t => if jstate s = jsJoining ∧ t + 10000000 ≤ now s then sendJoin s else s
    | none => s)

/-- Port reports of a payload. -/
def readReports (b : List Byte) : List (BitVec 32) := (List.range 16).map (fun i => BitVec.ofNat 32 (leNat ((b.drop (4 * i)).take 4)))

/-- Whether port reports obey R295. -/
def reportsOk (l : List (BitVec 32)) : Bool :=
  l.zipIdx.all (fun e => decide (bitsOf e.1.toNat 0 4 = e.2) && decide (bitsOf e.1.toNat 9 7 = 0))

/-- Whether a JOIN_REQ obeys R295. -/
def joinReqOk (pk : Packet) : Bool :=
  decide (pk.len = 6) && decide (pk.ctx = 0) && decide (pk.addr = 0) && decide (pk.aux = 0) && decide (payNat pk 4 1 < 8) && decide (payNat pk 5 1 = 0)
    && decide (payNat pk 8 8 = 0) && decide (payNat pk 88 8 = 0) && reportsOk (readReports (pk.payload.drop 16))

/-- A standby module and a working one hold ranks in different ranges (R278). -/
def rankRange (role : Nat) : Nat × Nat := if role = 3 then (16384, 256) else (1, 16383)

/-- The rank that a join takes: a former rank that is free at a restart, else the first free one (R278, R388). -/
def joinRank (m : SMap (BitVec 32)) (role former : Nat) (restart : Bool) : Option Nat :=
  let r := rankRange role
  if restart ∧ r.1 ≤ former ∧ former < r.1 + r.2 ∧ !(mapHas former m) then some former else freeRank m r.1 r.2

/-- The group manager answers a JOIN_REQ (R291). The order of the refusals is a choice (log 36). -/
def answerJoin (s : State) (pk : Packet) : State :=
  let role := payNat pk 4 1 % 4
  let restart := decide (payNat pk 4 1 ≥ 4)
  let table := plannedMembers s
  let refuse (code : Nat) : State := sendJoinResp s pk.src code 0
  match rankIn s s.net.members pk.src with
  | some r =>
    if flag s 0x31 fMembershipJoinOpen && entryState (memberEntry s r) = 4 then
      sendJoinResp s pk.src (if r < 16384 then 0 else 1) r
    else refuse (if flag s 0x31 fMembershipJoinOpen then 5 else 7)
  | none =>
    if !(flag s 0x31 fMembershipJoinOpen) then refuse 7
    else if payNat pk 0 4 ≠ fld s 0x31 fMembershipJobId then refuse 6
    else if (rankIn s table pk.src).isSome || pk.src == moduleId s then refuse 5
    else if role ≠ 1 ∧ role ≠ 3 then refuse 2
    else match joinRank table role (payNat pk 6 2) restart with
      | none => refuse (if role = 3 then 4 else 3)
      | some r =>
        let s := setNet s { s.net with members := mapSet (fun _ => (0 : BitVec 32)) r (memEntry pk.src 4) s.net.members,
                                       heard := mapPut pk.src.toNat (now s) s.net.heard }
        let s := sendJoinResp (raise s 0x31 evMembershipMemberJoined) pk.src (if role = 3 then 1 else 0) r
        let reports := mapSet (fun _ => ([] : List (BitVec 32))) pk.src.toNat (readReports (pk.payload.drop 16)) s.net.reportsOf
        let s := issueUpdate s [(r, memEntry pk.src (if role = 3 then 2 else 1))] reports (some pk.src)
        if restart ∧ latestClutch s = 0 then
          let known (c : Nat) (s : State) : State := if c = 0 then s else setClutch s c { clutchOf s c with st := 2 }
          let s := known (payNat pk 80 4) (known (payNat pk 84 4) s)
          setFld (setFld s 9 fStore1Latest (payNat pk 80 4)) 9 fStore1Previous (payNat pk 84 4)
        else s

/-- JOIN_REQ (R287, R291). -/
def execJoinReq (pk : Packet) (s : State) : Answer :=
  if pk.kind.toNat = kJoinReq ∧ !(forMe s pk) ∧ packetOk pk then execPacketForward pk s
  else .next (receive s pk kJoinReq (joinReqOk pk) (fun s =>
    if jstate s = jsManager then answerJoin s pk
    else if strapRole s = 0 then sendJoinResp s pk.src 2 0
    else if strapRole s = 2 then sendJoinResp s pk.src 7 0
    else s))

/-- JOIN_RESP (R291). -/
def execJoinResp (pk : Packet) (s : State) : Answer :=
  .next (receive s pk kJoinResp (decide (pk.len = 0) && decide (pk.ctx = 0) && decide (pk.addr.toNat < 2 ^ 16) && decide (bitsOf pk.aux.toNat 8 8 = 0)
      && decide (pk.aux.toNat < 2 ^ 31)) (fun s =>
    if jstate s ≠ jsJoining then s else
    let code := bitsOf pk.aux.toNat 0 8
    let s := setFld (setNet s { s.net with joinSent := none }) 0x31 fMembershipJoinResult code
    if code ≤ 1 then
      let s := setFld (setFld s 0x31 fMembershipRank (bitsOf pk.aux.toNat 16 15)) 0x31 fMembershipEpoch pk.addr.toNat
      let s := setFld s 0x31 stMembershipJstate (if code = 0 then jsMember else jsStandby)
      raise (setFlag (setNet s { s.net with gmHeard := now s, hbSent := now s }) 0x31 stMembershipGmReachable true) 0x31 evMembershipJoined
    else
      let s := setFld s 0x31 stMembershipJstate jsUnjoined
      raise (raiseIf (decide (8 ≤ code)) s 0x31 evMembershipCtrlBad) 0x31 evMembershipJoinRefused))

/-! ### Updates (R293) -/

/-- An update that has arrived whole. -/
def takeUpdate (s : State) (b : List Byte) : State :=
  match readUpdate b with
  | none => packetBad s
  | some u =>
    if u.full then setNet s { s.net with updates := s.net.updates.filter (fun x => decide (x.bell < u.bell)) ++ [u] }
    else if u.epoch = nextEpoch (plannedEpoch s) then setNet s { s.net with updates := s.net.updates ++ [u] }
    else sendControl s (gmId s) kMemberSync 0 0 0 []

/-- An assembly with one more packet; a packet of another total, or one that overlaps what has come, begins a new update. -/
def addPart (p : Option PartUpd) (total off : Nat) (b : List Byte) : PartUpd :=
  let p := (p.filter (fun p => p.total == total && p.parts.all (fun e => decide (off + b.length ≤ e.1 ∨ e.1 + e.2 ≤ off)))).getD ⟨total, [], []⟩
  { p with parts := p.parts ++ [(off, b.length)], bytes := ocStore p.bytes off b }

/-- MEMBER_UPDATE (R293, R295): its packets may come in any order. -/
def execMemberUpdate (pk : Packet) (s : State) : Answer :=
  let total := pk.aux.toNat
  .next (receive s pk kMemberUpdate (decide (1 ≤ pk.len.toNat) && decide (pk.ctx = 0) && decide (total % 16 = 0) && decide (24 ≤ total)
      && decide (pk.addr.toNat + pk.payload.length ≤ total)) (fun s =>
    if wasApplied s pk.src pk.msgId ∨ holdsRankZero s then s else
    let s := noteApplied s pk.src pk.msgId
    let p := addPart s.net.partUpd total pk.addr.toNat pk.payload
    if p.parts.foldl (fun n e => n + e.2) 0 < total then setNet s { s.net with partUpd := some p }
    else takeUpdate (setNet s { s.net with partUpd := none }) (sparseBytes p.bytes 0 total)))

/-- MEMBER_SYNC (R293, R295). -/
def execMemberSync (pk : Packet) (s : State) : Answer :=
  .next (receive s pk kMemberSync (decide (pk.len = 0) && decide (pk.ctx = 0) && decide (pk.addr = 0) && decide (pk.aux = 0)) (fun s =>
    if jstate s = jsManager ∧ (rankIn s (plannedMembers s) pk.src).isSome then answerSync s pk.src else s))

/-- This module's own entry in a new table: its rank and JSTATE follow (R278, R290, R386). -/
def takeOwnEntry (s : State) : State :=
  if holdsRankZero s then s else
  match rankOf s (moduleId s) with
  | none => s
  | some r =>
    let st := entryState (memberEntry s r)
    let took := decide (jstate s = jsStandby) && decide (st = 1)
    let s := setFld s 0x31 fMembershipRank r
    let s := if st = 1 then setFld s 0x31 stMembershipJstate jsMember
      else if st = 2 then setFld s 0x31 stMembershipJstate jsStandby else s
    raiseIf took s 0xA evStore2Takeover

/-- Ranks whose entries an update changes. -/
def changedRanks (u : MemberUpd) (old new : SMap (BitVec 32)) : List Nat :=
  if u.full then ((old.map (·.1)) ++ (new.map (·.1))).filter (fun r => mapFind r old != mapFind r new) else u.entries.map (·.1)

/-- Collectives whose rank set holds a changed entry end ABORTED_EPOCH (R293, R302). -/
def abortChanged (s : State) (changed : List Nat) : State :=
  ((s.net.colls.filter (fun c => c.running && c.ending.isNone && c.ranks.any changed.contains)).map (·.desc.id)).foldl
    (fun s id => endColl s id csEpoch) s

/-- The group manager after an epoch: a standby member takes a rank that waits for one; a restore whose new holder has
taken its rank starts (R382, R386). -/
def afterEpoch (s : State) (u : MemberUpd) : State :=
  if jstate s ≠ jsManager then s else
  match s.store.lost.find? (fun l => l.striped && l.holder == 0), (standbyRanks s).head? with
  | some l, some sb =>
    let id := entryId (memberEntry s sb)
    let s := setStore s { s.store with lost := s.store.lost.map (fun x => if x.rank = l.rank then { x with holder := id } else x) }
    issueUpdate s [(l.rank, memEntry id 1), (sb, 0)] s.net.reportsOf none
  | _, _ =>
    if s.store.lost.any (fun l => !l.restored && l.holder != 0 && u.entries.any (fun e => e.1 == l.rank && entryState e.2 == 1))
    then startRestore s else s

/-- EPOCH_APPLY (R293, R294). -/
def execEpochApply (s : State) : Answer :=
  .next (match s.net.updates with
    | [] => s
    | u :: rest =>
      if now s < u.bell then s else
      let old := s.net.members
      let members := applyEntries old u
      let s := setNet s { s.net with members := members, updates := rest, early := [], barriers := [],
                                     heard := (u.entries.filter (fun e => entryState e.2 = 1 ∨ entryState e.2 = 2)).foldl
                                       (fun m e => if mapHas (entryId e.2).toNat m then m else mapPut (entryId e.2).toNat (now s) m) s.net.heard }
      let s := if u.full then setNet s { s.net with routes := [] } else s
      let s := u.routes.foldl (fun s r => setRoute s r.1 r.2) s
      let s := raise (setFld s 0x31 fMembershipEpoch u.epoch.toNat) 0x31 evMembershipEpochChanged
      let s := chooseUpstream (takeOwnEntry (setCounts s))
      let s := abortChanged s (changedRanks u old members)
      let s := if s.store.capture.isSome then
          abortClutch s (if u.entries.any (fun e => entryState e.2 = 3) then 1 else 2) else s
      let s := (s.net.waiting.map (·.1)).foldl sendArrival s
      afterEpoch s u)

/-! ### Heartbeats (R292) -/

/-- HEARTBEAT (R288, R292). -/
def execHeartbeat (pk : Packet) (s : State) : Answer :=
  .next (receive s pk kHeartbeat (decide (pk.len = 0 ∨ pk.len = 4) && decide (pk.ctx = 0) && decide (pk.addr = 0) && decide (pk.aux.toNat < 16)
      && (decide (pk.len = 0) || reportsOk (readReports pk.payload))) (fun s =>
    if jstate s = jsManager then
      if (rankIn s s.net.members pk.src).isNone then s else
      let s := setNet s { s.net with heard := mapPut pk.src.toNat (now s) s.net.heard }
      if pk.len = 0 then s else
      let l := readReports pk.payload
      if reportsFor s.net.reportsOf pk.src.toNat = l then s
      else issueUpdate s [] (mapSet (fun _ => ([] : List (BitVec 32))) pk.src.toNat l s.net.reportsOf) none
    else if isMember s && pk.src == gmId s then
      let hops := fld s 0x30 fTransportTtlInit + 1 - pk.ttl.toNat
      setFlag (setNet s { s.net with gmHeard := now s, gmLost := none, hops := hops }) 0x31 stMembershipGmReachable true
    else s))

/-- HEARTBEAT_TX (R292, R295). A group manager whose own ports changed recomputes the routes (R288). -/
def execHeartbeatTx (s : State) : Answer :=
  .next (if now s < s.net.hbSent + hbTicks s then s
    else if jstate s = jsManager then
      let s := if s.net.reportsDirty then issueUpdate s [] s.net.reportsOf none else s
      let s := setNet s { s.net with hbSent := now s }
      (otherMembers s s.net.members).foldl (fun s m => sendControl s m kHeartbeat 0 0 (jstate s) []) s
    else if isMember s then
      let body := if s.net.reportsDirty then ((portReports s).map (fun w => leBytes 4 w.toNat)).flatten else []
      let s := setNet s { s.net with hbSent := now s, reportsDirty := false }
      sendControl s (gmId s) kHeartbeat 0 0 (jstate s) body
    else s)

/-- Whether the group stripes its clutches, its lost ranks counted: four working modules or more, else no standby takeover is
possible (R25, R389). -/
def groupStripes (s : State) : Bool :=
  hasParity ((workingRanks s).length + (s.store.lost.filter (fun l => l.striped && !((workingRanks s).contains l.rank))).length)

/-- The entries that replace a lost holder: the standby member with the lowest rank takes a lost working rank, and the old
holder is marked FAILED in the rank left behind (R386). -/
def replaceHolder (s : State) (rank : Nat) (old : BitVec 16) : List (Nat × BitVec 32) × BitVec 16 :=
  match (standbyRanks s).filter (· != rank) with
  | sb :: _ =>
    if rank < 16384 ∧ groupStripes s then ([(rank, memEntry (entryId (memberEntry s sb)) 1), (sb, memEntry old 3)], entryId (memberEntry s sb))
    else ([(rank, memEntry old 3)], 0)
  | [] => ([(rank, memEntry old 3)], 0)

/-- MEMBER_LOST (R292, R379, R386, R387). -/
def execMemberLost (rank : Fin 16640) (s : State) : Answer :=
  let r := rank.val
  let e := memberEntry s r
  .next (if jstate s ≠ jsManager ∨ r = 0 ∨ !([1, 2].contains (entryState e)) then s
    else if now s < mapGet (fun _ => now s) (entryId e).toNat s.net.heard + hbLimit s then s
    else if [1, 2].contains (entryState (entryIn s (plannedMembers s) r)) && entryId (entryIn s (plannedMembers s) r) == entryId e then
      let s := raise s 0x31 evMembershipMemberLost
      let p := replaceHolder s r (entryId e)
      let s := if r < 16384 then
          let l : LostRank := ⟨r, p.2, max (latestClutch s) (previousClutch s), false, groupStripes s⟩
          let s := setStore s { s.store with lost := s.store.lost.filter (fun x => x.rank != r) ++ [l] }
          let s := abortRestore (abortClutch s 1)
          if l.striped ∧ p.2 = 0 then setFlag s 0xA stStore2WaitStandby true else s
        else s
      issueUpdate s p.1 (mapErase (entryId e).toNat s.net.reportsOf) none
    else s)

/-- GM_LOST (R292). -/
def execGmLost (s : State) : Answer :=
  .next (if isMember s && s.net.gmLost.isNone && decide (s.net.gmHeard + hbLimit s ≤ now s) then
      let s := unfollow (setNet s { s.net with gmLost := some (now s) })
      raise (setFlag s 0x31 stMembershipGmReachable false) 0x31 evMembershipGmLost
    else s)

end Sys2Proof.Machine
end

