-- ==== Sys2Proof/Machine/Update.lean ====
section
/-!
DEFINITION. The rows of the ledger check (R328) and of the update units (R346 to R355). LEDGER_ARM, GATE_ADD, UPD_ARM,
UPD_ABORT, UPD_RESUME and UPD_DISCARD are accesses to registers and stand in Accesses.lean.
-/

namespace Sys2Proof.Machine

/-- LEDGER_CHECK_RUN (R328): the first armed check whose start counter has reached its target. -/
def execLedgerCheckRun (d : DieId) (s : State) : Answer :=
  .next (
    if !(dieAwake s d) then s else
    match (ledgersOf s d).find? (·.started) with
    | none => s
    | some l => runLedger s d l)

/-- RNG_KEY of a die (R86). -/
def dieKey (s : State) (d : Nat) : BitVec 128 := (wideVal s (pgDie d) wRngKey).extractLsb' 0 128

/-- RNG_STEP of a die (R85). -/
def dieStep (s : State) (d : Nat) : Word := BitVec.ofNat 32 (fld s (pgDie d) fWorkerDieStep)

/-- UPDATE_PREPARE (R346 to R348): the oldest armed update whose start counter has reached its target starts and
prepares; a resumed one prepares again (R352), and the running one goes on with its array work. -/
def execUpdatePrepare (d : DieId) (s : State) : Answer :=
  .next (
    if !(dieAwake s d) then s else
    let u := updOf s d
    match u.run with
    | some x => if x.phase = .prepare ∧ !x.held then prepareUpd s d x else s
    | none =>
      if !(flag s (pgUpd d) fUpdateEnable) then s else
      match u.armed.find? (·.started) with
      | none => s
      | some a =>
        let x : UpdRun := ⟨a, .prepare, false, dieStep s d, 0, 0, [], [], [], 0, 0, 0, none, none, dieKey s d, none⟩
        prepareUpd (setUpd s d { u with armed := u.armed.erase a, run := some x }) d x)

/-- SUBSHARD_COMMIT (R351, R353). -/
def execSubshardCommit (d : DieId) (s : State) : Answer :=
  .next (match (updOf s d).run with
    | none => s
    | some x =>
      if !(dieAwake s d) ∨ x.phase = .prepare ∨ x.held ∨ x.waiting.isSome then s else subshardRound s d x)

/-- OWED_RECHECK (R353): every 10 microseconds the two clutch words are read again; each 1,024 ticks of waiting count. -/
def execOwedRecheck (d : DieId) (s : State) : Answer :=
  .next (match (updOf s d).run with
    | none => s
    | some x =>
      match x.waiting with
      | none => s
      | some t =>
        if now s < t + 10000 ∨ !(dieAwake s d) then s else
        let n := (now s - t) / 1024
        let s1 := bumpBy s (pgUpd d) fUpdateOwedWaitCount n
        let r := memReadNat s1 x.desc.state 256
        match r.2 with
        | none => failUpd r.1 d x
        | some v =>
          let rec' := readStateRec v
          setUpd r.1 d { updOf r.1 d with run := some { x with
            waiting := if rec'.owed > rec'.streamed then some (t + 1024 * n) else none } })

end Sys2Proof.Machine
end

