-- ==== Sys2Proof/Machine/HealthOps.lean ====
section
/-!
DEFINITION. Shared operations of the health monitor (16_reliability.md): the detail of an event (R533), serviceable cores and
downtime (R463, R464), fencing and bring-in (R450 to R453, R535), uncorrectable SRAM errors (R451).
-/

namespace Sys2Proof.Machine

/-! ### The detail of an event (R533) -/

/-- The mailbox value that an event's chapter writes as it raises the event: UE_LAST (R222), FAIL_INFO (R154), LEDGER_LAST
(R328), LAST_REJECT (R501), LAST_DIP (R430), LAST_STEP (R202). -/
def detailValue (page bit : Nat) : Option WideDef :=
  match pageBlock page with
  | some .memCtl => if bit = evMemCtlUe then some wUeLast else none
  | some .core => if bit = evCoreTaskFailed then some wFailInfo else none
  | some .workerDie => if bit = evWorkerDieVersionMismatch then some wLedgerLast else none
  | some .security => if bit = evSecurityImageRejected then some wLastReject else none
  | some .power => if bit = evPowerSupplyWarn then some wLastDip else none
  | some .timeBase => if bit = evTimeBaseTimeStepped then some wLastStep else none
  | _ => none

/-- Words 0 to 2 of the value that details an event; zero where none is given (R533). -/
def eventDetail (s : State) (page bit : Nat) : List Nat :=
  match detailValue page bit with
  | some d => [wideWord (wideVal s page d) 0, wideWord (wideVal s page d) 1, wideWord (wideVal s page d) 2]
  | none => [0, 0, 0]

/-! ### Serviceable cores and downtime (R463, R464) -/

/-- Change a core's state and cause. -/
def setCoreState (s : State) (g st : Nat) : State :=
  let d := fun g => if g % 304 < 288 then 0 else 1
  setHealth s { s.health with coreState := mapSet d g st s.health.coreState }
/-- FENCE_CAUSE of a core. -/
def coreCause (s : State) (g : Nat) : Nat := mapGet (fun _ => 0) g s.health.coreCause

/-- Spare cores left on the module (R466). -/
def sparesLeft (s : State) : Nat := ((List.range 1216).filter (fun g => decide (coreState s g = 1))).length

/-- The reasons of downtime that hold: few cores, and work not accepted (R463, R533). -/
def downReasons (s : State) : Nat :=
  (if serviceable s < 1152 then 1 else 0)
    + (if (modState s = msReady ∨ modState s = msRunning) ∧ !((List.range 4).any (fun d => dieAsleep s d && !(s.sys.hostSleep.contains d))) then 0 else 2)

/-- Whether a downtime interval that starts now is excluded: input or coolant out of range, or the host's own doing
(R463). -/
def downExcluded (s : State) : Bool :=
  let flow := fld s 5 fThermalFlow
  (flag s 4 stPowerWarnActive && decide (s.power.dipLow < 400)) || s.sys.supplyLow || decide (600 < fld s 4 fPowerVIn)
    || s.therm.inletHigh || s.therm.inletLow || s.therm.flowLost || s.therm.lowFlow.isSome
    || (decide (flow ≠ 0xFFF) && decide (3000 < flow)) || s.sys.resetLow || !(s.sys.hostSleep.isEmpty)

/-- End a downtime interval. -/
def endDown (s : State) (t : Nat) : State :=
  let h := s.health
  let n := now s - t
  let h := if h.downExcl then { h with exclTicks := h.exclTicks + n } else { h with downTicks := h.downTicks + n }
  let mask := h.downMask + (if h.downExcl then 4 else 0)
  logEntry (setFlag (setHealth s { h with downSince := none, downMask := 0, downExcl := false }) 6 stHealthDown false) 6 0xFF 5
    [mask, serviceable s, 0]

/-- Bring CORES_SERVICEABLE, DEGRADED, SPARES_LEFT and the downtime interval up to date. `host` says that the host or
RESET_L is the cause (R463). -/
def noteCores (s : State) (host : Bool) : State :=
  let n := serviceable s
  let s := setFld (setFld s 6 fHealthCoresServiceable n) 6 fHealthSparesLeft (sparesLeft s)
  let s := setFlag s 6 stHealthDegraded (decide (n < 1152))
  let m := downReasons s
  match s.health.downSince with
  | none =>
    if m = 0 then s else
    let excl := host || downExcluded s
    let s := setHealth s { s.health with downSince := some (now s), downMask := m, downExcl := excl }
    logEntry (setFlag s 6 stHealthDown true) 6 0xFF 4 [m + (if excl then 4 else 0), n, 0]
  | some t =>
    if m = 0 then endDown s t else setHealth s { s.health with downMask := s.health.downMask ||| m }

/-! ### Fencing and bring-in (R450 to R453, R535) -/

/-- A request of class 0, or its drop when the queue is full (R448, R449). -/
def askCore (s : State) (r : CoreReq) : State :=
  let h := s.health
  if h.coreQ.length ≥ 64 then dropSpare s 0 r.core
  else setHealth s { h with coreQ := h.coreQ ++ [r] }

/-- The wards whose cores are unfit (R407). -/
def wardUnfit (s : State) (w : Nat) : Bool := decide (fld s (pgWard w) fWardFCeil = 127) || (mapGet (fun _ => ({} : WardClk)) w s.clk.wards).stopped

/-- The spare chosen for a bring-in: the lowest-numbered SPARE core of the die whose ward is fit (R452). -/
def chooseSpare (s : State) (d : Nat) : Option Nat :=
  (dieCores d).find? (fun g => decide (coreState s g = 1) && !(wardUnfit s (coreWard g)))

/-- A core is reset (R13, R452): its tiles are abandoned, what it still does for them ends, and what its page and the core hold of
class V is lost. -/
def resetCore (s : State) (g : Nat) : State :=
  let own : MsgOwner → Bool := fun o => match o with
    | .async k _ => k == g
    | .commit k => k == g
    | _ => false
  let s := dropMsgsOf (abandonAll s g) own
  resetPage { s with cores := mapErase g s.cores } (pgCore g) (· == .v)

/-- Fence a core (R451, R452): it is reset, and a core that was in service asks for a bring-in. -/
def fenceCore (s : State) (g cause : Nat) : State :=
  let st := coreState s g
  if st = 3 then s else
  let s := setCoreState (resetCore s g) g 3
  let h := s.health
  let h := { h with coreCause := mapPut g cause h.coreCause,
                    rowQ := h.rowQ.filter (fun r => r.core != g),
                    coreRun := match h.coreRun with
                      | some r => if r.2 = g then none else some r
                      | none => none }
  let s := raise (bump (setHealth s h) 6 fHealthFenceCount) 6 evHealthCoreFenced
  let s := logEntry s 6 0xFF 2 [g, cause, 0]
  let s := if cause = 7 then s else noteInput s 15 1
  let s := if st = 0 then askCore s ⟨g, false⟩ else s
  noteCores s false

/-- Give the class to the request at the head of the queue, or to a given one: a bring-in takes a spare, a return takes the
core itself (R448, R450, R452); with no spare left the request ends and DEGRADED is raised (R453, R535). -/
def beginCore (s : State) (r : CoreReq) : State :=
  if r.back then setHealth (setCoreState s r.core 2) { (setCoreState s r.core 2).health with coreRun := some (r, r.core) } else
  match chooseSpare s (coreDie r.core) with
  | none => logSpare (raise s 6 evHealthDegraded) 0 r.core 2
  | some g =>
    let s := setFlag (setCoreState s g 2) (pgWard (coreWard g)) stWardNap false
    let s := setHealth s { s.health with coreRun := some (r, g) }
    noteCores (raiseIf (chooseSpare s (coreDie r.core)).isNone s 6 evHealthSpareExhausted) false

/-- A self-test cut by a reset: the core under test returns to its state, and the request starts again, ahead of those
queued (R535). -/
def cutSelfTest (s : State) (dies : List Nat) : State :=
  match s.health.coreRun with
  | none => s
  | some (r, g) =>
    if !(dies.contains (coreDie g)) then s else
    let s := setCoreState s g (if r.back then 3 else 1)
    setHealth s { s.health with coreRun := none, coreQ := r :: s.health.coreQ }

/-- Count an uncorrectable SRAM error of a core; past the limit of 24 h the core is fenced (R451, R457). -/
def sramUe (s : State) (g : Nat) : State :=
  let s := noteInput s 4 1
  let old := (mapGet (fun _ => ([] : List Nat)) g s.health.ueTimes).filter (fun t => decide (now s < t + dayTicks))
  let l := old ++ [now s]
  let s := setHealth s { s.health with ueTimes := mapSet (fun _ => ([] : List Nat)) g l s.health.ueTimes }
  if fld s 6 fHealthFenceUeLimit < l.length then fenceCore s g 1 else s

/-- Fence every core in service of a ward (R451, R456). -/
def fenceWard (s : State) (w cause : Nat) : State :=
  let base := 304 * (w / 8) + 38 * (w % 8)
  ((List.range 38).map (base + ·)).foldl (fun s g => if coreState s g = 0 then fenceCore s g cause else s) s

/-! ### Manager cores (R455) -/

/-- Manager cores in service. -/
def mgrServing (s : State) : List Nat :=
  (List.range 18).filter (fun m => !(s.health.mgrFenced.getLsbD m) && !(s.health.mgrSpare.getLsbD m))

/-- Bring MGR_IN_SERVICE, MGR_SPARES and MGR_DEGRADED up to date. -/
def noteMgr (s : State) : State :=
  let n := (mgrServing s).length
  let sp := ((List.range 18).filter (fun m => s.health.mgrSpare.getLsbD m && !(s.health.mgrFenced.getLsbD m))).length
  setFlag (setFld (setFld s 6 fHealthMgrInService n) 6 fHealthMgrSpares sp) 6 stHealthMgrDegraded (decide (n < 16))

/-- Fence a manager core; a request for its spare follows (R455). -/
def fenceMgr (s : State) (m : Nat) : State :=
  let h := s.health
  if h.mgrFenced.getLsbD m ∨ h.mgrSpare.getLsbD m then s else
  let h := { h with mgrFenced := h.mgrFenced ||| BitVec.ofNat 18 (2 ^ m) }
  let s := if h.mgrQ.length ≥ 2 then dropSpare (setHealth s h) 1 m else setHealth s { h with mgrQ := h.mgrQ ++ [m] }
  noteMgr (raise s 6 evHealthMgrCoreLost)

end Sys2Proof.Machine
end

