-- ==== Sys2Proof/Machine/Links.lean ====
section
/-!
DEFINITION. The rows of the optical ports (R250 to R272). PORT_ENABLE, RETRAIN, PORT_RESET and PORT_REPLAN are register
writes and stand in Accesses.lean.
-/

namespace Sys2Proof.Machine

/-- DATA_FRAME (R258). -/
def execDataFrame (p : PortId) (w : LaneWord) (s : State) : Answer := .next (onCodeword s p w (useData p))

/-- IDLE_FRAME (R254). -/
def execIdleFrame (p : PortId) (w : LaneWord) (s : State) : Answer :=
  .next (onCodeword s p w (fun f s => if f.typ = 1 then useHeader s p f else s))

/-- TIME_FRAME (R272). -/
def execTimeFrame (p : PortId) (w : LaneWord) (arrival : BitVec 64) (s : State) : Answer :=
  .next (onCodeword s p w (useTime p arrival.toNat))

/-- FRAME_DISCARD (R255): a codeword that is not discarded has no effect in this row. -/
def execFrameDiscard (p : PortId) (w : LaneWord) (s : State) : Answer := .next (onCodeword s p w (fun _ s => s))

/-- TIME_FRAME_TX (R272): every TS_INTERVAL, in TIME_CAL and ACTIVE. -/
def execTimeFrameTx (p : PortId) (s : State) : Answer :=
  .next (if receiving s p && timeRuns (portState s p) && timeDue s p then
      let x := portOf s p
      setPort s p { transmit x (now s) 2 0 x.nextSeq (timePayload s x) with timeAt := some (now s) }
    else s)

/-- REPLAY_TIMEOUT (R258): no DATA sent for 8 µs while frames await acknowledgement. -/
def execReplayTimeout (p : PortId) (s : State) : Answer :=
  .next (if portActive s p && !(portOf s p).replay.isEmpty && decide ((portOf s p).lastData + 8000 ≤ now s) then replayAll s p
    else s)

/-- SWAP (R260). -/
def execSwap (p : PortId) (lane : BitVec 4) (s : State) : Answer :=
  .next (if receiving s p then keepLine s (laneCommand s p 1 lane.toNat) p else s)

/-- NARROW (R260). -/
def execNarrow (p : PortId) (lane : BitVec 4) (s : State) : Answer :=
  .next (if receiving s p then keepLine s (laneCommand s p 2 lane.toNat) p else s)

/-- WIDEN (R260). -/
def execWiden (p : PortId) (lane : BitVec 4) (s : State) : Answer :=
  .next (if receiving s p then keepLine s (laneCommand s p 3 lane.toNat) p else s)

/-- CMD_ACK (R260). -/
def execCmdAck (p : PortId) (s : State) : Answer := .next (if receiving s p then laneCommand s p 4 0 else s)

/-- LANE_MAP_CHANGE (R260). -/
def execLaneMapChange (p : PortId) (dir : LinkDir) (s : State) : Answer :=
  .next (if receiving s p then
      match dir with
      | .tx => txBoundary s p
      | .rx => rxBoundary s p
    else s)

/-- LASER_CHECK_PASS (R261): power in range for 1 ms. -/
def execLaserCheckPass (p : PortId) (s : State) : Answer :=
  .next (match (portOf s p).laserSince with
    | none => s
    | some t => if portState s p = psLaser ∧ t + 1000000 ≤ now s then setPortState s p psTrain else s)

/-- Whether the laser check is due: at once on entry to LASER_CHECK, then every 1 s (R261). -/
def laserDue (s : State) (p : Nat) : Bool :=
  match (portOf s p).laserAt with
  | none => true
  | some t => decide (t + 1000000000 ≤ now s)

/-- LASER_RECHECK (R261). -/
def execLaserRecheck (p : PortId) (s : State) : Answer :=
  .next (if portState s p = psLaser ∧ (portOf s p).laserSince = none ∧ laserDue s p = true then
      raise (setPort s p { portOf s p with laserAt := some (now s) }) (pgPort p) evPortLaserLow
    else s)

/-- LANE_TRAIN_DONE (R261): a direction with fewer good lanes than NARROW_MIN sends the port to DOWN. -/
def execLaneTrainDone (p : PortId) (txGood rxGood : BitVec 9) (s : State) : Answer :=
  .next (
    if portState s p ≠ psTrain then s else
    let s := setPort s p { portOf s p with txGood := txGood, rxGood := rxGood }
    if tooNarrow s p then portDown s p else setPortState s p psAlign)

/-- ALIGN_DONE (R261): each receiver's map, without a dead lane (R266); credit shares and the reported PARAM values are those in force
on entry to PARAM (R257). -/
def execAlignDone (p : PortId) (partnerMap : List (BitVec 4)) (s : State) : Answer :=
  .next (
    if portState s p ≠ psAlign then s else
    let x := portOf s p
    let dead := deadLanes s p
    let sh (f : FieldDef) : Nat := fld s (pgPort p) f
    setPortState (setPort s p { x with
      rxMap := goodLanes x.rxGood dead,
      txMap := ((partnerMap.map (·.toNat)).filter (fun k => !(dead.testBit k))).take 8, mapped := true, held := none,
      rxShare := [sh fPortShare0, sh fPortShare1, sh fPortShare2, sh fPortShare3], paramOut := some (ownParam s p) }) p psParam)

/-- PARAM_FRAME (R261); one that reaches an ACTIVE port says that the partner retrains (R262, log 79). -/
def execParamFrame (p : PortId) (partner : Partner) (s : State) : Answer :=
  .next (
    if portState s p = psActive then portRetrain s p
    else if portState s p ≠ psParam then s
    else if partner.id = moduleId s ∧ !(flag s (pgPort p) fPortLoopback) then
      raiseIf (portOf s p).held.isNone (setPort s p { portOf s p with held := some partner }) (pgPort p) evPortSelfLink
    else takePartner s p partner)

/-- DOWN_RETRY (R261). -/
def execDownRetry (p : PortId) (s : State) : Answer :=
  .next (if portState s p = psDown ∧ flag s (pgPort p) fPortEnable ∧ (portOf s p).since + 1000000000 ≤ now s then
      portLaserCheck s p else s)

/-- Limit of a training state in ticks (R269); none for a state held without one. -/
def stateLimit (s : State) (p : Nat) : Option Nat :=
  let st := portState s p
  if st = psTrain then some 25000000
  else if st = psAlign then some 2000000
  else if st = psParam then (if (portOf s p).held.isSome then none else some 1000000)
  else if st = psTimeCal then some 5000000
  else none

/-- TRAIN_STATE_TIMEOUT (R269). -/
def execTrainStateTimeout (p : PortId) (s : State) : Answer :=
  .next (match stateLimit s p with
    | none => s
    | some n => if (portOf s p).since + n < now s then portDown s p else s)

/-- LANE_WINDOW (R264). -/
def execLaneWindow (p : PortId) (ratios : List LaneRatio) (s : State) : Answer :=
  .next (if receiving s p then laneWindow s p ratios else s)

/-- LANE_HARD_FAIL (R264). -/
def execLaneHardFail (p : PortId) (lane : Fin 9) (s : State) : Answer :=
  .next (if pageServed s (pgPort p) && !((deadLanes s p).testBit lane) then laneFails s p lane else s)

/-- LANE_BRING_IN (R265). -/
def execLaneBringIn (s : State) : Answer := .next (bringInLane s)

/-- LASER_LOSS (R268). -/
def execLaserLoss (p : PortId) (s : State) : Answer :=
  .next (if portState s p = psActive ∧ (portOf s p).laserSince = none then
      raise (portDown s p) (pgPort p) evPortLaserLow else s)

/-- LASER_PWR_SAMPLE (R250). -/
def execLaserPwrSample (p : PortId) (power : BitVec 16) (s : State) : Answer :=
  .next (
    if !(pageServed s (pgPort p)) then s else
    let ok := power != 0x8000 && decide (1500 ≤ power.toInt)
    let s := setFlag (setFld s (pgPort p) fPortLaserPwr power.toNat) (pgPort p) stPortLaserOk ok
    let x := portOf s p
    setPort s p { x with laserSince := if ok then some (x.laserSince.getD (now s)) else none })

end Sys2Proof.Machine
end

