-- ==== Sys2Proof/Machine/ClockOps.lean ====
section
/-!
DEFINITION. Shared operations of the clock domains (14_clocks.md): requests on the pulse skipper, operating voltages and
ceilings, margin readings, and the margin re-plan.
-/

namespace Sys2Proof.Machine

/-! ### Duty (R401) -/

/-- A ward's clock. -/
def wardClk (s : State) (w : Nat) : WardClk := mapGet (fun _ => ({} : WardClk)) w s.clk.wards
/-- Change a ward's clock. -/
def setWardClk (s : State) (w : Nat) (c : WardClk) : State :=
  { s with clk := { s.clk with wards := mapSet (fun _ => ({} : WardClk)) w c s.clk.wards } }
/-- Change the clock state. -/
def setClk (s : State) (c : Clocks) : State := { s with clk := c }
/-- Change the power controller. -/
def setPower (s : State) (p : PowerCtl) : State := { s with power := p }
/-- Change the thermal controller. -/
def setTherm (s : State) (t : ThermCtl) : State := { s with therm := t }

/-- The local cap request of a ward: R423, PL_DUTY of R424, and that of its core rail (R421). -/
def wardCap (s : State) (w : Nat) : Nat :=
  let c := min s.power.cap (mapGet (fun _ => 16) (w / 8) s.power.dieCap)
  if flag s 4 stPowerPlAsserted then min c (fld s 4 fPowerPlDuty) else c

/-- The request of Welea rotation on a ward (R438). -/
def rotReq (s : State) (w : Nat) : Nat :=
  match mapFind (w / 8) s.therm.rot with
  | none => 16
  | some r => if w % 8 / 2 = r.pair then min (fld s 5 fThermalRotDuty) (16 - r.lowering) else 16 - r.lowering

/-- The thermal request of a ward (R436 to R438). -/
def thermReq (s : State) (w : Nat) : Nat := min (mapGet (fun _ => 16) w s.therm.req) (rotReq s w)

/-- The requests on a ward's skipper in the order of SKIP_SRC: DUTY_LIMIT, droop, supply warning, power cap, thermal. -/
def skipRequests (s : State) (w : Nat) : List Nat :=
  [fld s (pgWard w) fWardDutyLimit, if (wardClk s w).droop then 8 else 16, if flag s 4 stPowerWarnActive then 4 else 16,
    wardCap s w, thermReq s w]

/-- DUTY of a ward: the least request, the request of a low margin reading included (R401, R405). -/
def wardDuty (s : State) (w : Nat) : Nat := (skipRequests s w).foldl min (if (wardClk s w).margin then 8 else 16)

/-- SKIP_SRC of a ward (R413). -/
def skipSrc (s : State) (w : Nat) : Nat :=
  ((skipRequests s w).zipIdx).foldl (fun a r => if r.1 < 16 then a + 2 ^ r.2 else a) 0

/-- Wards that are powered and do not nap (R423). -/
def runningWards (s : State) : List Nat :=
  (List.range 32).filter (fun w => dieAwake s (w / 8) && !(flag s (pgWard w) stWardNap))

/-! ### Voltage and ceilings (R406 to R408) -/

/-- The frequency codes of a table's points (R406). -/
def vfCodes : List Nat := [0, 8, 16, 24, 32, 40, 48, 58]

/-- The voltage of a point of a table value, in mV (R416). -/
def vfMv (v : Wide) (i : Nat) : Nat := wideWord v i / 2 ^ 16 % 1024

/-- A table's voltage at a code in units of 1/40 mV, linear between points (R406). -/
def vfAt (v : Wide) (c : Nat) : Nat :=
  let i := min 6 ((vfCodes.filter (fun k => decide (k ≤ c))).length - 1)
  let c0 := vfCodes.getD i 0
  let d := vfCodes.getD (i + 1) 0 - c0
  ((40 * vfMv v i : Int) + ((vfMv v (i + 1) : Int) - vfMv v i) * 40 * (c - c0 : Nat) / d).toNat

/-- V_op of a ward at a code, in 1/40 mV (R406). -/
def vOp40 (s : State) (w c : Nat) : Nat := vfAt (wideVal s (pgWard w) wVfAged) c + 1600

/-- F_CEIL as R407 computes it. -/
def ceilOf (s : State) (w : Nat) : Nat :=
  (((List.range 59).reverse).find? (fun c => decide (vOp40 s w c ≤ 32000))).getD 127

/-- Cores of a ward. -/
def wardCores (w : Nat) : List Nat := (List.range 38).map (304 * (w / 8) + 38 * (w % 8) + ·)

/-- Whether a ward holds in-service cores. -/
def wardInService (s : State) (w : Nat) : Bool := (wardCores w).any (fun g => decide (coreState s g = 0))

/-- Wards of a die that hold in-service cores. -/
def serviceWards (s : State) (d : Nat) : List Nat := ((List.range 8).map (8 * d + ·)).filter (wardInService s)

/-- Ceiling of a die: the least F_CEIL of its wards with in-service cores (R407). -/
def dieCeil (s : State) (d : Nat) : Nat :=
  (serviceWards s d).foldl (fun a w => min a (fld s (pgWard w) fWardFCeil)) 58

/-- Ceiling of the module (R407). -/
def moduleCeil (s : State) : Nat := (List.range 4).foldl (fun a d => min a (dieCeil s d)) 58

/-- The greatest V_op of in-service wards with a group code, in 1/40 mV, a ward at its ceiling at most (R406, R408). -/
def dieVolt40 (s : State) (c d : Nat) : Nat :=
  (serviceWards s d).foldl (fun a w => max a (min 32000 (vOp40 s w (min c (fld s (pgWard w) fWardFCeil))))) 0

/-- The greatest core voltage over the awake dies. -/
def volt40 (s : State) (c : Nat) : Nat := (awakeDies s).foldl (fun a d => max a (dieVolt40 s c d)) 0

/-- Run a ward's generator at a group code, or at its ceiling where that is lower (R399, R408). -/
def setWardFreq (s : State) (code w : Nat) : State :=
  let p := pgWard w
  let ceil := fld s p fWardFCeil
  let c := min code ceil
  setFlag (setFld (setFld s p fWardFNow c) p fWardVReq ((vOp40 s w c + 39) / 40)) p stWardAtCeil (decide (ceil < code))

/-- Wards of a die. -/
def dieWards (d : Nat) : List Nat := (List.range 8).map (8 * d + ·)

/-- Put the wards of dies at a code. -/
def setDiesFreq (s : State) (code : Nat) (dies : List Nat) : State :=
  (dies.flatMap dieWards).foldl (fun s w => setWardFreq s code w) s

/-- Recompute the ceilings of a die and the voltages of its wards (R407 to R409 step 2). -/
def recomputeCeil (s : State) (d : Nat) : State :=
  let before := dieCeil s d
  let s := (dieWards d).foldl (fun s w =>
    let p := pgWard w
    let old := fld s p fWardFCeil
    let new := ceilOf s w
    let drop := decide (new = 127 ∧ old ≠ 127 ∨ new < old)
    let s := raiseIf drop (setFld s p fWardFCeil new) p evWardCeilDropped
    let s := if drop then noteInput s 8 1 else s
    let s := setWardFreq s (if flag s p stWardAtCeil then fld s 4 fPowerFGroup else fld s p fWardFNow) w
    if new = 127 then fenceWard s w 4 else s) s
  raiseIf (decide (dieCeil s d < before)) s (pgDie d) evWorkerDieDieCeilDropped

/-! ### The margin re-plan (R409, R410) -/

/-- Record the re-plan that runs, its step and the ward it measures. -/
def setReplan (s : State) (r : Replan) : State :=
  let s := setClk s { s.clk with run := some r }
  let s := (dieWards r.die).foldl (fun s w => setFlag s (pgWard w) stWardReplanning (decide (r.step = 1) && w % 8 == r.item)) s
  setFld s (pgDie r.die) fWorkerDieReplanStep r.step

/-- End the running re-plan of a die. -/
def clearReplan (s : State) (d : Nat) : State :=
  let s := setClk s { s.clk with run := none }
  let s := (dieWards d).foldl (fun s w => setFlag s (pgWard w) stWardReplanning false) s
  setFld s (pgDie d) fWorkerDieReplanStep 0

/-- The next ward to measure: napping ones are set aside. -/
def seekWard (s : State) : List Nat → List Nat → Option Nat × List Nat
  | [], k => (none, k)
  | w :: l, k => if flag s (pgWard w) stWardNap then seekWard s l (k ++ [w % 8]) else (some w, k)

/-- Step 1 from a ward on; steps 2 and 3 follow when no ward is left (R409). -/
def enterWard (s : State) (r : Replan) (first : Nat) : State :=
  match seekWard s ((serviceWards s r.die).filter (fun w => decide (first ≤ w % 8))) r.skipped with
  | (some w, k) => setReplan s { r with step := 1, item := w % 8, skipped := k }
  | (none, k) => setReplan (recomputeCeil s r.die) { r with step := 3, item := 0, skipped := k }

/-- Start the re-plan of the first waiting die that is awake (R409). -/
def startReplan (s : State) : State :=
  if s.clk.run.isSome then s else
  match s.clk.waiting.find? (dieAwake s) with
  | none => s
  | some d => enterWard (setClk s { s.clk with waiting := s.clk.waiting.filter (· != d) }) ⟨d, 1, 0, []⟩ 0

/-- Whether a re-plan of a die runs or waits. -/
def replanTaken (s : State) (d : Nat) : Bool :=
  s.clk.waiting.contains d || (match s.clk.run with | some r => r.die == d | none => false)

/-- Request a re-plan of a die; the dies wait in die order (R409). -/
def requestReplan (s : State) (d : Nat) : State :=
  if replanTaken s d then s else
  startReplan (setClk s { s.clk with waiting := (List.range 4).filter (fun k => k == d || s.clk.waiting.contains k) })

/-- Step 6: the tables stand, REPLAN_DONE; wards set aside are measured before (R409, R410). P_STATIC changes to a value the
manual does not give. -/
def finishReplan (s : State) (r : Replan) : State :=
  if r.skipped ≠ [] then setReplan s { r with step := 6, item := 0 } else
  let d := r.die
  let f := takeFree s 1
  let s := setFld f.2 4 fPowerPStatic ((Config.freeWord f.1).toNat % 2048)
  let s := (dieWards d).foldl (fun s w => setWardClk s w { wardClk s w with margin := false }) s
  let s := raise (bump (clearReplan s d) (pgDie d) fWorkerDieReplanCount) (pgDie d) evWorkerDieReplanDone
  startReplan (setClk s { s.clk with lastReplan := mapPut d (now s) s.clk.lastReplan })

/-- Step 5 from a port on: ports that are not ACTIVE are skipped. -/
def enterPort (s : State) (r : Replan) (first : Nat) : State :=
  match (List.range 4).find? (fun p => decide (first ≤ p) && portActive s (4 * r.die + p)) with
  | some p => portReplanEffect (setReplan s { r with step := 5, item := p }) (4 * r.die + p)
  | none => finishReplan s r

/-- Step 4 from a channel on: channels out of service are skipped. -/
def enterChan (s : State) (r : Replan) (first : Nat) : State :=
  match (List.range 32).find? (fun c => decide (first ≤ c) && chanServes s (32 * r.die + c)) with
  | some c => setReplan s { r with step := 4, item := c }
  | none => enterPort s r 0

/-- A ward's measurement: V_aged := V_char + max(ΔV, ΔV_prev) at all eight points, ΔV in whole millivolts upward (R409). -/
def measureWard (s : State) (w : Nat) (m : ReplanReading) : State :=
  let dv := (m.sensitivity * (m.factorySlack - m.leastReading) + 1) / 2
  let char := wideVal s (pgWard w) wVfFactory
  let aged := wideVal s (pgWard w) wVfAged
  setWide s (pgWard w) wVfAged (wideOf ((List.range 8).map (fun i =>
    vfCodes.getD i 0 + min 1023 (vfMv char i + max dv (vfMv aged i - vfMv char i)) * 2 ^ 16)))

/-- End the re-plan of a die that sleeps or is reset: it starts again from step 1 on wake (R410). -/
def abortReplan (s : State) (d : Nat) : State :=
  match s.clk.run with
  | none => s
  | some r =>
    if r.die ≠ d then s else
    let s := clearReplan s d
    raise (setClk s { s.clk with waiting := (List.range 4).filter (fun k => k == d || s.clk.waiting.contains k) })
      (pgDie d) evWorkerDieReplanAborted

/-- A ward naps during its step 1: it is set aside (R410). -/
def replanNap (s : State) (w : Nat) : State :=
  match s.clk.run with
  | none => s
  | some r => if r.step = 1 ∧ 8 * r.die + r.item = w then enterWard s { r with skipped := r.skipped ++ [r.item] } (r.item + 1) else s

/-- A measured or retrained item is done and the next begins (R409). -/
def stepReplan (s : State) (r : Replan) (m : ReplanReading) : State :=
  if r.step = 1 then enterWard (measureWard s (8 * r.die + r.item) m) r (r.item + 1)
  else if r.step = 3 then
    (if m.leastReading < 4 ∧ fld s (pgDie r.die) fWorkerDieFabricRaise < 10
      then setFld s (pgDie r.die) fWorkerDieFabricRaise (fld s (pgDie r.die) fWorkerDieFabricRaise + 1)
      else enterChan s r 0)
  else if r.step = 4 then enterChan s r (r.item + 1)
  else if r.step = 5 then enterPort s r (r.item + 1)
  else match r.skipped with
    | [] => finishReplan s r
    | k :: l =>
      if flag s (pgWard (8 * r.die + k)) stWardNap then s
      else finishReplan (recomputeCeil (measureWard s (8 * r.die + k) m) r.die) { r with skipped := l }

/-! ### Margin readings (R405) -/

/-- Faulty paths of a domain. -/
def domFaulty (s : State) : MarginDomain → BitVec 8
  | .ward w => BitVec.ofNat 8 (fld s (pgWard w) fWardPathFaulty)
  | .fabric d => mapGet (fun _ => 0) d s.clk.fabFaulty

/-- The ward page that shows a domain's events: a fabric domain uses that of ward 0 of its die, as R418 does. -/
def domPage : MarginDomain → Nat
  | .ward w => pgWard w
  | .fabric d => pgWard (8 * d)

/-- The die of a domain. -/
def domDie : MarginDomain → Nat
  | .ward w => w / 8
  | .fabric d => d

/-- Whether path r is faulty in a window: it fails at every delay, or differs from every other path by more than 10 %. -/
def pathBad (l : List (Option (BitVec 8))) (faulty : BitVec 8) (r : Nat) : Bool :=
  match l.getD r none with
  | none => true
  | some x =>
    let others := ((List.range 8).filter (fun k => k != r && !(faulty.getLsbD k))).filterMap (fun k => l.getD k none)
    !(others.isEmpty) && others.all (fun y => decide (x.toNat + 20 < y.toNat ∨ y.toNat + 20 < x.toNat))

/-- Readings of the paths that are not faulty. -/
def goodReadings (l : List (Option (BitVec 8))) (faulty : BitVec 8) : List (Nat × Nat) :=
  (List.range 8).filterMap (fun r => if faulty.getLsbD r then none else (l.getD r none).map (fun x => (x.toNat, r)))

end Sys2Proof.Machine
end

