-- ==== Sys2Proof/Machine/Hash.lean ====
section
/-!
DEFINITION. SHA-256 (FIPS 180-4) and the check of an HSS signature (RFC 8554) with the parameter set of R500. The manual names the
standards and does not restate them, so their steps are PRESUMED (log 64).
-/

namespace Sys2Proof.Machine

/-! ### SHA-256 -/

/-- The primes below 312, the first 64 of which SHA-256 takes its constants from. -/
def shaPrimes : List Nat :=
  (List.range 312).filter (fun p => decide (2 ≤ p) && (List.range 18).all (fun d => decide (d < 2) || decide (p ≤ d) || decide (p % d ≠ 0)))

/-- The largest number below 2^40 whose k-th power is at most n, found bit by bit. -/
def rootBelow (k n : Nat) : Nat :=
  (List.range 40).foldl (fun r i => let t := r + 2 ^ (39 - i); if t ^ k ≤ n then t else r) 0

/-- The first 32 bits of the fractional part of the k-th root of a number. -/
def rootFraction (k n : Nat) : Word := BitVec.ofNat 32 (rootBelow k (n * 2 ^ (32 * k)))

/-- The round constants: the cube roots of the first 64 primes. -/
def shaConstants : List Word := shaPrimes.map (rootFraction 3)

/-- The eight words of a hash value. -/
structure ShaWords where
  a : Word
  b : Word
  c : Word
  d : Word
  e : Word
  f : Word
  g : Word
  h : Word
  deriving DecidableEq, Repr

/-- The initial hash value: the square roots of the first eight primes. -/
def shaInit : ShaWords :=
  let r (i : Nat) : Word := rootFraction 2 (shaPrimes.getD i 0)
  ⟨r 0, r 1, r 2, r 3, r 4, r 5, r 6, r 7⟩

/-- Big-endian number of a byte list. -/
def beNat (l : List Byte) : Nat := l.foldl (fun a b => 256 * a + b.toNat) 0

/-- The lowest `n` bytes of a number, most significant first. -/
def beBytes : Nat → Nat → List Byte
  | 0, _ => []
  | n + 1, v => beBytes n (v / 256) ++ [BitVec.ofNat 8 v]

/-- One new word of the message schedule, from the last sixteen, newest first. -/
def shaNext (l : List Word) : Word :=
  let w (i : Nat) : Word := l.getD i 0
  let s0 (x : Word) : Word := x.rotateRight 7 ^^^ x.rotateRight 18 ^^^ (x >>> 3)
  let s1 (x : Word) : Word := x.rotateRight 17 ^^^ x.rotateRight 19 ^^^ (x >>> 10)
  s1 (w 1) + w 6 + s0 (w 14) + w 15

/-- The message schedule of a block: 64 words, first word first. -/
def shaSchedule (block : List Byte) : List Word :=
  let first : List Word := (List.range 16).map (fun i => BitVec.ofNat 32 (beNat ((block.drop (4 * i)).take 4)))
  ((List.range 48).foldl (fun l _ => shaNext l :: l) first.reverse).reverse

/-- One round. -/
def shaRound (v : ShaWords) (kw : Word × Word) : ShaWords :=
  let big1 := v.e.rotateRight 6 ^^^ v.e.rotateRight 11 ^^^ v.e.rotateRight 25
  let ch := (v.e &&& v.f) ^^^ (~~~v.e &&& v.g)
  let t1 := v.h + big1 + ch + kw.1 + kw.2
  let big0 := v.a.rotateRight 2 ^^^ v.a.rotateRight 13 ^^^ v.a.rotateRight 22
  let maj := (v.a &&& v.b) ^^^ (v.a &&& v.c) ^^^ (v.b &&& v.c)
  ⟨t1 + (big0 + maj), v.a, v.b, v.c, v.d + t1, v.e, v.f, v.g⟩

/-- One block. -/
def shaBlock (v : ShaWords) (block : List Byte) : ShaWords :=
  let r := (shaConstants.zip (shaSchedule block)).foldl shaRound v
  ⟨v.a + r.a, v.b + r.b, v.c + r.c, v.d + r.d, v.e + r.e, v.f + r.f, v.g + r.g, v.h + r.h⟩

/-- The padded message: a one bit, zeros, and the length in bits as eight bytes. -/
def shaPad (l : List Byte) : List Byte :=
  l ++ [0x80] ++ List.replicate ((119 - l.length % 64) % 64) 0 ++ beBytes 8 (8 * l.length)

/-- SHA-256 as its 32 bytes, first byte first. -/
def sha256Bytes (l : List Byte) : List Byte :=
  let p := shaPad l
  let r := ((List.range (p.length / 64)).map (fun i => (p.drop (64 * i)).take 64)).foldl shaBlock shaInit
  ([r.a, r.b, r.c, r.d, r.e, r.f, r.g, r.h].map (fun w => beBytes 4 w.toNat)).flatten

/-- SHA-256 as a 256-bit value of the registers, first byte lowest. -/
def sha256 (l : List Byte) : BitVec 256 := BitVec.ofNat 256 (leNat (sha256Bytes l))

/-! ### HSS with L = 2, LMS_SHA256_M32_H10 and LMOTS_SHA256_N32_W8 (RFC 8554) -/

/-- LMS_SHA256_M32_H10 and LMOTS_SHA256_N32_W8 (R500). -/
def lmsType : Nat := 6
/-- See `lmsType`. -/
def lmotsType : Nat := 4

/-- Bytes `a` to `a + n` of a list. -/
def byteSlice (l : List Byte) (a n : Nat) : List Byte := (l.drop a).take n

/-- One step of a one-time chain. -/
def chainStep (ident : List Byte) (q i j : Nat) (x : List Byte) : List Byte :=
  sha256Bytes (ident ++ beBytes 4 q ++ beBytes 2 i ++ beBytes 1 j ++ x)

/-- The public value that a one-time signature (type, C, 34 values) of a message leads to. -/
def otsCandidate (ident : List Byte) (q : Nat) (sig msg : List Byte) : List Byte :=
  let hash := sha256Bytes (ident ++ beBytes 4 q ++ beBytes 2 0x8181 ++ byteSlice sig 4 32 ++ msg)
  let sum := hash.foldl (fun a b => a + (255 - b.toNat)) 0
  let digits := hash ++ beBytes 2 sum
  let ends := digits.zipIdx.map (fun d =>
    (List.range (255 - d.1.toNat)).foldl (fun x k => chainStep ident q d.2 (d.1.toNat + k) x) (byteSlice sig (36 + 32 * d.2) 32))
  sha256Bytes (ident ++ beBytes 4 q ++ beBytes 2 0x8080 ++ ends.flatten)

/-- One level up the tree. -/
def treeStep (ident : List Byte) (node : Nat) (x sibling : List Byte) : List Byte :=
  sha256Bytes (ident ++ beBytes 4 (node / 2) ++ beBytes 2 0x8383 ++ (if node % 2 = 1 then sibling ++ x else x ++ sibling))

/-- Whether an LMS signature of 1,452 bytes verifies under a public key of 56 bytes. -/
def lmsVerify (key sig msg : List Byte) : Bool :=
  let ident := byteSlice key 8 16
  let q := beNat (byteSlice sig 0 4)
  decide (key.length = 56) && decide (sig.length = 1452) && decide (beNat (byteSlice key 0 4) = lmsType) &&
    decide (beNat (byteSlice key 4 4) = lmotsType) && decide (beNat (byteSlice sig 4 4) = lmotsType) &&
    decide (beNat (byteSlice sig 1128 4) = lmsType) && decide (q < 1024) &&
    (let leaf := sha256Bytes (ident ++ beBytes 4 (1024 + q) ++ beBytes 2 0x8282 ++ otsCandidate ident q (byteSlice sig 4 1124) msg)
     let root := (List.range 10).foldl (fun x i => treeStep ident ((1024 + q) / 2 ^ i) x (byteSlice sig (1132 + 32 * i) 32)) leaf
     decide (root = byteSlice key 24 32))

/-- Whether an HSS signature (2,964 bytes) of a message verifies under a public key of 60 bytes (R500, R501): the upper tree signs the lower
tree's key, which signs the message. -/
def hssVerify (key msg sig : List Byte) : Bool :=
  decide (key.length = 60) && decide (sig.length = 2964) && decide (beNat (byteSlice key 0 4) = 2) && decide (beNat (byteSlice sig 0 4) = 1) &&
    lmsVerify (byteSlice key 4 56) (byteSlice sig 4 1452) (byteSlice sig 1456 56) && lmsVerify (byteSlice sig 1456 56) (byteSlice sig 1512 1452) msg

end Sys2Proof.Machine
end

