-- ==== Sys2Proof/Machine/SecOps.lean ====
section
/-!
DEFINITION. Shared operations of security (18_security.md): the presence window (R508), image verification (R500, R501), the
choice of the image at start-up (R502), and the one-time-signature index (R507).
-/

namespace Sys2Proof.Machine

/-- Change the security state. -/
def setSec (s : State) (x : Security) : State := { s with sec := x }

/-- Whether a record of the system area reads by majority of its three copies (R365). With fewer than two failed flash dies it does;
with more it is left open, since the manual does not say which dies hold the copies (log 87). -/
def copiesRead (s : State) : Bool × State :=
  if ((List.range 64).filter (fun d => (flashOf s d).failed)).length < 2 then (true, s) else
  let f := takeFree s 1
  (Config.freeBool f.1, f.2)

/-- Set a fused or persisted field, which takes effect in the system area or the fuses at once. -/
def fuseFld (s : State) (page : Nat) (f : FieldDef) (v : Nat) : State :=
  let s := setFld s page f v
  let k := regKey page f.off
  let w := insertBits (mapGet regDefault k s.sys.saved.regs).toNat f.lo f.width v
  { s with sys := { s.sys with saved := { s.sys.saved with
      regs := mapSet regDefault k (BitVec.ofNat 32 w) s.sys.saved.regs } } }

/-! ### Presence (R508) -/

/-- Whether the presence window is open. -/
def presenceOpen (s : State) : Bool :=
  flag s 2 stSecurityJumper || (match s.sec.pressUntil with | some t => decide (now s < t) | none => false)

/-- Bring PRESENCE up to date and raise PRESENCE_OPEN or PRESENCE_CLOSED on a change. -/
def notePresence (s : State) : State :=
  let o := presenceOpen s
  if o == flag s 2 stSecurityPresence then s
  else raise (setFlag s 2 stSecurityPresence o) 2 (if o then evSecurityPresenceOpen else evSecurityPresenceClosed)

/-- PRESENCE_LEFT (R512). -/
def presenceLeft (s : State) : Nat :=
  if flag s 2 stSecurityJumper then 0x1FF else
  match s.sec.pressUntil with
  | some t => min 300 ((t - now s + 999999999) / 1000000000)
  | none => 0

/-! ### Images (R500 to R504) -/

/-- Bytes of an image. -/
def imageBytes (im : ImageSlot) (a n : Nat) : List Byte := sparseBytes im.bytes a n
/-- A little-endian number in an image. -/
def imageNat (im : ImageSlot) (a n : Nat) : Nat := sparseNat im.bytes a n

/-- Bytes of header and signature. -/
def imageFront : Nat := 128 + 2964

/-- The checks of R501 in the order of their codes. -/
def verifyImage (s : State) (im : Option ImageSlot) : Nat :=
  match im with
  | none => 7
  | some im =>
    let len := imageNat im 8 4
    if imageNat im 0 2 ≠ 0x5A35 ∨ imageNat im 2 1 ≠ 1 ∨ imageNat im 3 1 ≠ 0 ∨ imageNat im 4 4 ≥ 64 ∨ imageNat im 12 4 ≠ 0
        ∨ imageNat im 0x74 12 ≠ 0 then 1
    else if len = 0 ∨ 8388608 < len ∨ im.len ≠ imageFront + len then 2
    else if sha256 (imageBytes im 0x38 60) ≠ wideVal s 2 wRootKeyHash then 3
    else if !(hssVerify (imageBytes im 0x38 60) (imageBytes im 0 128) (imageBytes im 128 2964)) then 4
    else if sha256 (imageBytes im imageFront len) ≠ BitVec.ofNat 256 (imageNat im 0x10 32) then 5
    else if imageNat im 4 1 < fld s 2 fSecuritySvnFuse then 6
    else 0

/-- The state field of a slot, 0 A or 1 B. -/
def slotStateF (b : Nat) : FieldDef := if b = 0 then fSecurityStateA else fSecurityStateB
/-- The SVN field of a slot. -/
def slotSvnF (b : Nat) : FieldDef := if b = 0 then fSecuritySvnA else fSecuritySvnB

/-- Set a slot's state and SVN, which is 0 unless VALID. -/
def setSlot (s : State) (b st svn : Nat) : State :=
  fuseFld (fuseFld s 2 (slotStateF b) st) 2 (slotSvnF b) (if st = 1 then svn else 0)

/-- Record a rejection (R501): slot 3 stands for RAM. -/
def rejectImage (s : State) (slot reason : Nat) : State :=
  setWide (raise s 2 evSecurityImageRejected) 2 wLastReject (wideOf [slot, reason])

/-- The image of a slot, 2 for RAM. -/
def imageIn (s : State) (b : Nat) : Option ImageSlot := mapFind b s.sec.images

/-- Run a verified image: SLOT_RUNNING, SVN_RUNNING, IMAGE_HASH, FALLBACK_BOOT (R502, R511 to R513). -/
def runImage (s : State) (b : Nat) (fallback : Bool) : State :=
  let im := imageIn s b
  let svn := (im.map (fun i => imageNat i 4 1 % 64)).getD 0
  let hash := (im.map (fun i => imageNat i 0x10 32)).getD 0
  let s := setFld (setFld s 2 stSecuritySlotRunning b) 2 fSecuritySvnRunning svn
  setWide (setFlag s 2 stSecurityFallbackBoot fallback) 2 wImageHash (BitVec.ofNat 256 hash)

/-- Verify a slot for start-up: it must be VALID; a rejection is recorded, also that of a slot that cannot be read (R501, R502).
True when it may run. -/
def trySlot (s : State) (b : Nat) : State × Bool :=
  if fld s 2 (slotStateF b) ≠ 1 then (s, false) else
  let c := copiesRead s
  let s := c.2
  let r := verifyImage s (if c.1 then imageIn s b else none)
  if r = 0 then (s, true) else (rejectImage s b r, false)

/-- The recovery image runs: it has no SVN (R502). -/
def runRecovery (s : State) : State :=
  let s := setFld (setFld s 2 stSecuritySlotRunning 3) 2 fSecuritySvnRunning 0
  setWide (setFlag s 2 stSecurityFallbackBoot false) 2 wImageHash Config.recoveryHash

/-- What the boot ROM does on BOOT (R502): the MODULE_STATE in which it ends, BOOTING where an image runs. -/
def bootRom (s : State) : State × Nat :=
  let b := fld s 1 fStrapsBoot
  if b = 3 then (runRecovery s, msRecovery)
  else if b = 2 then (s, msImageWait)
  else
    let t := trySlot s b
    if t.2 then (runImage t.1 b false, msBooting) else
    let t := trySlot (raise t.1 2 evSecurityBootFallback) (1 - b)
    if t.2 then (runImage t.1 (1 - b) true, msBooting) else (t.1, msImageWait)

/-- A slot still WRITING reads INVALID at a reset or session end (R504). -/
def endWriting (s : State) : State :=
  [0, 1].foldl (fun s b => if fld s 2 (slotStateF b) = 3 then setSlot s b 2 0 else s) s

/-- SVN_COMMIT (R503): whether it is refused, and its effect. -/
def svnRefused (s : State) : Bool :=
  decide (fld s 2 fSecuritySvnRunning ≤ fld s 2 fSecuritySvnFuse) || decide (1 < fld s 2 stSecuritySlotRunning)

/-- See `svnRefused`. -/
def svnCommitEffect (s : State) : State :=
  if svnRefused s then raise s 2 evSecurityCtrlBad else
  let v := fld s 2 fSecuritySvnRunning
  let s := raise (fuseFld s 2 fSecuritySvnFuse v) 2 evSecuritySvnAdvanced
  [0, 1].foldl (fun s b => if fld s 2 (slotStateF b) = 1 ∧ fld s 2 (slotSvnF b) < v then setSlot s b 2 0 else s) s

/-- Erase a slot (R504). -/
def eraseSlot (s : State) (b : Nat) : State :=
  setSlot (setSec s { s.sec with images := mapErase b s.sec.images }) b 0 0

/-- Whether IMAGE_BEGIN or IMAGE_ERASE is refused for a slot: it holds the running image (R504). -/
def slotRuns (s : State) (b : Nat) : Bool := decide (fld s 2 stSecuritySlotRunning = b)

/-! ### One-time signatures (R507) -/

/-- Signatures left. -/
def otsLeft (s : State) : Nat := 1048576 - fld s 2 fSecurityOtsNext

/-- Raise the high mark before a signature whose index has reached it, blowing the next fuse where H would pass it. -/
def otsReserve (s : State) : State :=
  if fld s 2 fSecurityOtsNext < s.sec.otsHigh then s else
  let h := s.sec.otsHigh + 64
  let s := setSec s { s.sec with otsHigh := h }
  let f := fld s 2 fSecurityOtsFuses
  if 4096 * f < h then fuseFld s 2 fSecurityOtsFuses (f + 1) else s

/-- Use one index (R507): OTS_LOW once below 65,536 left, OTS_EXHAUSTED at the last. -/
def otsUse (s : State) : Nat × State :=
  let s := otsReserve s
  let i := fld s 2 fSecurityOtsNext
  let s := fuseFld s 2 fSecurityOtsNext (i + 1)
  let left := otsLeft s
  let s := if left < 65536 ∧ !(s.sec.otsWarned) then raise (setSec s { s.sec with otsWarned := true }) 2 evSecurityOtsLow else s
  (i, raiseIf (decide (left = 0)) s 2 evSecurityOtsExhausted)

/-- At power-on and module reset the next index is the persisted high mark, or where no copy of it reads by majority the end of the
range that the blown fuses cover (R507). -/
def otsBoot (s : State) : State :=
  let c := copiesRead s
  let h := if c.1 then s.sec.otsHigh else 4096 * fld s 2 fSecurityOtsFuses
  fuseFld (setSec c.2 { c.2.sec with otsHigh := h }) 2 fSecurityOtsNext h

end Sys2Proof.Machine
end

