-- ==== Sys2Proof/Machine/ResetOps.lean ====
section
/-!
DEFINITION. Shared operations of start-up, resets and sleep (17_startup.md): loss of state by retention class (R13, R14), the
end of a die's work, die sleep, wake and reset, and the module's own resets.
-/

namespace Sys2Proof.Machine

/-! ### Loss by retention class (R13, R14) -/

/-- A register word whose fields that satisfy `lost` hold their reset values. -/
def lostWord (k : Nat) (w : Word) (lost : FieldDef → Bool) : Word :=
  match pageBlock (k / 4096) with
  | none => w
  | some b => BitVec.ofNat 32 (((pageFields b).filter (fun f => f.off == k % 4096 && lost f)).foldl (fun a f =>
      insertBits a f.lo f.width (bitsOf (regDefault k).toNat f.lo f.width)) w.toNat)

/-- Registers of pages whose fields that satisfy `lost` return to their reset values. -/
def wipeRegs (m : SMap Word) (pages : Nat → Bool) (lost : FieldDef → Bool) : SMap Word :=
  m.filterMap (fun e =>
    if pages (e.1 / 4096) then
      (let w := lostWord e.1 e.2 lost
       if w = regDefault e.1 then none else some (e.1, w))
    else some e)

/-- The class of a mailbox value. -/
def wideHold (k : Nat) : Option WideDef :=
  match pageBlock (k / 65536) with
  | none => none
  | some b => (blockWides b).find? (fun d => d.vid == k % 65536)

/-- Mailbox values of pages that satisfy `lost` return to their reset values. -/
def wipeWides (m : SMap Wide) (pages : Nat → Bool) (lost : WideDef → Bool) : SMap Wide :=
  m.filter (fun e => !(pages (e.1 / 65536) && ((wideHold e.1).map lost).getD false))

/-- Pages lose fields, values and, where class V is among them, mailbox snapshots. -/
def wipe (s : State) (pages : Nat → Bool) (lost : Hold → Bool) : State :=
  { s with regs := wipeRegs s.regs pages (fun f => lost f.hold), wide := wipeWides s.wide pages (fun d => lost d.hold),
           mailbox := if lost .v then mapKeep (fun p _ => !(pages p)) s.mailbox else s.mailbox,
           triple := mapKeep (fun k _ => !(pages (k / 4096) && (pageBlock (k / 4096)).any (fun b =>
             (pageFields b).any (fun f => f.off == k % 4096 && lost f.hold)))) s.triple }

/-- Whether a register word differs from its reset value in a class V field that software writes. -/
def softSet (e : Nat × Word) : Bool :=
  match pageBlock (e.1 / 4096) with
  | none => false
  | some b => (pageFields b).any (fun f => f.off == e.1 % 4096 && f.hold == .v && f.acc == .rw
      && decide (bitsOf e.2.toNat f.lo f.width ≠ bitsOf (regDefault e.1).toNat f.lo f.width))

/-- Whether a mailbox value is one of class V that software writes. -/
def softWide (k : Nat) : Bool :=
  match wideHold k with
  | some d => d.hold == .v && d.acc == .rw
  | none => false

/-- Pages with a class V field or value that software had set (R14). -/
def softPages (s : State) (pages : Nat → Bool) : List Nat :=
  ((s.regs.filter (fun e : Nat × Word => pages (e.1 / 4096) && softSet e)).map (fun e : Nat × Word => e.1 / 4096)
    ++ (s.wide.filter (fun e : Nat × Wide => pages (e.1 / 65536) && softWide e.1)).map (fun e : Nat × Wide => e.1 / 65536)).eraseDups

/-- Whether a page lies on a die. -/
def onDie (d p : Nat) : Bool :=
  match pageBlock p with
  | none => false
  | some b => pageDie b p == some d

/-- Raise DEFAULTS_RESTORED on pages. -/
def raiseDefaults (s : State) (pages : List Nat) : State := pages.foldl (fun s p => raise s p evCommonDefaultsRestored) s

/-! ### The end of a die's work -/

/-- The block whose message an owner is lies on a die. -/
def ownerOnDie (d : Nat) : MsgOwner → Bool
  | .async g _ => coreDie g == d
  | .commit g => coreDie g == d
  | _ => false

/-- Cores of a die that hold anything. -/
def heldCores (s : State) (d : Nat) : List Nat := (s.cores.map (·.1)).filter (fun g => coreDie g == d)

/-- Both tiles of every core of a die are abandoned, its accesses end, and its cores, class V, are empty (R124, R205). -/
def stopCores (s : State) (d : Nat) : State :=
  let s := (heldCores s d).foldl abandonAll s
  let s := dropMsgsOf s (ownerOnDie d)
  { s with cores := mapKeep (fun g _ => coreDie g != d) s.cores }

/-- The ports of a die lose power: undelivered frames return to the transport (R263, R268). -/
def stopPorts (s : State) (d : Nat) : State :=
  [0, 1, 2, 3].foldl (fun s i => setPort (portOff s (4 * d + i)) (4 * d + i) {}) s

/-- Clock and sensor state of a die's wards is lost. -/
def stopWards (s : State) (d : Nat) : State :=
  let off (w : Nat) : Bool := w / 8 == d
  { s with clk := { s.clk with wards := mapKeep (fun w _ => !(off w)) s.clk.wards },
           power := { s.power with slewing := s.power.slewing.filter (· != d), late := s.power.late.filter (· != d) },
           therm := { s.therm with temps := mapKeep (fun w _ => !(off w)) s.therm.temps,
                                   hotSince := mapKeep (fun w _ => !(off w)) s.therm.hotSince,
                                   coolSince := mapKeep (fun w _ => !(off w)) s.therm.coolSince,
                                   rot := mapErase d s.therm.rot } }

/-- Set AWAKE and ASLEEP of a die (R496). -/
def setPowerBits (s : State) (d : Nat) (awake asleep : Bool) : State :=
  let bit (w : Nat) (on : Bool) : Nat := w - (if Nat.testBit w d then 2 ^ d else 0) + (if on then 2 ^ d else 0)
  setFld (setFld s 0 fManagerAwake (bit (fld s 0 fManagerAwake) awake)) 0 fManagerAsleep (bit (fld s 0 fManagerAsleep) asleep)

/-! ### Die sleep and wake (R205, R492, R493) -/

/-- A die enters die sleep: its tiles are abandoned, class W stays saved, class V is lost. `host` marks a sleep that the
host commanded. -/
def sleepDie (s : State) (d : Nat) (host : Bool) : State :=
  if !(dieAwake s d) then s else
  let s := cutSelfTest (stopWards (stopPorts (stopCores s d) d) d) [d]
  let soft := softPages s (onDie d)
  let s := abortReplan (wipe s (onDie d) (· == .v)) d
  let s := setPowerBits { s with sys := { s.sys with
    defaults := s.sys.defaults ++ soft, hostSleep := if host then s.sys.hostSleep ++ [d] else s.sys.hostSleep } } d false true
  noteCores s host

/-- A restore that fails: the class W fields of a register, or from 0x1000 on the mailbox value whose VALUE_ID follows, take
their reset values, and DEFAULTS_RESTORED and WAKE_FAILED are raised (R14, R493). -/
def restoreFails (s : State) (d : Nat) (x : Nat × Nat) : State :=
  if !(onDie d x.1) then s else
  let s := if x.2 < 0x1000 then
      setRegWord s x.1 x.2 (lostWord (regKey x.1 x.2) (regWord s x.1 x.2) (fun f => f.hold == .w))
    else match wideHold (65536 * x.1 + (x.2 - 0x1000)) with
      | some v => if v.hold == .w then setWide s x.1 v (BitVec.ofNat 256 v.reset) else s
      | none => s
  raise (raise s x.1 evCommonDefaultsRestored) 0 evManagerWakeFailed

/-- Re-read the counter of each saved watch as at arming: one at its target fires, one whose counter cannot be read is freed with
CTRL_BAD (R192, R195, R205). -/
def rearmWatches (s : State) (d : Nat) : State :=
  (dispOf s d).watches.foldl (fun s w =>
    let r := startNow s w.counter w.target
    let x := dispOf r.1 d
    let free := { x with watches := x.watches.erase w }
    match r.2 with
    | none => raise (setDisp r.1 d free) (pgDisp d) evDispatcherCtrlBad
    | some true => setDisp r.1 d { free with records := x.records ++ [{ addr := w.record }] }
    | some false => r.1) s

/-- Re-read the start counters of saved ledger checks and armed updates; one that cannot be read is freed as at arming (R205). -/
def rearmStarts (s : State) (d : Nat) : State :=
  let s := (ledgersOf s d).foldl (fun s l =>
    let r := startNow s l.startCtr l.startTgt
    match r.2 with
    | none => raise (setLedgers r.1 d ((ledgersOf r.1 d).erase l)) (pgDie d) evWorkerDieLedgerBad
    | some b => setLedgers r.1 d ((ledgersOf r.1 d).map (fun x => if x == l then { x with started := x.started || b } else x))) s
  (updOf s d).armed.foldl (fun s a =>
    let r := startNow s a.startCtr a.startTgt
    let u := updOf r.1 d
    match r.2 with
    | none => raise (setUpd r.1 d { u with armed := u.armed.erase a }) (pgUpd d) evUpdateUpdBad
    | some b => setUpd r.1 d { u with armed := u.armed.map (fun x => if x == a then { x with started := x.started || b } else x) }) s

/-- Ports of a powered die with ENABLE = 1 start at LASER_CHECK (R261). -/
def startPorts (s : State) (d : Nat) : State :=
  [0, 1, 2, 3].foldl (fun s i =>
    if flag s (pgPort (4 * d + i)) fPortEnable && decide (portState s (4 * d + i) = psOff) then portLaserCheck s (4 * d + i) else s) s

/-- At start-up Fethaum sets ENABLE of a die's ports, unless the module has no identifier (R274, R277). -/
def enablePorts (s : State) (d : Nat) : State :=
  if moduleId s = 0 then s else [0, 1, 2, 3].foldl (fun s i => setFlag s (pgPort (4 * d + i)) fPortEnable true) s

/-- What follows when a die has power again: its wards take the group frequency (R429), its ports start, the log moves to its
ring, stopped ward domains re-lock (R456), and waiting re-plans go on. -/
def dieUp (s : State) (d : Nat) : State :=
  let s := { s with wardOff := mapKeep (fun k _ => !(k / 8 == d && decide (k < 32)) && k != 32 + d) s.wardOff }
  let s := startPorts (setDiesFreq s (fld s 4 fPowerFGroup) [d]) d
  startReplan (noteCores (flushLog s) false)

/-- A die leaves die sleep (R493). -/
def wakeDie (s : State) (d : Nat) (lost : List (Nat × Nat)) : State :=
  if !(dieAsleep s d) then s else
  let s := setPowerBits { s with sys := { s.sys with hostSleep := s.sys.hostSleep.filter (· != d) } } d true false
  let s := lost.foldl (fun s x => restoreFails s d x) s
  let s := raiseDefaults s (s.sys.defaults.filter (onDie d))
  let s := { s with sys := { s.sys with defaults := s.sys.defaults.filter (fun p => !(onDie d p)) } }
  dieUp (journalRestart (rearmStarts (rearmWatches s d) d) d) d

/-! ### Die reset (R491) -/

/-- Everything of a die that a reset of it clears; the log of its running update stays (R352). -/
def clearDie (s : State) (d : Nat) : State :=
  let s := cutSelfTest (stopWards (stopPorts (stopCores s d) d) d) [d]
  let u := updOf s d
  let s := wipe (setLedgers (setDisp s d {}) d []) (onDie d) (fun h => h == .v || h == .w)
  let s := setUpd s d { u with armed := [] }
  raise (raiseIf (!(u.armed.isEmpty)) s (pgUpd d) evUpdateQueueLost) (pgDisp d) evDispatcherQueuesLost

/-- A die reset: one worker die and its ports restart, bulk memory is kept (R242, R491, log 79). -/
def resetDie (s : State) (d : Nat) : State :=
  if !(dieAwake s d) && !(dieAsleep s d) then s else
  let s := abortReplan (clearDie s d) d
  let s := setPowerBits { s with sys := { s.sys with
    hostSleep := s.sys.hostSleep.filter (· != d), defaults := s.sys.defaults.filter (fun p => !(onDie d p)) } } d true false
  dieUp (journalRestart (enablePorts s d) d) d

/-! ### Module standby (R36, R492) -/

/-- Whether a field of a page that answers in standby is lost there: class V (R13), but for what the block presents live, its
STATUS bits, AWAKE and ASLEEP (R43, R496) and CAP_DUTY (R423). -/
def standbyLost (page : Nat) (f : FieldDef) : Bool :=
  f.hold == .v && !(f.off == 0x20 && f.acc == .ro) && !(page == 0 && f.off == 0x10C) && !(page == 4 && f.off == 0x114 && f.lo == 16)

/-- The selectors of class V, each with its page: RAIL, CORE_STATE and SPARE_CLASS (R446, R467). -/
def softSelectors (s : State) : List Nat :=
  (if s.power.railSel = 0 then [] else [4]) ++ (if s.health.coreSel = 0 ∧ s.health.classSel = 0 then [] else [6])

/-- They return to their reset values. -/
def dropSelectors (s : State) : State :=
  setHealth { s with power := { s.power with railSel := 0 } } { s.health with coreSel := 0, classSel := 0 }

/-- Pages of the module's own blocks, which answer in standby (R36). -/
def ownPages : List Nat := (List.range 0x51).filter (fun p => (pageBlock p).any (fun b => (pageDie b p).isNone))

/-- Enter module standby: every die sleeps and the module's own class V fields are lost. -/
def enterStandby (s : State) (host : Bool) : State :=
  if modState s ≠ msReady ∧ modState s ≠ msRunning then s else
  let s := (List.range 4).foldl (fun s d => sleepDie s d host) s
  let own (p : Nat) : Bool := (pageBlock p).any (fun b => (pageDie b p).isNone)
  let soft := (softPages s own ++ softSelectors s).eraseDups
  let regs := (ownPages.foldl (fun m p => wipeRegs m (· == p) (standbyLost p)) s.regs)
  let s := { s with regs := regs, wide := wipeWides s.wide own (fun d => d.hold == .v),
                    mailbox := mapKeep (fun p _ => !(own p)) s.mailbox,
                    sys := { s.sys with defaults := s.sys.defaults ++ soft } }
  noteCores (setFld (dropSelectors s) 0 stManagerModuleState msStandby) host

/-- The state in which an idle or working module stands. -/
def workState (s : State) : Nat := if flag s 0 stManagerJobRunning then msRunning else msReady

/-- Leave module standby: the dies wake in order (R493); one that a trip put to sleep wakes by itself (R437). `lost` names what the
restore fails for. -/
def leaveStandby (s : State) (lost : List (Nat × Nat)) : State :=
  if modState s ≠ msStandby then s else
  let s := setFld s 0 stManagerModuleState (workState s)
  let own := s.sys.defaults.filter (fun p => (pageBlock p).any (fun b => (pageDie b p).isNone))
  let s := raiseDefaults { s with sys := { s.sys with defaults := s.sys.defaults.filter (fun p => !(own.contains p)) } } own
  (List.range 4).foldl (fun s d => if mapHas d s.therm.sleptAt then s else wakeDie s d lost) s

/-- A job ends because the module stops by itself (R492). -/
def stopJob (s : State) : State :=
  if flag s 0 stManagerJobRunning then endJob s else s

/-- An automatic entry to module standby: a running job ends (R492). -/
def autoStandby (s : State) : State :=
  if modState s ≠ msReady ∧ modState s ≠ msRunning then s else enterStandby (stopJob s) false

/-! ### Module resets and start-up (R490, R491) -/

/-- STRAP_SNAP holds the sampled straps. -/
def sampleStraps (s : State) (straps : BitVec 12) : State := setRegWord s 1 0x100 (straps.setWidth 32)

/-- A pending re-plan of a region takes effect: the failed channel's share moves, the region's top 14 GiB is lost, and the
relocated granules hold zero (R235). -/
def applyRegion (s : State) (ch : Nat) : State :=
  let d := ch / 32
  let keep (a : Nat) : Bool := a / regionSize != d || (decide (a % regionSize < 0x6C80000000)
    && (match locate s a with | some l => l.chan != ch | none => true))
  let m := s.mem
  let m := { m with data := mapKeep (fun a _ => keep a) m.data, poison := mapKeep (fun a _ => keep (8 * a)) m.poison,
                    flips := mapKeep (fun k _ => k / 8192 / 2 ^ 22 / 32 != d || (k / 8192 / 2 ^ 22 != ch
                      && !(match pageOfSlot s (k / 8192 / 2 ^ 22) (k / 8192 % 2 ^ 22) with
                           | some p => decide (3555328 ≤ p ∧ p < 3670016)
                           | none => false))) m.flips }
  let s := setFld (setMem s m) 0x50 (ilField fInterleaveFailedCh0 d) (ch % 32)
  raise (shrinkRegion (setFlag s 0x50 (ilField fInterleaveReplanned0 d) true) d (14 * 2 ^ 30)) 0x50 evInterleaveReplanned

/-- Every pending re-plan takes effect. -/
def applyReplans (s : State) : State :=
  let l := s.mem.replanPending
  let s := l.foldl applyRegion s
  setMem s { s.mem with replanPending := [] }

/-- Channels wait for training: self-refresh exit or power-up (R214, R490). -/
def untrain (s : State) : State :=
  { s with mem := { s.mem with chans := s.mem.chans.map (fun e => (e.1, { e.2 with rate := none })) } }

/-- Bulk memory is lost; the tables of the channels stay (R232, R242). -/
def loseMemory (s : State) : State :=
  setMem s { s.mem with data := [], opens := [], poison := [], flips := [], queue := [], dropped := [], retireQ := [], retireEntry := none, filled := false,
                        chans := s.mem.chans.map (fun e => (e.1, { e.2 with ceRows := [], scrubNext := 0, scrubAt := 0 })) }

/-- Worker dies get power: AWAKE shows them (R490). -/
def powerDies (s : State) : State :=
  let s := setFld (setFld s 0 fManagerAwake 0xF) 0 fManagerAsleep 0
  [0, 1, 2, 3].foldl dieUp (if s.sys.warm then s else [0, 1, 2, 3].foldl enablePorts s)

/-- Fethaum runs: the class terms that hardware presents follow, the session port serves, POWER_LIMIT_L acts where its
last sample was low (R424), and the worker dies start unless the image is the recovery image or is still awaited (R490, R502). -/
def bootModule (s : State) : State :=
  let b := bootRom s
  let s := setFld b.1 0 stManagerModuleState b.2
  let s := { s with mgmt := { s.mgmt with txDisabled := false } }
  let s := noteMgr s
  let s := if flag s 1 fStrapsPlLow then raise (setFlag s 4 stPowerPlAsserted true) 4 evPowerCapLocal else s
  if b.2 = msBooting then powerDies s else s

/-- The manager's own state that no reset of the module keeps: the session, uploads, telemetry, answers (R476, R494). -/
def clearMgmt (m : Mgmt) (keepJob : Bool) : Mgmt :=
  { m with session := none, upload := none, telemetry := 0, lease := none, txDisabled := true,
           jobHash := if keepJob then m.jobHash else 0 }

/-- The manager cores start again; the local store, class A, stays (R468, R491, log 70). -/
def restartHarts (s : State) : State := { s with mgmt := { s.mgmt with harts := [] } }

/-- Group state that a warm reset keeps: class M (R286, R293, R313, R316). -/
def warmNet (n : Net) (t : Nat) : Net :=
  { nextMsg := n.nextMsg, gm := n.gm, jobId := n.jobId, hops := n.hops, routeSel := n.routeSel, memberSel := n.memberSel,
    heard := n.heard.map (fun e => (e.1, t)), gmHeard := t, routes := n.routes, members := n.members, ranksets := n.ranksets, ranksetLast := n.ranksetLast,
    reportsOf := n.reportsOf, reportsDirty := true }

/-- State of the store's engines that a reset ends; units and directory stay. -/
def clearStore (x : Store) : Store :=
  { dies := x.dies, units := x.units, dir := x.dir, dirSel := x.dirSel, worn := x.worn, eolWarned := x.eolWarned, next := x.next,
    lastBell := x.lastBell, sideCaps := x.sideCaps, lost := x.lost }

/-- Rails before their next poll: phases and spares stay, class P (R447). -/
def idleRails (m : SMap Rail) : SMap Rail := m.map (fun e => (e.1, { e.2 with mv := 0, deciamps := 0, temp := 0 }))

/-- Every die and port is reset with the module, and what a reset of any kind clears is cleared. -/
def clearModule (s : State) (lost : Hold → Bool) : State :=
  let s := endWriting (interruptCapture (restartHarts s))
  let s := [0, 1, 2, 3].foldl clearDie s
  let s := dropSelectors (wipe s (fun _ => true) lost)
  { s with wardOff := [], clk := { lastReplan := s.clk.lastReplan, fabFaulty := s.clk.fabFaulty },
           power := { energyRest := s.power.energyRest, rails := idleRails s.power.rails }, therm := {}, store := clearStore s.store,
           sys := { s.sys with hostSleep := [], defaults := [] } }

/-- A warm reset (R491): bulk memory and class M stay; a pending re-plan applies. -/
def warmReset (s : State) : State :=
  let planning := s.clk.run.map (·.die)
  let waiting := s.clk.waiting
  let s := clearModule s (fun h => h == .v || h == .w)
  let s := setNet s (warmNet s.net (now s))
  let s := { s with mgmt := clearMgmt s.mgmt true, sys := { s.sys with warm := true } }
  let s := setFld s 0 fManagerResetCause 7
  let s := match planning with
    | some d => raise (setClk s { s.clk with waiting := (List.range 4).filter (fun k => k == d || waiting.contains k) })
        (pgDie d) evWorkerDieReplanAborted
    | none => setClk s { s.clk with waiting := waiting }
  noteCores (bootModule (applyReplans (untrain s))) true

/-- Entries of the log that outlive bulk memory: the system-area ring, and the manager buffer where it is kept (R461). -/
def keptLog (l : List LogEntry) (buffer : Bool) : List LogEntry :=
  l.filterMap (fun e => if e.sys || (buffer && e.buf) then some { e with die := none, buf := buffer && e.buf } else none)

/-- A new boot number; counts start again (R533). -/
def nextBoot (s : State) : State :=
  let b := s.health.boot + 1
  { s with health := { s.health with boot := b, logCount := 0, lostRun := false },
           sys := { s.sys with saved := { s.sys.saved with health := { s.sys.saved.health with boot := b } } } }

/-- Clear everything that a module reset clears (R491, R494). -/
def clearForReset (s : State) (lost : Hold → Bool) : State :=
  let s := clearModule s lost
  let s := loseMemory s
  let s := nextBoot { s with net := {}, upds := [], job := none, planNext := none, ingest := none,
                             mgmt := clearMgmt s.mgmt false, sys := { s.sys with warm := false },
                             health := { s.health with log := keptLog s.health.log true } }
  setClk s { s.clk with started := [(0, now s), (1, now s), (2, now s), (3, now s)] }

/-- The part of a module reset that runs once RESET_L is high and the input is good: straps, boot, channels to be trained. -/
def startModule (s : State) (straps : BitVec 12) : State :=
  let s := otsBoot (sampleStraps s straps)
  noteCores (bootModule (applyReplans (untrain s))) true

/-- A module reset with its cause (R491); while RESET_L is low or the input too low the module stays in reset. -/
def moduleReset (s : State) (straps : BitVec 12) (cause : Nat) : State :=
  let s := clearForReset s (fun h => h == .v || h == .w || h == .m)
  let s := setFld s 0 fManagerResetCause cause
  if s.sys.resetLow || s.sys.supplyLow then noteCores (setFld s 0 stManagerModuleState msReset) true
  else startModule s straps

/-- What class P state the system area gives back at power-on (R232, R365, R447). -/
def loadSaved (s : State) : State :=
  let v := s.sys.saved
  let h := v.health
  { s with regs := v.regs, wide := v.wide,
           mem := { chans := v.chans, replanPending := v.replanPending },
           health := { coreState := h.coreState, coreCause := h.coreCause, rowUsed := h.rowUsed, coreQ := h.coreQ,
                       coreRun := h.coreRun, mgrFenced := h.mgrFenced, mgrSpare := h.mgrSpare, used := h.used,
                       log := keptLog s.health.log false, boot := s.health.boot, downTicks := h.downTicks, exclTicks := h.exclTicks,
                       poweredTicks := h.poweredTicks },
           clk := { lastReplan := v.lastReplan } }

/-- Power-on (R490): everything but class P restarts, time from zero. -/
def powerOnReset (s : State) (straps : BitVec 12) : State :=
  let s := clearForReset s (fun _ => false)
  let s := loadSaved { s with time := 0, power := { rails := idleRails s.sys.saved.rails }, mailbox := [], triple := [], cores := [], disps := [], ledgers := [],
                              upds := [], ports := [] }
  let s := setClk s { s.clk with started := [(0, 0), (1, 0), (2, 0), (3, 0)] }
  let s := cutSelfTest s [0, 1, 2, 3]
  let s := { s with mgmt := { s.mgmt with localStore := [], reports := [] },
                    sec := { s.sec with pressUntil := none, sealOpenSince := none, building := none, quote := [], halted := [] },
                    sys := { s.sys with supplyLow := false, resetLow := false } }
  startModule (setFld s 0 fManagerResetCause 1) straps

end Sys2Proof.Machine
end

