-- ==== Sys2Proof/Machine/Clocks.lean ====
section
/-!
DEFINITION. Commands of the clock domains (14_clocks.md): frequency steps, droop, margin windows, PLLs, margin re-plans.
-/

namespace Sys2Proof.Machine

/-- Dies whose rail is not confirmed at a rise stay at the old code; VOLT_LATE is raised where it was not yet (R427). -/
def lateDies (s : State) : State × List Nat :=
  let late := (List.range 4).filter (fun d => s.power.late.contains d || s.power.slewing.contains d)
  let new := late.any (fun d => !(s.power.late.contains d))
  (raiseIf new (setPower s { s.power with late := late }) 4 evPowerVoltLate, late)

/-- A group code comes into force: wards of awake dies step, those of late dies keep the old code (R399, R408, R427). -/
def stepFreq (s : State) (code : Nat) : State :=
  let old := fld s 4 fPowerFGroup
  let l := lateDies s
  let s := setFlag (setFld (setPower l.1 { l.1.power with pend := none }) 4 fPowerFGroup code) 4 stPowerFreqPending false
  let s := setDiesFreq s code ((awakeDies s).filter (fun d => !(l.2.contains d)))
  if code = old then s else raise (bump s 4 fPowerFreqStepCount) 4 evPowerFreqStep

/-- FREQ_STEP (R399, R427): at the bell every ward steps to the pending code. -/
def execFreqStep (s : State) : Answer :=
  .next (match s.power.pend with
    | some p => if p.bell ≤ now s then stepFreq s p.code else s
    | none => s)

/-- Take the droop request (R400). -/
def droopTaken (s : State) (w : Nat) : State :=
  if (wardClk s w).droop then s else
  raise (bump (setWardClk s w { wardClk s w with droop := true }) (pgWard w) fWardDroopCount) (pgWard w) evWardDroop

/-- Whether a ward's clock runs. -/
def wardRuns (s : State) (w : Nat) : Bool := dieAwake s (w / 8) && !((wardClk s w).stopped)

/-- DROOP_TRIP (R400): one more period stretched while the supply stays low; without stretching the request at once. -/
def execDroopTrip (w : WardId) (s : State) : Answer :=
  .next (
    if !(wardRuns s w) then s else
    let s := setFlag s (pgWard w) stWardStretching true
    if flag s (pgWard w) fWardStretchEn then
      bump (setWardClk s w { wardClk s w with trips := (wardClk s w).trips + 1 }) (pgWard w) fWardStretchCount
    else droopTaken s w)

/-- DROOP_REQUEST (R400): still tripped after eight consecutive stretched cycles. -/
def execDroopRequest (w : WardId) (s : State) : Answer :=
  .next (if wardRuns s w && decide (8 ≤ (wardClk s w).trips) then droopTaken s w else s)

/-- DROOP_RELEASE (R400): 1 µs above the trip level. -/
def execDroopRelease (w : WardId) (s : State) : Answer :=
  .next (setFlag (setWardClk s w { wardClk s w with trips := 0, droop := false }) (pgWard w) stWardStretching false)

/-- Mark faulty paths of a domain (R405). -/
def setFaulty (s : State) (dom : MarginDomain) (f : BitVec 8) : State :=
  match dom with
  | .ward w => setFld s (pgWard w) fWardPathFaulty f.toNat
  | .fabric d => setClk s { s.clk with fabFaulty := mapPut d f s.clk.fabFaulty }

/-- Count of set bits. -/
def bitCount (f : BitVec 8) : Nat := ((List.range 8).filter (fun i => f.getLsbD i)).length

/-- The readings of a ward's window in its registers: MARGIN_LAST, MARGIN_MIN, WORST_PATH, REPLICA (R414, R416). -/
def showMargin (s : State) (w : Nat) (l : List (Option (BitVec 8))) (faulty : BitVec 8) (best : Nat × Nat) : State :=
  let p := pgWard w
  let rep := (List.range 8).foldl (fun a r =>
    a + (if faulty.getLsbD r then 255 else ((l.getD r none).map (·.toNat)).getD 255) * 256 ^ r) 0
  let s := setFld (setFld s p fWardMarginLast best.1) p fWardWorstPath best.2
  setWide (setFld s p fWardMarginMin (min best.1 (fld s p fWardMarginMin))) p wReplica (BitVec.ofNat 256 rep)

/-- What a low reading does (R405): MARGIN_LOW and a re-plan; below 2 % the ward's request, or the fabric rail's raise. -/
def lowMargin (s : State) (dom : MarginDomain) (x : Nat) : State :=
  let s := noteInput (raise s (domPage dom) evWardMarginLow) 7 1
  let s := if x < 4 then
      (match dom with
        | .ward w => setWardClk s w { wardClk s w with margin := true }
        | .fabric d => setFld s (pgDie d) fWorkerDieFabricRaise (min 10 (fld s (pgDie d) fWorkerDieFabricRaise + 1)))
    else s
  requestReplan s (domDie dom)

/-- A ward's domain has failed: its in-service cores are fenced, cause DOMAIN (R451, R456). -/
def failWardDomain (s : State) (w : Nat) : State := fenceWard s w 6

/-- MARGIN_WINDOW (R405). -/
def execMarginWindow (dom : MarginDomain) (readings : List (Option (BitVec 8))) (s : State) : Answer :=
  .next (
    if !(dieAwake s (domDie dom)) then s else
    let old := domFaulty s dom
    let f := (List.range 8).foldl (fun f r =>
      if !(old.getLsbD r) && pathBad readings old r then f ||| BitVec.ofNat 8 (2 ^ r) else f) old
    let s := if f = old then s else raise (setFaulty s dom f) (domPage dom) evWardSensorFault
    let good := goodReadings readings f
    let s := match good with
      | [] => s
      | g :: l =>
        let best := l.foldl (fun a b => if b.1 < a.1 then b else a) g
        let s := match dom with
          | .ward w => showMargin s w readings f best
          | .fabric _ => s
        if best.1 < fld s (domPage dom) fWardMarginAlarm then lowMargin s dom best.1 else s
    if bitCount f < 4 ∨ 4 ≤ bitCount old then s else
    match dom with
    | .ward w => failWardDomain s w
    | .fabric _ => raise s 6 evHealthDomainFailed)

/-- PLL_LOCK_LOSS (R398, R456): the domain stops. -/
def execPllLockLoss (dom : Fin 74) (s : State) : Answer :=
  let k := dom.val
  .next (
    if k < 32 then
      (if dieAwake s (k / 8) then failWardDomain (setWardClk s k { wardClk s k with stopped := true }) k else s)
    else if k < 36 then
      (if dieAwake s (k - 32) then raise (resetDie s (k - 32)) 6 evHealthDomainFailed else s)
    else if k < 52 then
      (List.range 8).foldl (fun s c => if chanServes s (8 * (k - 36) + c) then failChannel s (8 * (k - 36) + c) else s) s
    else if k < 68 then
      (if dieAwake s ((k - 52) / 4) && decide (portState s (k - 52) ≠ psOff) then
        raise (portDown s (k - 52)) 6 evHealthDomainFailed else s)
    else if k < 73 then raise s 6 evHealthDomainFailed
    else s)

/-- REPLAN_TIMER (R409): REPLAN_DAYS after the last re-plan, or 10 s after power-on or module reset. -/
def execReplanTimer (d : DieId) (s : State) : Answer :=
  .next (
    match mapFind d.val s.clk.started with
    | some t =>
      if now s < t + 10 * 1000000000 then s
      else requestReplan (setClk s { s.clk with started := mapErase d.val s.clk.started }) d
    | none =>
      let days := fld s (pgDie d) fWorkerDieReplanDays
      if days ≠ 0 ∧ mapGet (fun _ => 0) d.val s.clk.lastReplan + days * dayTicks ≤ now s then requestReplan s d else s)

/-- REPLAN_STEP_DONE (R409, R410). -/
def execReplanStepDone (d : DieId) (r : ReplanReading) (s : State) : Answer :=
  .next (match s.clk.run with
    | some x => if x.die = d.val ∧ dieAwake s d then stepReplan s x r else s
    | none => s)

end Sys2Proof.Machine
end

