-- ==== Sys2Proof/Machine/PowerOps.lean ====
section
/-!
DEFINITION. Shared operations of power and cooling (15_power_cooling.md): the limit in force (R422), the cap request (R423), the
allowed frequency (R425), the group frequency (R426), rails (R419 to R421), thermal requests (R436 to R439).
-/

namespace Sys2Proof.Machine

/-! ### The limit in force (R422) -/

/-- Class power by PWR_CLASS (R488). -/
def classWatts (s : State) : Nat := [650, 900, 1100, 1300].getD (fld s 1 fStrapsPwrClass) 650

/-- The inlet term: class less 40 W per °C above 45 °C, an inlet without a reading taken as 45 °C (R422, R433). -/
def inletWatts (s : State) : Nat :=
  match s.therm.inlet with
  | some t => ((classWatts s : Int) - 4 * max 0 (t - 450)).toNat
  | none => classWatts s

/-- The flow term, absent with FLOW_SCALE = 0 (R422, R432). -/
def flowWatts (s : State) : Option Nat :=
  if fld s 1 fStrapsFlowScale = 0 then none
  else if s.therm.flowLost then some 400
  else if fld s 5 fThermalFlow = 0xFFF then some 900
  else some (900 * fld s 5 fThermalFlow / 1000)

/-- The terms of R422 with their LIMITER codes. -/
def limitTerms (s : State) : List (Nat × Nat) :=
  [(0, classWatts s), (1, fld s 4 fPowerBudget)] ++ ((flowWatts s).map (fun w => (2, w))).toList ++ [(3, inletWatts s)]
    ++ (if flag s 4 stPowerPlAsserted then [(4, fld s 4 fPowerPlBudget)] else [])

/-- The least term; the first of equal ones. -/
def limitNow (s : State) : Nat × Nat :=
  (limitTerms s).foldl (fun a t => if t.2 < a.2 then t else a) (0, classWatts s)

/-! ### The allowed frequency and the group (R425, R426) -/

/-- Sum and number of the applied duties of the running wards (R423). -/
def dutySum (s : State) : Nat × Nat :=
  let l := runningWards s
  (l.foldl (fun a w => a + wardDuty s w) 0, l.length)

/-- Dynamic power at the present duty in units of 1/30,000 W: P_in less P_s (R423). -/
def dynPower (s : State) : Int :=
  (fld s 4 fPowerPIn * 30000 : Nat) - (fld s 4 fPowerPStatic * volt40 s (fld s 4 fPowerFGroup) : Nat)

/-- Whether the predicted power at a code does not exceed P_LIM - 25 W (R425). -/
def codeFits (s : State) (c : Nat) : Bool :=
  let f := fld s 4 fPowerFGroup
  let v := volt40 s f
  let vc := volt40 s c
  let d := dutySum s
  let room : Int := ((fld s 4 fPowerPLim : Int) - 25) * 30000 - (fld s 4 fPowerPStatic * vc : Nat)
  if d.1 = 0 ∨ v = 0 then decide (0 ≤ room)
  else decide (dynPower s * 16 * d.2 * ((32 + c) * vc * vc : Nat) ≤ room * (d.1 * (32 + f) * v * v : Nat))

/-- F_ALLOW: the highest code that fits, less the thermal term (R425, R439). -/
def allowedCode (s : State) : Nat :=
  let top := min (fld s 4 fPowerFreqMax) (moduleCeil s)
  (((List.range (top + 1)).reverse.find? (codeFits s)).getD 0) - s.power.lowered

/-- The least F_ALLOW of the group manager and the ACTIVE working ranks it has heard of (R426, log 41). -/
def groupLeast (s : State) : Nat :=
  (workingRanks s).foldl (fun a r =>
    let id := entryId (memberEntry s r)
    if id = moduleId s then a else
    match mapFind id.toNat s.power.allow with
    | some c => min a c
    | none => a) (fld s 4 fPowerFAllow)

/-- Send FREQ_SET to every member with a bell FREQ_LEAD ahead. -/
def setGroupFreq (s : State) (code : Nat) : State :=
  sendFreq s code (now s + 1000 * fld s 4 fPowerFreqLead) (otherMembers s s.net.members)

/-- What the group manager does on a new least value: the first setting and a lowering at once; a raise is timed (R426). -/
def judgeGroup (s : State) : State :=
  if !(holdsRankZero s) then s else
  let least := groupLeast s
  let cur := freqTarget s
  if !(s.power.set) then setGroupFreq s least
  else if least < cur then setGroupFreq s least
  else if cur < least then setPower s { s.power with holdSince := some (s.power.holdSince.getD (now s)) }
  else setPower s { s.power with holdSince := none }

/-- A member's packet to the group manager when F_ALLOW has changed (R426, R428). -/
def reportAllow (s : State) : State :=
  let a := fld s 4 fPowerFAllow
  if !(isMember s) ∨ s.power.sent = some a then s else
  let sub := if s.power.fromCap then 2 else 1
  let s := setPower s { s.power with sent := some a, fromCap := false }
  sendControl s (gmId s) kPower 0 0 (sub + 256 * a) []

/-- Recompute F_ALLOW and act on a change (R425, R426). -/
def updateAllow (s : State) : State :=
  let s := setFld s 4 fPowerFAllow (allowedCode s)
  judgeGroup (reportAllow s)

/-- Recompute P_LIM and LIMITER; a change recomputes F_ALLOW (R422, R425). -/
def updateLimit (s : State) : State :=
  let l := limitNow s
  let old := fld s 4 fPowerPLim
  let s := setFld (setFld s 4 fPowerPLim l.2) 4 fPowerLimiter l.1
  if l.2 = old then s else updateAllow s

/-! ### The cap request (R423) -/

/-- The request in CAP_DUTY, 16 stored as 0; CAPPED, and the events of entry and return. -/
def setCap (s : State) (c : Nat) : State :=
  let old := s.power.cap
  let s := setPower s { s.power with cap := c }
  let s := setFlag (setFld s 4 fPowerCapDuty (c % 16)) 4 stPowerCapped (decide (c < 16))
  if old = 16 ∧ c < 16 then
    let s := raise (bump s 4 fPowerCapCount) 4 evPowerCapLocal
    setPower s { s.power with fromCap := true }
  else if old < 16 ∧ c = 16 then raise s 4 evPowerCapCleared
  else s

/-- The first request: floor(16 · (P_LIM - P_s) / D), 1 to 16. -/
def firstCap (s : State) : Nat :=
  let d := dutySum s
  let room : Int := (fld s 4 fPowerPLim * 30000 : Nat) - (fld s 4 fPowerPStatic * volt40 s (fld s 4 fPowerFGroup) : Nat)
  let dyn := dynPower s * (d.2 : Int)
  if dyn ≤ 0 ∨ room ≤ 0 then 1 else max 1 (min 16 (room * d.1 / dyn).toNat)

/-- One measurement against the limit: the request is set or lowered; time below 0.95 of the limit is noted. -/
def capStep (s : State) : State :=
  let p := fld s 4 fPowerPIn
  let lim := fld s 4 fPowerPLim
  let low := decide (100 * p < 95 * lim)
  let s := setPower s { s.power with below := if low then some (s.power.below.getD (now s)) else none }
  if lim < p then updateAllow (setCap s (if s.power.cap = 16 then firstCap s else max 1 (s.power.cap - 1))) else s

/-! ### Rails (R419 to R421) -/

/-- Phases in service and spare phases of a rail at shipment (R419, R443). -/
def railPhases (r : Nat) : Nat × Nat :=
  if r = 0 then (6, 1) else if r ≤ 4 then (16, 2) else if r ≤ 9 then (4, 1) else if r ≤ 33 then (2, 1) else (1, 1)

/-- A rail. -/
def railOf (s : State) (r : Nat) : Rail := mapGet (fun r => (⟨0, 0, 0, (railPhases r).1, (railPhases r).2⟩ : Rail)) r s.power.rails

/-- Replace a rail. -/
def setRail (s : State) (r : Nat) (x : Rail) : State := setPower s { s.power with rails := mapPut r x s.power.rails }

/-- A phase is shed and a spare asked for (R421, R448). -/
def shedPhase (s : State) (r : Nat) : State :=
  let x := railOf s r
  let s := setRail s r { x with phases := x.phases - 1 }
  let s := noteInput (raise (bump s 4 fPowerPhaseFaultCount) 4 evPowerPhaseFault) 10 1
  if x.spares = 0 then s
  else if s.power.phaseQ.length < 16 then setPower s { s.power with phaseQ := s.power.phaseQ ++ [r] }
  else dropSpare s 8 r

/-- Straps as the pins show them. -/
def liveStraps (s : State) : BitVec 12 := BitVec.ofNat 12 (fld s 1 fStrapsStrapsLive)

/-- A fault of a whole rail (R421). -/
def railFails (s : State) (r : Nat) : State :=
  let s := noteInput (raise s 4 evPowerRailFault) 10 1
  if r = 0 ∨ r = 9 then moduleReset s (liveStraps s) 6
  else if r ≤ 8 then (if dieAwake s ((r - 1) % 4) then resetDie s ((r - 1) % 4) else s)
  else if r ≤ 25 then (List.range 32).foldl (fun s c =>
    if chanServes s (32 * ((r - 10) / 4) + c) then failChannel s (32 * ((r - 10) / 4) + c) else s) s
  else if r ≤ 33 then [0, 1, 2, 3].foldl (fun s p =>
    if portState s (4 * ((r - 26) / 2) + p) = psOff then s else portDown s (4 * ((r - 26) / 2) + p)) s
  else if r ≤ 35 then (List.range 64).foldl (fun s d => if (flashOf s d).failed then s else failFlash s d) s
  else s

/-- The cap request of a VCORE rail on fewer phases that draws more than 90 % of its limit (R421). -/
def railCap (s : State) (r : Nat) : State :=
  if r = 0 ∨ 4 < r then s else
  let x := railOf s r
  let d := r - 1
  let near := decide (x.spares = 0 ∧ x.phases < 16) && decide (9 * Config.railLimit r x.phases < 10 * x.deciamps)
  let c := mapGet (fun _ => 16) d s.power.dieCap
  setPower s { s.power with dieCap := mapSet (fun _ => 16) d (if near then max 1 (c - 1) else min 16 (c + 1)) s.power.dieCap }

/-! ### Thermal requests (R436 to R439) -/

/-- Note since when a request has been at or below 12/16, and since when none is below 16 (R439). -/
def noteDeep (s : State) : State :=
  let l := (awakeDies s).flatMap dieWards
  let deep := l.any (fun w => decide (thermReq s w ≤ 12))
  let clear := l.all (fun w => decide (thermReq s w = 16))
  setPower s { s.power with
    deepSince := if deep then some (s.power.deepSince.getD (now s)) else none,
    clearSince := if clear then some (s.power.clearSince.getD (now s)) else none }

/-- Change thermal requests; wards that enter a request below 16 are counted (R436). -/
def changeReq (s : State) (f : ThermCtl → ThermCtl) : State :=
  let t := setTherm s (f s.therm)
  let n := ((List.range 32).filter (fun w => decide (thermReq s w = 16) && decide (thermReq t w < 16))).length
  let t := bumpBy (raiseIf (decide (0 < n)) t 5 evThermalThrottle) 5 fThermalThrottleCount n
  noteDeep (noteInput t 11 n)

/-- Whether Welea rotation is strapped (R438). -/
def rotationMode (s : State) : Bool := flag s 1 fStrapsThermMode

/-- Lower a ward's request by 1/16. -/
def lowerReq (s : State) (w : Nat) : State :=
  changeReq s (fun t => { t with req := mapSet (fun _ => 16) w (max 1 (mapGet (fun _ => 16) w t.req - 1)) t.req })

/-- Raise a ward's request by 1/16. -/
def raiseReq (s : State) (w : Nat) : State :=
  changeReq s (fun t => { t with req := mapSet (fun _ => 16) w (min 16 (mapGet (fun _ => 16) w t.req + 1)) t.req })

/-- Every ward of a die takes a request of 1/16 (R437). -/
def leastReq (s : State) (d : Nat) : State :=
  changeReq s (fun t => { t with req := (dieWards d).foldl (fun m w => mapPut w 1 m) t.req })

/-- A trip (R437 step 1). -/
def tripDie (s : State) (d : Nat) : State :=
  if (mapFind d s.therm.tripAt).isSome then s else
  let s := noteInput (raise (bump (leastReq s d) 5 fThermalTripCount) 5 evThermalTrip) 12 1
  let recent := (mapGet (fun _ => ([] : List Nat)) d s.therm.trips).filter (fun t => decide (now s ≤ t + 60 * 1000000000))
  setTherm s { s.therm with tripAt := mapPut d (now s) s.therm.tripAt, trips := mapPut d (recent ++ [now s]) s.therm.trips }

/-- DIE_TRIPPED of a die. -/
def setTripped (s : State) (d : Nat) (on : Bool) : State :=
  setFlag s 5 { stThermalDieTripped with lo := stThermalDieTripped.lo + d, width := 1 } on

/-- The die is asleep after a trip; the third of three trips within 60 s holds it (R437). -/
def tripAsleep (s : State) (d : Nat) : State :=
  let n := (mapGet (fun _ => ([] : List Nat)) d s.therm.trips).length
  let s := setTherm s { s.therm with tripAt := mapErase d s.therm.tripAt, sleptAt := mapPut d (now s) s.therm.sleptAt,
                                     held := if 3 ≤ n then s.therm.held ++ [d] else s.therm.held }
  setTripped s d true

/-- A die wakes after a trip, its wards at a request of 1/16 (R437); `lost` names what its restore fails for (R493). -/
def tripWakes (lost : List (Nat × Nat)) (s : State) (d : Nat) : State :=
  let s := setTherm s { s.therm with sleptAt := mapErase d s.therm.sleptAt, held := s.therm.held.filter (· != d) }
  leastReq (wakeDie (setTripped s d false) d lost) d

/-- TRIP_CLEAR has been written: held dies wake, in standby once it has been left (R437, R445). -/
def tripClear (s : State) : State :=
  if modState s = msStandby then setTherm s { s.therm with held := [] } else s.therm.held.foldl (tripWakes []) s

/-- A ward's latest reading judged in native mode (R436). -/
def judgeNative (s : State) (w : Nat) (t : Int) : State :=
  let thr : Int := fld s 5 fThermalTThrottle
  let x := s.therm
  if thr ≤ t then
    let s1 := setTherm s { x with coolSince := mapErase w x.coolSince, hotSince := mapPut w (mapGet (fun _ => now s) w x.hotSince) x.hotSince }
    if mapHas w x.hotSince then s1 else lowerReq s1 w
  else if t < thr - 3 then
    let s1 := setTherm s { x with hotSince := mapErase w x.hotSince, coolSince := mapPut w (mapGet (fun _ => now s) w x.coolSince) x.coolSince }
    if mapHas w x.coolSince then s1 else raiseReq s1 w
  else setTherm s { x with hotSince := mapErase w x.hotSince, coolSince := mapErase w x.coolSince }

/-- Whether a ward of a die reads a level or more. -/
def dieReads (s : State) (d : Nat) (level : Int) : Bool :=
  (dieWards d).any (fun w => match mapFind w s.therm.temps with
    | some t => decide (level ≤ t)
    | none => false)

/-- A ward's latest reading judged in rotation mode (R437, R438). -/
def judgeRotation (s : State) (w : Nat) (t : Int) : State :=
  let thr : Int := fld s 5 fThermalTThrottle
  let d := w / 8
  let x := s.therm
  let wakes := decide (t < thr - 3) && decide (mapGet (fun _ => 16) w x.req < 16)
  let cool := if wakes then mapPut w (mapGet (fun _ => now s) w x.coolSince) x.coolSince else mapErase w x.coolSince
  let s := setTherm s { x with coolSince := cool }
  match mapFind d s.therm.rot with
  | none =>
    if thr ≤ t then changeReq s (fun x => { x with rot := mapPut d ⟨0, now s, 0, true, 0, 0, true, 0⟩ x.rot }) else s
  | some r =>
    setTherm s { s.therm with rot := mapPut d { r with hot := r.hot && dieReads s d thr, warm := r.warm || decide (thr - 3 ≤ t) } s.therm.rot }

/-- The next period of a rotation (R438). -/
def nextPeriod (s : State) (r : Rotation) : Option Rotation :=
  let cool := if r.warm then 0 else r.cool + 1
  if 10 ≤ cool then none else
  let r := { r with pair := (r.pair + 1) % 4, since := r.since + 1000000 * fld s 5 fThermalRotPeriod, period := r.period + 1,
                    warm := false, cool := cool }
  if r.period % 4 ≠ 0 then some r
  else if r.hot then some { r with run := r.run + 1, lowering := if 4 ≤ r.run + 1 then min 12 (r.lowering + 1) else r.lowering }
  else some { r with run := 0, hot := true }

end Sys2Proof.Machine
end

