-- ==== Sys2Proof/Machine/Power.lean ====
section
/-!
DEFINITION. Commands of power, supply and the group frequency (15_power_cooling.md).
-/

namespace Sys2Proof.Machine

/-- PMBUS_POLL (R420, R421). -/
def execPmbusPoll (rail : Fin 38) (t : RailTelemetry) (s : State) : Answer :=
  let r := rail.val
  let s := setRail s r { railOf s r with mv := t.millivolts, deciamps := t.deciamps, temp := t.deciCelsius }
  let s := railCap (if t.phaseFault then shedPhase s r else s) r
  .next (if t.railFault then railFails s r else s)

/-- PHASE_BRING_IN (R421, R448). -/
def execPhaseBringIn (s : State) : Answer :=
  .next (match s.power.phaseQ with
    | [] => s
    | r :: l =>
      let s := setPower s { s.power with phaseQ := l }
      let x := railOf s r
      if x.spares = 0 then logSpare s 8 r 2 else
      let s := spareIn (setRail s r { x with phases := x.phases + 1, spares := x.spares - 1 }) 8 r
      raiseIf (decide (x.spares = 1)) s 6 evHealthSpareExhausted)

/-- Input energy in millijoules, 10 µs of a measured power (R442). -/
def addEnergy (s : State) (watts : Nat) : State :=
  let n := s.power.energyRest + 10 * watts
  let s := setPower s { s.power with energyRest := n % 1000 }
  setWide s 4 wEnergy (wideVal s 4 wEnergy + BitVec.ofNat 256 (n / 1000))

/-- POWER_MEASURE (R422, R423). -/
def execPowerMeasure (watts : Nat) (s : State) : Answer :=
  .next (capStep (updateLimit (setFld (addEnergy s watts) 4 fPowerPIn (min 2047 watts))))

/-- CAP_RAISE (R423): 100 µs below 0.95 of the limit. -/
def execCapRaise (s : State) : Answer :=
  .next (match s.power.below with
    | some t =>
      if s.power.cap < 16 ∧ t + 100000 ≤ now s then
        setCap (setPower s { s.power with below := some (now s) }) (s.power.cap + 1)
      else s
    | none => s)

/-- POWER_LIMIT_ASSERT (R424): ignored while RESET_L is low (R518). -/
def execPowerLimitAssert (s : State) : Answer :=
  .next (
    if s.sys.resetLow || flag s 4 stPowerPlAsserted then s else
    let s := raise (setFlag s 4 stPowerPlAsserted true) 4 evPowerCapLocal
    updateLimit (setPower s { s.power with fromCap := true }))

/-- POWER_LIMIT_RELEASE (R424). -/
def execPowerLimitRelease (s : State) : Answer :=
  .next (if flag s 4 stPowerPlAsserted then updateLimit (setFlag s 4 stPowerPlAsserted false) else s)

/-- F_ALLOW_UPDATE (R425, R426). -/
def execFAllowUpdate (s : State) : Answer := .next (updateAllow s)

/-- A received POWER packet of one subtype; a reserved subtype is bad whichever command brings it (R428). -/
def powerReceive (s : State) (pk : Packet) (sub : Nat) (f : State → State) : State :=
  let x := pk.aux.toNat % 256
  if x = 0 ∨ 3 < x then receive s pk kPower false f
  else if x = sub then receive s pk kPower (decide (pk.len = 0) && decide (pk.aux.toNat < 2 ^ 15)) f
  else s

/-- Code in AUX [14:8]. -/
def packetCode (pk : Packet) : Nat := pk.aux.toNat / 256 % 128

/-- The group manager takes a member's F_ALLOW (R426). -/
def takeAllow (s : State) (pk : Packet) : State :=
  if jstate s = jsManager ∧ (rankOf s pk.src).isSome then
    judgeGroup (setPower s { s.power with allow := mapPut pk.src.toNat (packetCode pk) s.power.allow })
  else s

/-- ALLOW (R426, R428). -/
def execAllow (pk : Packet) (s : State) : Answer := .next (powerReceive s pk 1 (fun s => takeAllow s pk))

/-- CAP (R426, R428). -/
def execCap (pk : Packet) (s : State) : Answer := .next (powerReceive s pk 2 (fun s => takeAllow s pk))

/-- FREQ_RAISE_HOLD (R426): the least value has stayed above the code for FREQ_HOLD. -/
def execFreqRaiseHold (s : State) : Answer :=
  .next (match s.power.holdSince with
    | some t =>
      if holdsRankZero s && s.power.set && decide (freqTarget s < groupLeast s)
          && decide (t + 10000000 * fld s 4 fPowerFreqHold ≤ now s) then setGroupFreq s (groupLeast s) else s
    | none => s)

/-- Whether a FREQ_SET may replace what is pending (R427). -/
def freqNewer (s : State) (seq : BitVec 16) : Bool :=
  match s.power.pend with
  | some p => decide (p.seq.toNat < seq.toNat)
  | none => true

/-- FREQ_SET (R427): accepted from GM_ID only; a bell that has passed applies at once. -/
def execFreqSet (pk : Packet) (s : State) : Answer :=
  .next (powerReceive s pk 3 (fun s =>
    if !(isMember s) || pk.src != gmId s || !(freqNewer s pk.ctx) then s else
    let s := keepFreq s ⟨packetCode pk, pk.addr.toNat, pk.ctx⟩
    if pk.addr.toNat < now s then raise (stepFreq s (packetCode pk)) 4 evPowerFreqLate else s))

/-- VOLT_LATE (R427): not confirmed 100 µs before the bell. -/
def execVoltLate (d : DieId) (s : State) : Answer :=
  .next (match s.power.pend with
    | some p =>
      if s.power.slewing.contains d.val && !(s.power.late.contains d.val) && decide (p.bell ≤ now s + 100000) then
        raise (setPower s { s.power with late := s.power.late ++ [d.val] }) 4 evPowerVoltLate
      else s
    | none => s)

/-- RAIL_CONFIRMED (R427): a die held at the old code steps, once the bell has passed. -/
def execRailConfirmed (d : DieId) (s : State) : Answer :=
  .next (
    if !(s.power.slewing.contains d.val) then s else
    let late := s.power.late.contains d.val
    let s := setPower s { s.power with slewing := s.power.slewing.filter (· != d.val), late := s.power.late.filter (· != d.val) }
    if late && s.power.pend.isNone then setDiesFreq s (fld s 4 fPowerFGroup) [d.val] else s)

/-- LAST_DIP (R442). -/
def showDip (s : State) (crossed low us : Nat) : State :=
  setWide s 4 wLastDip (wideOf [crossed % 2 ^ 32, crossed / 2 ^ 32, low, us])

/-- SUPPLY_DIP (R430): the input falls below 42 V. -/
def execSupplyDip (decivolts : Nat) (s : State) : Answer :=
  .next (
    if 420 ≤ decivolts then s else
    let low := if flag s 4 stPowerWarnActive then min s.power.dipLow decivolts else decivolts
    let start := if flag s 4 stPowerWarnActive then s.power.dipStart.getD (now s) else now s
    let s := setPower s { s.power with dipStart := some start, dipLow := low }
    let s := showDip (setFld (setFlag s 4 stPowerWarnActive true) 4 fPowerVIn decivolts) (now s) low ((now s - start) / 1000)
    noteInput (raise (bump s 4 fPowerSupplyWarnCount) 4 evPowerSupplyWarn) 9 1)

/-- SUPPLY_RESET (R430, R431): below 36 V the module is held in reset. -/
def execSupplyReset (s : State) : Answer :=
  .next (
    let dip := s.power.dipStart
    let low := s.power.dipLow
    let s := moduleReset { s with sys := { s.sys with supplyLow := true } } (liveStraps s) 3
    setFlag (setPower s { s.power with dipStart := some (dip.getD (now s)), dipLow := low }) 4 stPowerWarnActive true)

/-- SUPPLY_RECOVER (R431): 1 ms above 44 V ends the warning, and a reset at 36 V goes on. -/
def execSupplyRecover (s : State) : Answer :=
  .next (
    let v := wideVal s 4 wLastDip
    let crossed := wideWord v 0 + 2 ^ 32 * wideWord v 1
    if !(flag s 4 stPowerWarnActive) ∨ now s < crossed + 1000000 then s else
    let start := s.power.dipStart.getD crossed
    let s := showDip s crossed (wideWord v 2) ((now s - start) / 1000)
    let s := raise (setFlag (setPower s { s.power with dipStart := none }) 4 stPowerWarnActive false) 4 evPowerSupplyOk
    if !(s.sys.supplyLow) then s else
    let s := { s with sys := { s.sys with supplyLow := false } }
    if s.sys.resetLow then s else startModule s (liveStraps s))

/-- SUPPLY_HIGH (R431). -/
def execSupplyHigh (decivolts : Nat) (s : State) : Answer :=
  .next (if decivolts ≤ 600 then s else raise (setFld s 4 fPowerVIn (min 1023 decivolts)) 4 evPowerSupplyHigh)

end Sys2Proof.Machine
end

