-- ==== Sys2Proof/Machine/Thermal.lean ====
section
/-!
DEFINITION. Commands of coolant and junction temperatures (15_power_cooling.md).
-/

namespace Sys2Proof.Machine

/-- A reading as T_IN and T_OUT show it: signed, 0x8000 where there is none (R433, R445). -/
def thermWord : Option Int → Nat
  | none => 0x8000
  | some t => (t % 65536).toNat

/-- The temperature of a conversion. -/
def thermValue : ThermReading → Option Int
  | .fault => none
  | .tenths t => some t

/-- THERMISTOR_READ (R432, R433). -/
def execThermistorRead (inlet outlet : ThermReading) (s : State) : Answer :=
  .next (
    let i := thermValue inlet
    let o := thermValue outlet
    let fault := i.isNone || o.isNone
    let high := i.any (fun t => decide (450 < t))
    let low := i.any (fun t => decide (t < 150))
    let out := o.any (fun t => decide (650 < t))
    let hot := i.any (fun t => decide (550 ≤ t))
    let x := s.therm
    let s := setFld (setFld s 5 fThermalTIn (thermWord i)) 5 fThermalTOut (thermWord o)
    let s := setTherm s { x with inlet := i, outlet := o, inletHigh := high, inletLow := low, outletHigh := out, sensorFault := fault,
                                 hotInlet := if hot then some (x.hotInlet.getD (now s)) else none }
    let s := raiseIf fault s 5 evThermalSensorOpen
    let s := raiseIf (high && !x.inletHigh) s 5 evThermalInletHigh
    let s := raiseIf (low && !x.inletLow) s 5 evThermalInletLow
    updateLimit (raiseIf (out && !x.outletHigh) s 5 evThermalOutletHigh))

/-- Pulses per litre of FLOW_SCALE (R434). -/
def pulsesPerLitre (s : State) : Nat := [0, 500, 1000, 4000].getD (fld s 1 fStrapsFlowScale) 0

/-- Enter FLOW_LOST (R432). -/
def loseFlow (s : State) : State :=
  if s.therm.flowLost then s else raise (setTherm s { s.therm with flowLost := true }) 5 evThermalFlowLost

/-- A flow in mL/min judged by R432. -/
def takeFlow (s : State) (f : Nat) : State :=
  let s := setFld s 5 fThermalFlow (min 4094 f)
  let x := s.therm
  let low := decide (f < 1000)
  let s := setTherm s { x with lowFlow := if low then some (x.lowFlow.getD (now s)) else none,
                               goodFlow := if low then none else some (x.goodFlow.getD (now s)),
                               flowLow := x.flowLow && low }
  updateLimit (if f < 500 then loseFlow s else s)

/-- FLOW_AVERAGE (R434): pulses of FLOW_IN over one second. -/
def execFlowAverage (milliHz : Nat) (s : State) : Answer :=
  .next (if pulsesPerLitre s = 0 then s else takeFlow s (60 * milliHz / pulsesPerLitre s))

/-- FLOW_PULSE_TIMEOUT (R432): no pulse for 2 s. -/
def execFlowPulseTimeout (s : State) : Answer :=
  .next (if pulsesPerLitre s = 0 then s else takeFlow s 0)

/-- FLOW_LOW_TIMEOUT (R432): below 1.0 L/min for 5 s. -/
def execFlowLowTimeout (s : State) : Answer :=
  .next (match s.therm.lowFlow with
    | some t =>
      if t + 5000000000 ≤ now s ∧ !(s.therm.flowLow) then raise (setTherm s { s.therm with flowLow := true }) 5 evThermalFlowLow else s
    | none => s)

/-- FLOW_RESTORED (R432): at or above 1.0 L/min for 10 s. -/
def execFlowRestored (s : State) : Answer :=
  .next (match s.therm.goodFlow with
    | some t =>
      if s.therm.flowLost ∧ t + 10000000000 ≤ now s then updateLimit (setTherm s { s.therm with flowLost := false }) else s
    | none => s)

/-- INLET_HOT_TIMEOUT (R432): 55 °C or above for 10 s. -/
def execInletHotTimeout (s : State) : Answer :=
  .next (match s.therm.hotInlet with
    | some t => if t + 10000000000 ≤ now s then autoStandby s else s
    | none => s)

/-- MANAGER_DIE_TRIP (R437). -/
def execManagerDieTrip (celsius : Int) (s : State) : Answer := .next (if 105 ≤ celsius then autoStandby s else s)

/-- HEAT_BALANCE_CHECK (R435): `watts` is P_in averaged over the window. A window without a check ends the count. -/
def execHeatBalanceCheck (watts : Nat) (s : State) : Answer :=
  .next (match s.therm.inlet, s.therm.outlet with
    | some i, some o =>
      if !(flag s 5 fThermalHbEn) || decide (pulsesPerLitre s = 0) || decide (fld s 5 fThermalFlow = 0xFFF) then
        setTherm s { s.therm with imbalance := 0 } else
      let k : Int := if flag s 5 fThermalCoolant then 398 else 418
      let q := k * fld s 5 fThermalFlow * (o - i)
      let s := setFld s 5 fThermalQCool (min 2047 (q / 60000).toNat)
      if 900000 * (watts : Int) + 180000000 < ((100 * q - 5520000 * watts).natAbs : Int) then
        (if s.therm.imbalance < 2 then setTherm s { s.therm with imbalance := s.therm.imbalance + 1 } else
          noteInput (raise (bump (setTherm s { s.therm with imbalance := 0 }) 5 fThermalImbalanceCount) 5 evThermalHeatImbalance) 13 1)
      else setTherm s { s.therm with imbalance := 0 }
    | _, _ => setTherm s { s.therm with imbalance := 0 })

/-- The hottest of a ward's sensors. -/
def hottest : List Int → Option Int
  | [] => none
  | t :: l => some (l.foldl max t)

/-- SENSOR_PASS (R436 to R438); from a trip until its die sleeps the requests stay at 1/16 (R437). -/
def execSensorPass (w : WardId) (temps : List Int) (s : State) : Answer :=
  .next (match hottest temps with
    | none => s
    | some t =>
      if !(dieAwake s (w / 8)) then s else
      let s := setTherm s { s.therm with temps := mapPut w t s.therm.temps }
      let s := if mapHas (w.val / 8) s.therm.tripAt then s
        else if rotationMode s then judgeRotation s w t else judgeNative s w t
      if 105 ≤ t then tripDie s (w / 8) else noteDeep s)

/-- THERMAL_LOWER (R436): a further 100 µs at or above T_THROTTLE. -/
def execThermalLower (w : WardId) (s : State) : Answer :=
  .next (match mapFind w.val s.therm.hotSince with
    | some t =>
      if t + 100000 ≤ now s ∧ !(rotationMode s) then
        lowerReq (setTherm s { s.therm with hotSince := mapPut w (t + 100000) s.therm.hotSince }) w
      else s
    | none => s)

/-- THERMAL_RAISE (R436, R437): a further 1 ms below T_THROTTLE - 3 °C. -/
def execThermalRaise (w : WardId) (s : State) : Answer :=
  .next (match mapFind w.val s.therm.coolSince with
    | some t =>
      if t + 1000000 ≤ now s && !(mapHas (w.val / 8) s.therm.tripAt) then
        raiseReq (setTherm s { s.therm with coolSince := mapPut w (t + 1000000) s.therm.coolSince }) w
      else s
    | none => s)

/-- TRIP_SLEEP (R437 step 2). -/
def execTripSleep (d : DieId) (s : State) : Answer :=
  .next (if mapHas d.val s.therm.tripAt && dieAwake s d then tripAsleep (sleepDie s d false) d else s)

/-- TRIP_WAKE (R437 step 3): 1 s after the sleep, unless the die is held; `lost` names what the restore fails for (R493). -/
def execTripWake (d : DieId) (lost : List (Nat × Nat)) (s : State) : Answer :=
  .next (match mapFind d.val s.therm.sleptAt with
    | some t =>
      if t + 1000000000 ≤ now s && !(s.therm.held.contains d.val) && decide (modState s ≠ msStandby) then tripWakes lost s d else s
    | none => s)

/-- BACKSTOP_CUT (R437): at 110 °C, or not asleep within 10 ms of the trip; the die is then as after a die reset. -/
def execBackstopCut (d : DieId) (hot : Bool) (s : State) : Answer :=
  .next (
    let late := match mapFind d.val s.therm.tripAt with
      | some t => decide (t + 10000000 ≤ now s)
      | none => false
    if !(dieAwake s d) || !(hot || late) then s else
    let s := abortReplan (clearDie (tripDie s d) d) d
    noteCores (tripAsleep (setPowerBits s d false true) d) false)

/-- ROTATION_ADVANCE (R438). -/
def execRotationAdvance (d : DieId) (s : State) : Answer :=
  .next (match mapFind d.val s.therm.rot with
    | some r =>
      if r.since + 1000000 * fld s 5 fThermalRotPeriod ≤ now s then
        changeReq s (fun t => { t with rot := match nextPeriod s r with
          | some r => mapPut d r t.rot
          | none => mapErase d t.rot })
      else s
    | none => s)

/-- THERMAL_F_LOWER (R439): no code is lowered below 0. -/
def execThermalFLower (s : State) : Answer :=
  .next (match s.power.deepSince with
    | some t =>
      if t + 100000000 ≤ now s then
        updateAllow (setPower s { s.power with deepSince := some (t + 100000000),
                                               lowered := s.power.lowered + (if fld s 4 fPowerFAllow = 0 then 0 else 1) })
      else s
    | none => s)

/-- THERMAL_F_RETURN (R439). -/
def execThermalFReturn (s : State) : Answer :=
  .next (match s.power.clearSince with
    | some t =>
      if t + 1000000000 ≤ now s ∧ 0 < s.power.lowered then
        updateAllow (setPower s { s.power with clearSince := some (t + 1000000000), lowered := s.power.lowered - 1 })
      else s
    | none => s)

end Sys2Proof.Machine
end

