-- ==== Sys2Proof/Machine/Present.lean ====
section
/-!
DEFINITION. What registers and mailbox values present when they are read: the stored words, with the RO fields that show
other state of the module laid over them (R7, R43, R47).
-/

namespace Sys2Proof.Machine

/-- Lay field values over a word. -/
def layFields (w : Nat) (l : List (FieldDef × Nat)) : Nat := l.foldl (fun w e => insertBits w e.1.lo e.1.width e.2) w

/-- One as a field value. -/
def bit01 (b : Bool) : Nat := if b then 1 else 0

/-- A mask of the indices below n that satisfy p. -/
def bitMask (n : Nat) (p : Nat → Bool) : Nat := (List.range n).foldl (fun a i => if p i then a + 2 ^ i else a) 0

/-- Whether a port retrains: from RETRAIN until it is ACTIVE again or leaves training (R262). -/
def portRetraining (s : State) (p : Nat) : Bool :=
  (portOf s p).keepSeq && decide (portState s p ≠ psActive) && decide (portState s p ≠ psDown) && decide (portState s p ≠ psOff)

/-- Whether an action of a block that takes time runs (R43). -/
def actionRuns (s : State) (b : Block) (page : Nat) : Bool :=
  match b with
  | .core => !((coreOf s (page - 0x100)).invWait.isEmpty)
  | .port => portRetraining s (page - 0x20) || !((portOf s (page - 0x20)).replanLanes.isEmpty)
  | .workerDie => replanTaken s (page - 0x60)
  | .membership => decide (jstate s = jsJoining)
  | .store1 => s.store.asked
  | .store2 => flag s 0xA stStore2Restoring
  | .store3 => s.store.xfer.isSome
  | _ => false

/-- READY (R43): the block accepts configuration and work. Always-on blocks do while they have power; the others not while the
module is held in reset; those of a worker die once the start-up has ended; a core only in service (log 71). -/
def blockReady (s : State) (page : Nat) : Bool :=
  match pageBlock page with
  | none => false
  | some b => match b, pageDie b page with
    | .straps, _ => true
    | .security, _ => true
    | .power, _ => true
    | .thermal, _ => true
    | .core, _ => pageServed s page && decide (modState s ≠ msBooting) && decide (modState s ≠ msReset)
        && decide (coreState s (page - 0x100) = 0)
    | _, none => decide (modState s ≠ msReset)
    | _, some _ => pageServed s page && decide (modState s ≠ msBooting) && decide (modState s ≠ msReset)

/-- Whether any bring-in request waits (R465). -/
def anyQueued (s : State) : Bool :=
  let h := s.health
  !(h.coreQ.isEmpty) || !(h.mgrQ.isEmpty) || !(h.rowQ.isEmpty) || !(s.mem.queue.isEmpty) || !(s.net.laneQ.isEmpty)
    || !(s.power.phaseQ.isEmpty)

/-- The hottestWard ward: its temperature and the lowest-numbered ward that has it; none before any reading (R445). -/
def hottestWard (s : State) : Option (Int × Nat) :=
  ((s.therm.temps.filter (fun e => dieAwake s (e.1 / 8))).foldl (fun (a : Option (Int × Nat)) (e : Nat × Int) =>
    match a with
    | none => some (e.2, e.1)
    | some b => if b.1 < e.2 then some (e.2, e.1) else a) none)

/-- A temperature as a byte. -/
def tempByte (t : Int) : Nat := (min 254 (max 0 t)).toNat

/-- Whether a ward is within 200 ns of a ramp time that has not passed (R402). -/
def bellGuard (s : State) (w : Nat) : Bool :=
  (dispOf s (w / 8)).store.any (fun e => match e.bell with
    | .at t l k => !(e.rung.getLsbD (w % 8)) && decide (rampTime t l k (w / 8) (w % 8) ≤ wardTime s w + 200)
    | .barrier _ => false)

/-- The phase of an update unit (R361): 0 none, 1 PREPARE, 2 COMMIT, 3 HELD. -/
def updPhase (s : State) (d : Nat) : Nat :=
  match (updOf s d).run with
  | none => 0
  | some x => if x.held then 3 else if x.phase = .prepare then 1 else 2

/-- The RO fields that show state kept elsewhere, per block and offset. -/
def liveFields (s : State) (b : Block) (page off : Nat) : List (FieldDef × Nat) :=
  let common := if off = 0x20 then [(stCommonReady, bit01 (blockReady s page)), (stCommonAction, bit01 (actionRuns s b page))] else []
  common ++ (match b, off with
  | .core, 0x20 =>
    let g := page - 0x100
    let c := coreOf s g
    let waits := match c.tile with
      | some t => decide (t.wait ≠ .none)
      | none => false
    let loads := match c.tile with
      | some t => decide (t.phase = .loading)
      | none => false
    [(stCoreRun, bit01 c.tile.isSome), (stCoreWait, bit01 waits), (stCoreLoading, bit01 loads),
     (stCoreSpare, bit01 (decide (coreState s g = 1 ∨ coreState s g = 2))), (stCoreFenced, bit01 (decide (coreState s g = 3)))]
  | .core, 0x100 =>
    let c := coreOf s (page - 0x100)
    match c.tile with
    | some t => [(fCorePc, t.ctx.pc), (fCoreLoopDepth, t.ctx.loops.length), (fCoreCallDepth, t.ctx.calls.length),
                 (fCoreAsync, c.asyncs.length)]
    | none => []
  | .core, 0x104 => match (coreOf s (page - 0x100)).tile with
    | some t => [(fCoreTaskRef, t.task.ref.toNat)]
    | none => []
  | .core, 0x10C =>
    let l := (coreOf s (page - 0x100)).staging
    [(fCoreStaged, (l.filter (fun e => !e.suspended)).length), (fCoreSuspStaged, (l.filter (·.suspended)).length)]
  | .core, 0x204 =>
    let c := coreOf s (page - 0x100)
    let on (st : PassState → Bool) (a : Nat) : Bool := c.passes.any (fun p => st p.st && (p.desc.wide || decide (p.desc.array = a)))
    let act (st : PassState) : Bool := decide (st = .running) || decide (st = .draining)
    [(fCoreBusy, bitMask 4 (on act)), (fCoreQueued, bitMask 4 (on (fun st => decide (st = .queued)))),
     (fCoreWide, bit01 (c.passes.any (fun p => p.desc.wide && decide (p.st ≠ .withdrawn)))),
     (fCoreSuspended, bit01 c.shadow.isSome)]
  | .core, 0x208 =>
    let c := coreOf s (page - 0x100)
    (match c.tile with
      | some t => [(fCoreBase, t.accBase), (fCoreSlots, t.task.slots)]
      | none => [(fCoreBase, 0), (fCoreSlots, 64)])
      ++ [(fCoreSuspSlots, (c.shadow.map (fun t => t.task.slots)).getD 0)]
  | .dispatcher, 0x20 =>
    let x := dispOf s (page - 0x68)
    [(stDispatcherEnabled, fld s page fDispatcherEnable), (stDispatcherPending, bit01 (bellPending s (page - 0x68))),
     (stDispatcherStoreFull, bit01 (decide (storeFree x = 0)))]
  | .dispatcher, 0x118 =>
    let x := dispOf s (page - 0x68)
    [(fDispatcherStoreFree, storeFree x), (fDispatcherWatchFree, 64 - x.watches.length)]
  | .interleave, 0x20 => [(stInterleaveQueueDepth, s.mem.queue.length), (stInterleaveRetireBusy, bit01 (!s.mem.retireQ.isEmpty))]
  | .memCtl, 0x20 =>
    let p := page - 0x40
    [(stMemCtlChUp, bitMask 8 (fun k => chanServes s (8 * p + k))), (stMemCtlChFailed, bitMask 8 (fun k => (chanOf s (8 * p + k)).failed)),
     (stMemCtlRemapActive, bit01 (s.mem.retireQ.any (fun e => decide (e.1 / 8 = p)))),
     (stMemCtlScrubActive, bit01 (flag s page fMemCtlScrubEn && (List.range 8).any (fun k => chanServes s (8 * p + k))))]
  | .memCtl, _ =>
    if 0x140 ≤ off ∧ off < 0x160 then
      let c := chanOf s (8 * (page - 0x40) + (off - 0x140) / 4)
      [(fMemCtlPoolFree0, 4096 - c.poolUsed.length), (fMemCtlRemapUsed0, c.remap.length)]
    else []
  | .port, 0x20 =>
    let p := page - 0x20
    let x := portOf s p
    let run := match s.net.laneRun with
      | some r => decide (r.port = p)
      | none => false
    let width (m : List Nat) : Nat := if x.mapped then m.length else 0
    [(stPortTxWidth, width x.txMap), (stPortRxWidth, width x.rxMap), (stPortSwapActive, bit01 run),
     (stPortSwapQueued, bit01 (s.net.laneQ.any (fun r => decide (r.port = p)))), (stPortReplanning, bit01 (!x.replanLanes.isEmpty))]
  | .port, 0x110 => (List.range 8).map (fun k => ({ fPortTxMap0 with lo := 4 * k }, (portOf s (page - 0x20)).txMap.getD k 0xF))
  | .port, 0x114 => (List.range 8).map (fun k => ({ fPortRxMap0 with lo := 4 * k }, (portOf s (page - 0x20)).rxMap.getD k 0xF))
  | .transport, 0x20 =>
    let l := s.net.colls.filter (·.running)
    [(stTransportCollRunning, bit01 (!l.isEmpty)), (stTransportExchRunning, bit01 (l.any (fun c => c.xblk.isSome)))]
  | .workerDie, 0x1C8 => [(fWorkerDieLedgerFree, 64 - (ledgersOf s (page - 0x60)).length)]
  | .workerDie, 0x248 => [(fWorkerDieDieCeil, dieCeil s (page - 0x60))]
  | .update, 0x20 =>
    let d := page - 0x64
    let waits := match (updOf s d).run with
      | some x => x.waiting.isSome
      | none => false
    [(stUpdateRunning, bit01 (decide (updPhase s d ≠ 0))), (stUpdatePhase, updPhase s d), (stUpdateOwedWaiting, bit01 waits)]
  | .ward, 0x20 =>
    let w := page - 0x70
    [(stWardDuty, wardDuty s w), (stWardSkipSrc, skipSrc s w), (stWardBellGuard, bit01 (bellGuard s w))]
  | .thermal, 0x20 =>
    [(stThermalDieThrottled, bitMask 4 (fun d => (List.range 8).any (fun w => decide (thermReq s (8 * d + w) < 16)))),
     (stThermalRotation, bit01 (flag s 1 fStrapsThermMode))]
  | .thermal, 0x10C => match hottestWard s with
    | some h => [(fThermalTMax, tempByte h.1), (fThermalHotWard, h.2)]
    | none => [(fThermalTMax, 0xFF), (fThermalHotWard, 0)]
  | .health, 0x20 =>
    [(stHealthQueued, bit01 (anyQueued s))]
  | .security, 0x100 => [(fSecurityPresenceLeft, presenceLeft s)]
  | .mgmtSession, 0x20 => [(stMgmtSessionSession, bit01 s.mgmt.session.isSome)]
  | .store3, 0x20 => [(stStore3Transfer, bit01 s.store.xfer.isSome)]
  | _, _ => [])

/-- A register word as the block presents it: EVENT_PEEK copies EVENT (R44). -/
def presentWord (s : State) (b : Block) (page off : Nat) : Nat :=
  let o := if off = 0x2C then 0x24 else off
  layFields (regWord s page o).toNat (liveFields s b page o)

/-! ### Mailbox values -/

/-- Two words of a 64-bit value. -/
def two (n : Nat) : List Nat := [n % 2 ^ 32, n / 2 ^ 32 % 2 ^ 32]

/-- The decoding that ADDR_PROBE shows (R215, R217, R235, R248). -/
def probeWide (s : State) (a : Nat) : Wide :=
  match locate s a with
  | none => wideOf (two a)
  | some l =>
    if !(backed s l) ∨ (chanOf s l.chan).failed then wideOf (two a) else
    wideOf (two a ++ [l.chan + l.gran * 2 ^ 7 + l.word * 2 ^ 10 + l.byte * 2 ^ 16 + 2 ^ 19,
                      l.slot + (rowOf l.chan l.slot 0).bank * 2 ^ 22])

/-- The remap entry that ENTRY and CHANNEL select (R246). -/
def remapWide (s : State) (page : Nat) : Wide :=
  match mapFind (fld s page fMemCtlEntry) (chanOf s (8 * (page - 0x40) + fld s page fMemCtlChannel)).remap with
  | none => 0
  | some e => wideOf [e.bank + e.failed * 2 ^ 4 + e.depth * 2 ^ 23, e.spare, if e.depth < 2 then 0 else e.dead, 0]

/-- Spares left, requests queued and whether a bring-in runs, of a class of R449 (R467). -/
def spareClass (s : State) (c : Nat) : Nat × Nat × Bool :=
  let h := s.health
  let rows (oc : Nat) : Nat := (h.rowUsed.filter (fun e => e.1 / 64 % 2 == oc)).foldl (fun n e => n + e.2) 0
  match c with
  | 0 => (sparesLeft s, h.coreQ.length, h.coreRun.isSome)
  | 1 => (fld s 6 fHealthMgrSpares, h.mgrQ.length, false)
  | 2 => (1216 * 192 - rows 1, (h.rowQ.filter (·.oc)).length, false)
  | 3 => (1216 * 32 - rows 0, (h.rowQ.filter (fun r => !r.oc)).length, false)
  | 4 => (s.mem.chans.foldl (fun n e => n - e.2.sparesTaken.foldl (fun k x => k + x.2) 0) (128 * 16 * 2), s.mem.queue.length, false)
  | 5 => (s.mem.chans.foldl (fun n e => n - e.2.poolUsed.length) (128 * 4096), s.mem.queue.length, !s.mem.retireQ.isEmpty)
  | 6 => ((liveDies s).foldl (fun n d => n + freeSpares (flashOf s d)) 0, 0, false)
  | 7 => (((List.range 16).filter (fun p => (bestSpare s p).isSome)).length, s.net.laneQ.length, s.net.laneRun.isSome)
  | 8 => ((List.range 38).foldl (fun n r => n + (railOf s r).spares) 0, s.power.phaseQ.length, false)
  | _ => ((standbyRanks s).length, (s.store.lost.filter (fun l => l.holder == 0)).length, flag s 0xA stStore2Reprotecting)

/-- Default weights of the inputs (R457). -/
def riskWeights : List Nat := [1, 256, 4096, 16, 4096, 1024, 512, 2048, 4096, 16384, 4096, 64, 32768, 2048, 256, 8192, 512]
/-- Weight of an input. -/
def riskWeight (s : State) (i : Nat) : Nat := mapGet (fun i => riskWeights.getD i 0) i s.health.weights

/-- Erase counts of the user blocks of live dies: sum, number, highest and lowest. -/
def wearOf (s : State) : Nat × Nat × Nat × Nat :=
  (liveDies s).foldl (fun a d =>
    let f := flashOf s d
    (usableBlocks f).foldl (fun (a : Nat × Nat × Nat × Nat) b =>
      let n := erasesOf f b
      (a.1 + n, a.2.1 + 1, max a.2.2.1 n, if a.2.1 = 0 then n else min a.2.2.2 n)) a) (0, 0, 0, 0)

/-- The session that PEER shows (R499). -/
def peerWide (s : State) : Wide :=
  match s.mgmt.session with
  | none => 0
  | some x => BitVec.ofNat 256 (x.peer.ip.toNat + x.peer.port.toNat * 2 ^ 128 + x.id.toNat * 2 ^ 160)

/-- Downtime with the interval that runs (R464, R467). -/
def downWide (s : State) : Wide :=
  let h := s.health
  let n := match h.downSince with
    | some t => now s - t
    | none => 0
  wideOf (two (if h.downExcl then h.downTicks else h.downTicks + n) ++ two (if h.downExcl then h.exclTicks + n else h.exclTicks)
    ++ two (h.poweredTicks + (now s - h.poweredSince)))

/-- A mailbox value as the block presents it. -/
def presentWide (s : State) (b : Block) (page : Nat) (d : WideDef) : Wide :=
  match b with
  | .timeBase => if d.vid = wTime.vid then s.time.setWidth 256 else wideVal s page d
  | .core =>
    let c := coreOf s (page - 0x100)
    if d.vid = wAccSlotValid.vid then
      BitVec.ofNat 256 (bitMask 256 (fun i => c.acc.any (fun e => decide (e.1 / 32 = i))))
    else if d.vid = wCodeImage.vid then match c.image with
      | some i => if c.flush && c.tile.isNone then 0 else wideOf (two i.addr ++ [i.tag.toNat, i.words.length])
      | none => 0
    else wideVal s page d
  | .dispatcher =>
    let k := page - 0x68
    let x := dispOf s k
    if d.vid = wFailHead.vid then match x.failures with
      | f :: _ => failureWide f
      | [] => 0
    else if d.vid = wQueueDepths.vid then
      wideOf ((List.range 8).map (fun p => (x.store.filter (fun e => e.task.prio == p && e.core.isNone)).length))
    else if d.vid = wNextBell.vid then wideOf (two (nextBell s k))
    else wideVal s page d
  | .memCtl => if d.vid = wRemapEntry.vid then remapWide s page else wideVal s page d
  | .interleave => if d.vid = wAddrProbe.vid then probeWide s ((wideVal s page d).toNat % 2 ^ 64) else wideVal s page d
  | .transport =>
    if d.vid = wRoute.vid then wideOf [s.net.routeSel, (routeEntry s (BitVec.ofNat 16 s.net.routeSel)).toNat]
    else if d.vid = wCollSlots.vid then
      let armed := s.net.colls.filter (fun c => !c.running)
      wideOf [armed.length + (s.net.colls.filter (·.running)).length * 2 ^ 16,
              match armed with
              | c :: _ => c.desc.id.toNat
              | [] => 0]
    else wideVal s page d
  | .membership =>
    if d.vid = wMemberEntry.vid then wideOf [s.net.memberSel, (memberEntry s s.net.memberSel).toNat] else wideVal s page d
  | .update =>
    let u := updOf s (page - 0x64)
    if d.vid = wUpdCur.vid then match u.run with
      | some x => wideOf [x.desc.id.toNat, updPhase s (page - 0x64), x.next + x.total * 2 ^ 16, u.seq.toNat]
      | none => wideOf [0, 0, 0, u.seq.toNat]
    else if d.vid = wArmed.vid then
      wideOf [u.armed.length, match u.armed with
        | x :: _ => x.id.toNat
        | [] => 0]
    else wideVal s page d
  | .store0 =>
    let held := s.store.units.length
    if d.vid = wStoreSpace.vid then
      wideOf (two ((liveDies s).foldl (fun n k => n + 12 * (usableBlocks (flashOf s k)).length) 0 * unitSize)
        ++ two (freeSlots s * unitSize) ++ two (held * unitSize))
    else if d.vid = wWear.vid then
      let w := wearOf s
      wideOf [if w.2.1 = 0 then 0 else w.1 / w.2.1, w.2.2.1, w.2.2.2, s.store.worn]
    else wideVal s page d
  | .store1 =>
    if d.vid = wClutchDir.vid then
      let c := clutchOf s s.store.dirSel
      wideOf ([s.store.dirSel, c.st + c.k * 2 ^ 8 + c.reason * 2 ^ 12 + c.n * 2 ^ 16, c.step, c.epoch + c.g * 2 ^ 16]
        ++ two c.bell ++ [c.own, c.parity])
    else wideVal s page d
  | .power =>
    if d.vid = wRail.vid then
      let r := railOf s s.power.railSel
      wideOf [s.power.railSel, r.mv, r.deciamps, r.temp.toNat + r.phases * 2 ^ 16 + r.spares * 2 ^ 24]
    else wideVal s page d
  | .thermal =>
    let bytes (f : Nat → Nat) : Wide := BitVec.ofNat 256 ((List.range 32).foldl (fun a w => a + f w % 256 * 2 ^ (8 * w)) 0)
    if d.vid = wWardTemps.vid then
      bytes (fun w => if !(dieAwake s (w / 8)) then 0xFF else match mapFind w s.therm.temps with
        | some t => tempByte t
        | none => 0xFF)
    else if d.vid = wThermReq.vid then bytes (thermReq s)
    else wideVal s page d
  | .health =>
    let h := s.health
    if d.vid = wCoreState.vid then wideOf [h.coreSel, coreState s h.coreSel + coreCause s h.coreSel * 2 ^ 8]
    else if d.vid = wSpareClass.vid then
      let c := spareClass s h.classSel
      let n (m : SMap Nat) : Nat := min 65535 (mapGet (fun _ => 0) h.classSel m)
      wideOf [h.classSel, c.1, n h.used + c.2.1 * 2 ^ 16, bit01 c.2.2 + n h.drops * 2 ^ 16]
    else if d.vid = wRiskInput.vid then
      wideOf [h.inputSel, riskWeight s h.inputSel, mapGet (fun _ => 0) h.inputSel h.scores, mapGet (fun _ => 0) h.inputSel h.lastSecond]
    else if d.vid = wDowntime.vid then downWide s
    else if d.vid = wLogHead.vid then match h.log, h.log.getLast? with
      | e :: _, some n => wideOf (two (entryKey n) ++ two (entryKey e))
      | _, _ => 0
    else wideVal s page d
  | .mgmtSession => if d.vid = wPeer.vid then peerWide s else wideVal s page d
  | _ => wideVal s page d

end Sys2Proof.Machine
end

