-- ==== Sys2Proof/Machine/RegAccess.lean ====
section
/-!
DEFINITION. The one path of every register and mailbox access: reach and width (R4, R38, R54), guards (R12), access codes (R7 to
R9), votes (R10), reserved values (R6, R61), actions, and the mailbox (R47 to R53).
-/

namespace Sys2Proof.Machine

/-! ### Who may access what -/

/-- Whether a master counts as class S or K for a guarded field: class X does once DEBUG_EN is set (R12, R509). -/
def guardClass (s : State) (m : Master) : Bool :=
  match m with
  | .s _ => true
  | .k _ => true
  | .x => flag s 2 stSecurityDebugEn
  | .u _ => false
  | .c _ => false

/-- Whether a master passes a guard (R12): a presence-guarded field also needs the window. -/
def mayAccess (s : State) (m : Master) (g : GuardKind) : Bool :=
  match g with
  | .open => true
  | .guarded => guardClass s m
  | .presence => guardClass s m && presenceOpen s

/-- The pages that a master reaches (R38). -/
def reaches (m : Master) (page : Nat) : Bool :=
  match m with
  | .c g => decide (page = pgCore g.val) || decide (page = pgDisp (coreDie g.val)) || decide (page = 3)
  | _ => true

/-- CTRL_BAD of a block's EVENT, where it has one. -/
def ctrlBadBit : Block → Option Nat
  | .manager => some evManagerCtrlBad | .security => some evSecurityCtrlBad | .power => some evPowerCtrlBad
  | .thermal => some evThermalCtrlBad | .health => some evHealthCtrlBad
  | .store0 => some evStore0CtrlBad | .store1 => some evStore1CtrlBad | .store2 => some evStore2CtrlBad
  | .store3 => some evStore3CtrlBad | .mgmtLink => some evMgmtLinkCtrlBad | .mgmtSession => some evMgmtSessionCtrlBad
  | .port => some evPortCtrlBad | .transport => some evTransportCtrlBad | .membership => some evMembershipCtrlBad
  | .memCtl => some evMemCtlCtrlBad | .update => some evUpdateCtrlBad | .dispatcher => some evDispatcherCtrlBad
  | .ward => some evWardCtrlBad
  | .straps => none | .timeBase => none | .mgmtSpare => none | .interleave => none | .workerDie => none | .core => none

/-- Raise CTRL_BAD of a block; a worker die's own registers report on the page of its ward 0 (R416). -/
def ctrlBad (s : State) (b : Block) (page : Nat) : State :=
  match b with
  | .workerDie => raise s (pgWard (8 * (page - 0x60))) evWardCtrlBad
  | .core => arrEvent s (page - 0x100) fCoreLimitBad
  | _ => match ctrlBadBit b with
    | some e => raise s page e
    | none => s

/-- Raise GUARD_DENIED of a page (R12). -/
def guardDenied (s : State) (page : Nat) : State := raise s page evCommonGuardDenied

/-! ### Actions (R9) -/

/-- ACC_INV of one array (R131). -/
def invArray (s : State) (g a : Nat) : State :=
  let c := coreOf s g
  let ids := (c.passes.filter (fun p => decide (p.st ≠ .withdrawn) && passOn p.desc a)).map (·.id)
  if ids.isEmpty then setCore s g (invSlots c a)
  else setCore s g { c with invWait := c.invWait ++ [(a, ids)] }

/-- PRESENCE_CLOSE (R508). -/
def closePresence (s : State) : State :=
  if flag s 2 stSecurityJumper then s else notePresence (setSec s { s.sec with pressUntil := none })

/-- ERASE_A and ERASE_B: no effect on the slot that runs, nor while a clutch captures (R504, R512). -/
def eraseAction (s : State) (b : Nat) : State :=
  if slotRuns s b || flag s 9 stStore1Capturing then s else eraseSlot s b

/-- Whether the module is at work: neither starting, in reset, in standby, in recovery nor waiting for an image. -/
def atWork (s : State) : Bool := decide (modState s = msReady ∨ modState s = msRunning)

/-- DIE_WAKE (R492): a die that a trip put to sleep wakes by itself (R437). -/
def wakeAction (s : State) (d : Nat) (lost : List (Nat × Nat)) : State :=
  if atWork s && !(mapHas d s.therm.sleptAt) && !(s.therm.held.contains d) then wakeDie s d lost else s

/-- DIE_SLEEP (R492). -/
def sleepAction (s : State) (d : Nat) : State := if atWork s then sleepDie s d true else s

/-- EXPORT and IMPORT as register actions: XFER_SEL names clutch and rank (R394, R395). -/
def xferAction (s : State) (isImport : Bool) : State :=
  let v := wideVal s 0xB wXferSel
  if isImport then startImport s (wideWord v 0) (wideWord v 1 % 2 ^ 15) else startExport s (wideWord v 0) (wideWord v 1 % 2 ^ 15)

/-- Whether the action of a WA bit, once started, still runs: a second write of the bit raises ACTION_BUSY (R9, R44). -/
def bitRuns (s : State) (b : Block) (page off bit : Nat) : Bool :=
  match b, off, bit with
  | .store1, 0x108, 0 => s.store.asked
  | .store2, 0x100, 0 => flag s 0xA stStore2Restoring
  | .store3, 0x100, 0 => s.store.xfer.isSome
  | .store3, 0x100, 1 => s.store.xfer.isSome
  | .port, 0x10C, 0 => portRetraining s (page - 0x20)
  | .port, 0x10C, 2 => !((portOf s (page - 0x20)).replanLanes.isEmpty)
  | .membership, 0x118, 1 => decide (jstate s = jsJoining)
  | .workerDie, 0x240, 0 => replanTaken s (page - 0x60)
  | .core, 0x220, a => (coreOf s (page - 0x100)).invWait.any (fun e => e.1 == a)
  | _, _, _ => false

/-- The action of bit `bit` of a WA register. -/
def action (s : State) (b : Block) (page off bit : Nat) : State :=
  match b, off, bit with
  | .manager, 0x100, 0 => sleepAction s 0
  | .manager, 0x100, 1 => sleepAction s 1
  | .manager, 0x100, 2 => sleepAction s 2
  | .manager, 0x100, 3 => sleepAction s 3
  | .manager, 0x100, 4 => wakeAction s 0 []
  | .manager, 0x100, 5 => wakeAction s 1 []
  | .manager, 0x100, 6 => wakeAction s 2 []
  | .manager, 0x100, 7 => wakeAction s 3 []
  | .manager, 0x100, 8 => enterStandby s true
  | .manager, 0x100, 9 => leaveStandby s []
  | .manager, 0x100, 10 => warmReset s
  | .manager, 0x100, 11 => moduleReset s (liveStraps s) 4
  | .security, 0x104, 0 => closePresence s
  | .security, 0x104, 1 => svnCommitEffect s
  | .security, 0x104, 2 => eraseAction s 0
  | .security, 0x104, 3 => eraseAction s 1
  | .thermal, 0x104, 16 => tripClear s
  | .store1, 0x108, 0 => triggerClutch s
  | .store1, 0x108, 1 => abortClutch s 4
  | .store2, 0x100, 0 => startRestore s
  | .store2, 0x100, 1 => abortRestore s
  | .store3, 0x100, 0 => xferAction s false
  | .store3, 0x100, 1 => xferAction s true
  | .store3, 0x100, 2 => abortXfer s
  | .port, 0x10C, 0 => retrainEffect s (page - 0x20)
  | .port, 0x10C, 1 => portResetEffect s (page - 0x20)
  | .port, 0x10C, 2 => portReplanEffect s (page - 0x20)
  | .transport, 0x10C, 0 => abortColls s
  | .membership, 0x118, 1 => joinModule s
  | .workerDie, 0x240, 0 => requestReplan s (page - 0x60)
  | .update, 0x104, 0 => abortUpd s (page - 0x64)
  | .update, 0x104, 1 => resumeUpd s (page - 0x64)
  | .update, 0x104, 2 => discardUpd s (page - 0x64)
  | .dispatcher, 0x114, 0 =>
    let x := dispOf s (page - 0x68)
    setDisp s (page - 0x68) { x with failures := x.failures.tail }
  | .core, 0x220, a => if a < 4 then invArray s (page - 0x100) a else s
  | .core, 0x118, 0 => setCore s (page - 0x100) { coreOf s (page - 0x100) with flush := true }
  | _, _, _ => s

/-! ### Writes of fields -/

/-- Whether the value of a port's four receive shares may be stored (R274). -/
def sharesOk (v : Nat) : Bool :=
  let l := [bitsOf v 0 6, bitsOf v 8 6, bitsOf v 16 6, bitsOf v 24 6]
  l.all (fun n => decide (1 ≤ n) && decide (n ≤ 61)) && decide (l.foldl (· + ·) 0 ≤ 64)

/-- Whether a write may give an RW field its value `v`; `whole` is the written word (R6, R61). -/
def valueOk (s : State) (b : Block) (page : Nat) (f : FieldDef) (v whole : Nat) : Bool :=
  decide (f.minV ≤ v) && decide (v ≤ f.maxV) &&
  (match b, f.off, f.lo with
   | .port, 0x108, _ => sharesOk whole
   | .port, 0x100, 2 => decide (v = 0) || !((List.range 16).any (fun q => q != page - 0x20 && flag s (pgPort q) fPortTimeUpstream))
   | .store1, 0x100, 1 => decide (v ≠ 1)
   | .membership, 0x100, 0 => !(decide (1 ≤ jstate s) && decide (jstate s ≤ 4))
   | .core, 0x400, lo => decide (lo = 0) || (decide (1 ≤ bitsOf whole 16 7) && decide (bitsOf whole 8 7 + bitsOf whole 16 7 ≤ 96))
   | _, _, _ => true)

/-- Whether a refused value raises an event: SYNC_TOL and OC_GUARD do not (R182, R212); the shares do so once. -/
def refusalSilent (b : Block) (f : FieldDef) : Bool :=
  match b with
  | .timeBase => true
  | .core => decide (f.off = 0x400)
  | _ => false

/-- Store a legal value in an RW field, with what follows at once. -/
def storeField (s : State) (b : Block) (page : Nat) (f : FieldDef) (v : Nat) : State :=
  match b, f.off, f.lo with
  | .membership, 0x118, 0 => openJoins s (decide (v ≠ 0))
  | .port, 0x100, 0 => portEnableEffect (setFld s page f v) (page - 0x20) (decide (v ≠ 0))
  | .port, 0x100, 1 => loopbackEffect (setFld s page f v) (page - 0x20) (decide (v ≠ 0))
  | .port, 0x100, 2 =>
    setFld (if decide (v = 0) && flag s page f then unfollow s else s) page f v
  | .mgmtSession, 0x100, 16 => setMgmt (setFld s page f v) { s.mgmt with lease := if v = 0 then none else s.mgmt.lease }
  | _, _, _ => setFld s page f v

/-- What a write that its guard lets pass does to one field (R7, R9). -/
def putField (s : State) (b : Block) (page value : Nat) (f : FieldDef) : State :=
  let v := bitsOf value f.lo f.width
  match f.acc with
  | .ro => s
  | .rc => s
  | .wo => setFld s page f v
  | .wa => (List.range f.width).foldl (fun s i =>
    if !(v.testBit i) then s
    else if bitRuns s b page f.off (f.lo + i) then raise s page evCommonActionBusy
    else action s b page f.off (f.lo + i)) s
  | .rw =>
    if valueOk s b page f v value then storeField s b page f v
    else if refusalSilent b f then s else ctrlBad s b page

/-- Write one field of a register (R12): `ok` says whether the master passes the field's guard, judged as the access begins. -/
def writeField (s : State) (b : Block) (page value : Nat) (f : FieldDef) (ok : Bool) : State :=
  if ok then putField s b page value f else guardDenied s page

/-! ### Votes (R10, R60) -/

/-- Vote the three copies of a register word: a minority copy is repaired, three different copies give the reset value. -/
def voteKey (s : State) (k : Nat) : State :=
  match mapFind k s.triple with
  | none => s
  | some c =>
    let page := k / 4096
    let fix (w : Word) : State :=
      noteInput (raise { s with triple := mapErase k s.triple, regs := mapSet regDefault k w s.regs } page evCommonVoteFix) 16 1
    if c.c0 = c.c1 ∧ c.c1 = c.c2 then { s with triple := mapErase k s.triple, regs := mapSet regDefault k c.c0 s.regs }
    else if c.c0 = c.c1 ∨ c.c0 = c.c2 then fix c.c0
    else if c.c1 = c.c2 then fix c.c1
    else noteInput (raise { s with regs := mapErase k s.regs } page evCommonVoteFail) 16 1

/-! ### Mailbox values written -/

/-- RANKSET (R316). -/
def writeRankset (s : State) (v : Wide) : State :=
  let set := wideWord v 0 % 256
  let a := wideWord v 1 + wideWord v 2 * 2 ^ 32
  let nr := wideWord v 3 % 2 ^ 15
  let bad := raise s 0x31 evMembershipCtrlBad
  if set = 0 ∨ a % 2 ≠ 0 ∨ nr = 0 ∨ 16384 < nr ∨ s.net.colls.any (fun c => c.desc.rankset == set) then bad else
  let r := memRead s a (2 * nr)
  match r.2 with
  | none => raise r.1 0x31 evMembershipCtrlBad
  | some b =>
    let l := (List.range nr).map (fun i => leNat ((b.drop (2 * i)).take 2) % 2 ^ 15)
    setWide (setNet r.1 { r.1.net with ranksets := mapPut set l r.1.net.ranksets }) 0x31 wRankset v

/-- FENCE (R451, R467). -/
def writeFence (s : State) (v : Wide) : State :=
  let g := wideWord v 0 % 2 ^ 11
  let back := (wideWord v 0).testBit 16
  let s := setWide s 6 wFence (wideOf [wideWord v 0 % 2 ^ 17, 0])
  if 1215 < g then raise s 6 evHealthCtrlBad
  else if back then
    if coreState s g = 3 ∧ coreCause s g = 7 then askCore s ⟨g, true⟩ else raise s 6 evHealthCtrlBad
  else if coreState s g = 0 then fenceCore s g 7 else raise s 6 evHealthCtrlBad

/-- RISK_INPUT (R457, R467). -/
def writeRisk (s : State) (v : Wide) : State :=
  let i := wideWord v 0 % 32
  if 16 < i then raise s 6 evHealthCtrlBad else
  let h := { s.health with inputSel := i }
  setHealth s (if (wideWord v 0).testBit 31 then { h with weights := mapPut i (wideWord v 1 % 2 ^ 16) h.weights } else h)

/-- ROUTE (R286, R313): a set reserved bit of the 16-bit entry refuses the write. -/
def writeRoute (s : State) (v : Wide) : State :=
  let dst := wideWord v 0 % 2 ^ 16
  let e := wideWord v 1
  if (wideWord v 0).testBit 31 then
    if bitsOf e 10 6 ≠ 0 then raise s 0x30 evTransportCtrlBad
    else
      let s := setRoute s (BitVec.ofNat 16 dst) (BitVec.ofNat 16 e)
      setNet s { s.net with routeSel := dst }
  else setNet s { s.net with routeSel := dst }

/-- STAGE (R395). -/
def writeStage (s : State) (v : Wide) : State :=
  let base := wideWord v 0 + wideWord v 1 * 2 ^ 32
  let len := wideWord v 2 + wideWord v 3 * 2 ^ 32
  if base % 4096 ≠ 0 ∨ len % 4096 ≠ 0 ∨ bulkEnd < base + len then raise s 9 evStore1CtrlBad else setWide s 9 wStage v

/-- The first `n` words of a mailbox value. -/
def cutWide (v : Wide) (n : Nat) : Wide := BitVec.ofNat 256 (v.toNat % 2 ^ (32 * n))

/-- The effect of writing a mailbox value, guards passed. -/
def writeWide (s : State) (b : Block) (page : Nat) (d : WideDef) (val : Wide) : State :=
  let v := cutWide val d.words
  let a := v.toNat % 2 ^ 64
  let stored := setWide s page d v
  match b with
  | .dispatcher =>
    let k := page - 0x68
    if d.vid = wSubmit.vid then submitRecord stored k a
    else armWatch stored k a (v.extractLsb' 64 64) (wideWord v 4 + wideWord v 5 * 2 ^ 32) (wideWord v 6 + wideWord v 7 * 2 ^ 32)
  | .transport => if d.vid = wCollArm.vid then armColl stored a else writeRoute s v
  | .membership =>
    if d.vid = wRankset.vid then writeRankset s v
    else if 16639 < wideWord v 0 % 2 ^ 15 then raise s 0x31 evMembershipCtrlBad
    else setNet s { s.net with memberSel := wideWord v 0 % 2 ^ 15 }
  | .workerDie =>
    let k := page - 0x60
    if d.vid = wRngKey.vid then stored
    else if d.vid = wLedgerArm.vid then armLedger stored k a
    else gateAdd stored k a
  | .update =>
    let k := page - 0x64
    if d.vid = wUpdArm.vid then armUpd stored k a
    else if a % 0x100000 = 0 ∧ regionSize * k ≤ a ∧ a < regionSize * (k + 1) then stored
    else raise s page evUpdateCtrlBad
  | .store1 => if d.vid = wStage.vid then writeStage s v else setStore s { s.store with dirSel := wideWord v 0 }
  | .store2 => setWide s page d (wideOf [wideWord v 0, wideWord v 1 % 2])
  | .store3 => setWide s page d (wideOf [wideWord v 0, wideWord v 1 % 2 ^ 15])
  | .power =>
    if 37 < wideWord v 0 % 64 then raise s page evPowerCtrlBad else setPower s { s.power with railSel := wideWord v 0 % 64 }
  | .health =>
    if d.vid = wFence.vid then writeFence s v
    else if d.vid = wRiskInput.vid then writeRisk s v
    else if d.vid = wSpareClass.vid then
      if 9 < wideWord v 0 % 16 then raise s page evHealthCtrlBad else setHealth s { s.health with classSel := wideWord v 0 % 16 }
    else if 1215 < wideWord v 0 % 2 ^ 11 then raise s page evHealthCtrlBad
    else setHealth s { s.health with coreSel := wideWord v 0 % 2 ^ 11 }
  | _ => stored

/-! ### The mailbox -/

/-- The mailbox of a page. -/
def mailboxOf (s : State) (page : Nat) : Mailbox := mapGet (fun _ => ({} : Mailbox)) page s.mailbox
/-- Set the mailbox of a page. -/
def setMailbox (s : State) (page : Nat) (x : Mailbox) : State :=
  { s with mailbox := mapSet (fun _ => ({} : Mailbox)) page x s.mailbox }

/-- Offset of a data word. -/
def mbxData (i : Nat) : Nat := 0xE8 + 4 * i

/-- Data word i. -/
def mbxWord (s : State) (page i : Nat) : Nat := (regWord s page (mbxData i)).toNat

/-- Fill the data words. -/
def setMbxWords (s : State) (page : Nat) (l : List Nat) : State :=
  (List.range 6).foldl (fun s i => setRegWord s page (mbxData i) (BitVec.ofNat 32 (l.getD i 0))) s

/-- MBX_STAT after an operation: SEQ advances, VALID is set (R48). -/
def setMbxStat (s : State) (page vid words : Nat) (err : Bool) : State :=
  let s := setFld s page fCommonSeq (fld s page fCommonSeq + 1)
  let s := setFlag (setFlag s page fCommonValid true) page fCommonErr err
  setFld (setFld s page fCommonWords words) page fCommonValueIdStat vid

/-- An MBX_SEL write (R47 to R53). -/
def mailboxOp (s : State) (m : Master) (b : Block) (page vid : Nat) (part write : Bool) : State :=
  let box := mailboxOf s page
  let s := setFlag (setFld s page fCommonValueId vid) page fCommonPart part
  match (blockWides b).find? (fun d => d.vid == vid) with
  | none => setMbxWords (raise (setMailbox (setMbxStat s page vid 0 true) page { box with snap := none }) page evCommonMbxBad) page []
  | some d =>
    if (write && d.acc != .rw) || (part && decide (d.words ≤ 6)) then
      setMbxWords (raise (setMailbox (setMbxStat s page vid 0 true) page { box with snap := none }) page evCommonMbxBad) page []
    else
      let s := setMbxStat s page vid d.words false
      if !(mayAccess s m d.grd) then
        let s := setMailbox (guardDenied s page) page { box with snap := none }
        if write then s else setMbxWords s page []
      else
        match write, part with
        | false, false =>
          let v := presentWide s b page d
          setMbxWords (setMailbox s page { box with snap := some (vid, v) }) page ((List.range (min 6 d.words)).map (wideWord v))
        | false, true =>
          let v := match box.snap with
            | some x => if x.1 = vid then x.2 else presentWide s b page d
            | none => presentWide s b page d
          setMbxWords (setMailbox s page { box with snap := none }) page [wideWord v 6, wideWord v 7]
        | true, true =>
          setMailbox s page { snap := none, staged := some (vid, BitVec.ofNat 64 (mbxWord s page 0 + mbxWord s page 1 * 2 ^ 32)) }
        | true, false =>
          let high := match box.staged with
            | some x => if x.1 = vid ∧ 6 < d.words then two x.2.toNat else [0, 0]
            | none => [0, 0]
          let v := wideOf ((List.range 6).map (mbxWord s page) ++ high)
          writeWide (setMailbox s page {}) b page d v

/-- The whole of a value as one operation of a master: its words in the data words, then MBX_SEL (R51, R52). -/
def mailboxPut (s : State) (m : Master) (b : Block) (page vid : Nat) (ws : List Nat) : State :=
  let wide := match (blockWides b).find? (fun d => d.vid == vid) with
    | some d => decide (6 < d.words)
    | none => false
  let s := if wide then mailboxOp (setMbxWords s page [ws.getD 6 0, ws.getD 7 0]) m b page vid true true else s
  mailboxOp (setMbxWords s page ws) m b page vid false true

/-! ### Register accesses -/

/-- The fields at an offset, lowest bit first. -/
def fieldsAt (b : Block) (off : Nat) : List FieldDef := (pageFields b).filter (fun f => f.off == off)

/-- Write a register word; none is a bus error (R7, R38, R54). -/
def regPut (s : State) (m : Master) (page off value : Nat) : State × Bool :=
  match pageBlock page with
  | none => (s, false)
  | some b =>
    if !(reaches m page) || !(pageServed s page) then (s, false)
    else if off = 0xE0 then
      (mailboxOp s m b page (value % 2 ^ 16) (value.testBit 16) (value.testBit 31), true)
    else if 0xE8 ≤ off ∧ off ≤ 0xFC then (setRegWord s page off (BitVec.ofNat 32 value), true)
    else if off = 0x28 then (setRegWord s page off (BitVec.ofNat 32 (value &&& eventMask b)), true)
    else
      let s := { s with triple := mapErase (regKey page off) s.triple }
      ((fieldsAt b off).foldl (fun x f => writeField x b page value f (mayAccess s m f.grd)) s, true)

/-- Read a register word; none is a bus error. RC bits that were returned are cleared (R7, R8). -/
def regGet (s : State) (m : Master) (page off : Nat) : State × Option Nat :=
  match pageBlock page with
  | none => (s, none)
  | some b =>
    if !(reaches m page) || !(pageServed s page) then (s, none)
    else
      let s := voteKey s (regKey page off)
      let w := presentWord s b page off
      if off = 0x24 then (setRegWord s page 0x24 0, some w)
      else
        let fs := fieldsAt b off
        let denied := fs.filter (fun f => !(mayAccess s m f.grd))
        let hidden := fs.filter (fun f => !(mayAccess s m f.grd) || f.acc == .wa || f.acc == .wo)
        let w := hidden.foldl (fun w f => insertBits w f.lo f.width 0) w
        let x := fs.foldl (fun x f => if f.acc == .rc && mayAccess s m f.grd then setFld x page f f.reset else x) s
        (if denied.isEmpty then x else guardDenied x page, some w)

/-! ### Addresses -/

/-- First address of the register window (R32). -/
def regBase : Nat := 0xF0000000000
/-- First address of the operand-cache windows (R32). -/
def ocBase : Nat := 0x80000000000

/-- Page and offset of an address of the register window that a 32-bit aligned access may use (R4, R32). -/
def regAddr (a width : Nat) : Option (Nat × Nat) :=
  if regBase ≤ a ∧ a < regBase + 0x1000000 ∧ width = 32 ∧ a % 4 = 0 then some ((a - regBase) / 4096, (a - regBase) % 4096) else none

/-- Core and offset of an address of an operand-cache window that is served (R32, R33). -/
def ocAddr (s : State) (a n : Nat) : Option (Nat × Nat) :=
  if ocBase ≤ a ∧ a < ocBase + 1216 * 0x200000 then
    let g := (a - ocBase) / 0x200000
    let o := (a - ocBase) % 0x200000
    if o + n ≤ 0x180000 ∧ dieAwake s (coreDie g) ∧ modState s ≠ msStandby then some (g, o) else none
  else none

/-- A tile program reaches neither window through an address (R38). -/
def isTile : Master → Bool
  | .c _ => true
  | _ => false

/-- A write at an address by a master: a register, or bytes of an operand cache or of bulk memory (R32 to R34, R57). -/
def addrWrite (s : State) (m : Master) (a width value : Nat) : State :=
  let n := width / 8
  let bytes := leBytes n value
  match regAddr a width with
  | some x =>
    let r := regPut s m x.1 x.2 value
    if r.2 then { r.1 with resp := .done } else busError r.1 m a true
  | none =>
    if isTile m ∨ n = 0 ∨ 4 < n then busError s m a true else
    match ocAddr s a n with
    | some x => { setCore s x.1 (ocWrite (coreOf s x.1) x.2 bytes) with resp := .done }
    | none =>
      if inBulk a && inBulk (a + n - 1) then
        let r := memWrite s a bytes
        if r.2 then { r.1 with resp := .done } else busError r.1 m a true
      else busError s m a true

/-- A read at an address by a master. -/
def addrRead (s : State) (m : Master) (a width : Nat) : State :=
  let n := width / 8
  match regAddr a width with
  | some x =>
    let r := regGet s m x.1 x.2
    match r.2 with
    | some w => { r.1 with resp := .data (BitVec.ofNat 32 w) }
    | none => busError r.1 m a false
  | none =>
    if isTile m ∨ n = 0 ∨ 4 < n then busError s m a false else
    match ocAddr s a n with
    | some x => { meetOc s x.1 x.2 n with resp := .bytes (ocRead (coreOf s x.1) x.2 n) }
    | none =>
      if inBulk a && inBulk (a + n - 1) then
        let r := memRead s a n
        match r.2 with
        | some b => { r.1 with resp := .bytes b }
        | none => busError r.1 m a false
      else busError s m a false

/-- A register write by page and offset, as a row of its own issues it. -/
def rowWrite (s : State) (m : Master) (page off value : Nat) : State :=
  let r := regPut s m page off value
  if r.2 then { r.1 with resp := .done } else busError r.1 m (regBase + 4096 * page + off) true

/-- A mailbox value written by a row of its own. -/
def rowMailbox (s : State) (m : Master) (page vid : Nat) (ws : List Nat) : State :=
  match pageBlock page with
  | none => busError s m (regBase + 4096 * page + mbxData 0) true
  | some b =>
    if !(reaches m page) || !(pageServed s page) then busError s m (regBase + 4096 * page + mbxData 0) true
    else { mailboxPut s m b page vid ws with resp := .done }

end Sys2Proof.Machine
end

