-- ==== Sys2Proof/Machine/Accesses.lean ====
section
/-!
DEFINITION. The rows that are register or mailbox accesses (R7 to R53 and the registers of each chapter). Each goes the one path
of RegAccess: reach, guards, power, then the effect.
-/

namespace Sys2Proof.Machine

/-! ### Accesses by address, page and VALUE_ID -/

/-- REGISTER_WRITE (R7). -/
def execRegisterWrite (m : Master) (addr : BitVec 44) (width : Nat) (value : BitVec 32) (s : State) : Answer :=
  .next (addrWrite s m addr.toNat width value.toNat)

/-- RC_READ (R8): the read of a register, which clears the sticky bits it returns. -/
def execRcRead (m : Master) (addr : BitVec 44) (width : Nat) (s : State) : Answer :=
  .next (addrRead s m addr.toNat width)

/-- MAILBOX_READ (R50). -/
def execMailboxRead (m : Master) (page : BitVec 12) (vid : BitVec 16) (part : Bool) (s : State) : Answer :=
  .next (rowWrite s m page.toNat 0xE0 (vid.toNat + if part then 2 ^ 16 else 0))

/-- MAILBOX_WRITE (R51). -/
def execMailboxWrite (m : Master) (page : BitVec 12) (vid : BitVec 16) (s : State) : Answer :=
  .next (rowWrite s m page.toNat 0xE0 (vid.toNat + 2 ^ 31))

/-- MAILBOX_STAGE (R51). -/
def execMailboxStage (m : Master) (page : BitVec 12) (vid : BitVec 16) (s : State) : Answer :=
  .next (rowWrite s m page.toNat 0xE0 (vid.toNat + 2 ^ 31 + 2 ^ 16))

/-! ### Core and dispatcher pages -/

/-- ACC_INV (R131). -/
def execAccInv (m : Master) (g : CoreId) (arrays : BitVec 4) (s : State) : Answer :=
  .next (rowWrite s m (pgCore g) 0x220 arrays.toNat)

/-- CODE_FLUSH (R159). -/
def execCodeFlush (m : Master) (g : CoreId) (s : State) : Answer := .next (rowWrite s m (pgCore g) 0x118 1)

/-- FAIL_POP (R208). -/
def execFailPop (m : Master) (d : DieId) (s : State) : Answer := .next (rowWrite s m (pgDisp d) 0x114 1)

/-- The two words of a 64-bit operand. -/
def twoWords (a : BitVec 64) : List Nat := two a.toNat

/-- WATCH_ARM (R192, R210). -/
def execWatchArm (m : Master) (d : DieId) (counter target record reserved : BitVec 64) (s : State) : Answer :=
  .next (rowMailbox s m (pgDisp d) wWatchArm.vid (twoWords counter ++ twoWords target ++ twoWords record ++ twoWords reserved))

/-- SUBMIT (R210). -/
def execSubmit (m : Master) (d : DieId) (record : BitVec 64) (s : State) : Answer :=
  .next (rowMailbox s m (pgDisp d) wSubmit.vid (twoWords record))

/-! ### Memory and ports -/

/-- ADDR_PROBE (R248): the address is written and its decoding read back into the data words. -/
def execAddrProbe (m : Master) (probe : BitVec 64) (s : State) : Answer :=
  .next (rowWrite (rowMailbox s m 0x50 wAddrProbe.vid (twoWords probe ++ [0, 0])) m 0x50 0xE0 wAddrProbe.vid)

/-- The stored word of a register with zero in the bits of its actions. -/
def keptWord (s : State) (page off : Nat) : Nat :=
  match pageBlock page with
  | none => 0
  | some b => (fieldsAt b off).foldl (fun w f => if f.acc == .wa then insertBits w f.lo f.width 0 else w) (regWord s page off).toNat

/-- A register word with one field changed, as a master that keeps the other settings and asks for no other action writes it. -/
def withField (s : State) (page : Nat) (f : FieldDef) (v : Nat) : Nat := insertBits (keptWord s page f.off) f.lo f.width v

/-- PORT_ENABLE (R274). -/
def execPortEnable (m : Master) (p : PortId) (on : Bool) (s : State) : Answer :=
  .next (rowWrite s m (pgPort p) 0x100 (withField s (pgPort p) fPortEnable (bit01 on)))

/-- RETRAIN (R274). -/
def execRetrain (m : Master) (p : PortId) (s : State) : Answer := .next (rowWrite s m (pgPort p) 0x10C 1)

/-- PORT_RESET (R274). -/
def execPortReset (m : Master) (p : PortId) (s : State) : Answer := .next (rowWrite s m (pgPort p) 0x10C 2)

/-- PORT_REPLAN (R267, R274). -/
def execPortReplan (m : Master) (p : PortId) (s : State) : Answer := .next (rowWrite s m (pgPort p) 0x10C 4)

/-! ### Collectives and the group -/

/-- COLL_ARM (R297, R313). -/
def execCollArm (m : Master) (desc : BitVec 64) (s : State) : Answer :=
  .next (rowMailbox s m 0x30 wCollArm.vid (twoWords desc))

/-- COLL_ABORT (R312). -/
def execCollAbort (m : Master) (s : State) : Answer := .next (rowWrite s m 0x30 0x10C 1)

/-- JOIN (R291, R315). -/
def execJoin (m : Master) (s : State) : Answer := .next (rowWrite s m 0x31 0x118 (withField s 0x31 fMembershipJoin 1))

/-- JOIN_OPEN (R315). -/
def execJoinOpen (m : Master) (on : Bool) (s : State) : Answer :=
  .next (rowWrite s m 0x31 0x118 (withField s 0x31 fMembershipJoinOpen (bit01 on)))

/-- ROUTE (R286, R313). -/
def execRoute (m : Master) (word0 word1 : BitVec 32) (s : State) : Answer :=
  .next (rowMailbox s m 0x30 wRoute.vid [word0.toNat, word1.toNat])

/-- RANKSET (R316). -/
def execRankset (m : Master) (word0 word1 word2 word3 : BitVec 32) (s : State) : Answer :=
  .next (rowMailbox s m 0x31 wRankset.vid [word0.toNat, word1.toNat, word2.toNat, word3.toNat])

/-! ### Ledger and update units -/

/-- LEDGER_ARM (R327, R337). -/
def execLedgerArm (m : Master) (d : DieId) (record : BitVec 64) (s : State) : Answer :=
  .next (rowMailbox s m (pgDie d) wLedgerArm.vid (twoWords record))

/-- GATE_ADD (R329, R337). -/
def execGateAdd (m : Master) (d : DieId) (gate : BitVec 64) (s : State) : Answer :=
  .next (rowMailbox s m (pgDie d) wGateAdd.vid (twoWords gate))

/-- UPD_ARM (R343, R361). -/
def execUpdArm (m : Master) (d : DieId) (desc : BitVec 64) (s : State) : Answer :=
  .next (rowMailbox s m (pgUpd d) wUpdArm.vid (twoWords desc))

/-- UPD_ABORT (R357). -/
def execUpdAbort (m : Master) (d : DieId) (s : State) : Answer := .next (rowWrite s m (pgUpd d) 0x104 1)

/-- UPD_RESUME (R352, R356). -/
def execUpdResume (m : Master) (d : DieId) (s : State) : Answer := .next (rowWrite s m (pgUpd d) 0x104 2)

/-- UPD_DISCARD (R356). -/
def execUpdDiscard (m : Master) (d : DieId) (s : State) : Answer := .next (rowWrite s m (pgUpd d) 0x104 4)

/-! ### Checkpoint store -/

/-- TRIGGER (R371, R394). -/
def execTrigger (m : Master) (s : State) : Answer := .next (rowWrite s m 9 0x108 1)

/-- CAPTURE_ABORT (R379, R394). -/
def execCaptureAbort (m : Master) (s : State) : Answer := .next (rowWrite s m 9 0x108 2)

/-- RESTORE (R382, R394). -/
def execRestore (m : Master) (s : State) : Answer := .next (rowWrite s m 0xA 0x100 1)

/-- RESTORE_ABORT (R394). -/
def execRestoreAbort (m : Master) (s : State) : Answer := .next (rowWrite s m 0xA 0x100 2)

/-- EXPORT (R390, R394). -/
def execExportClutch (m : Master) (s : State) : Answer := .next (rowWrite s m 0xB 0x100 1)

/-- IMPORT (R391, R394). -/
def execImportClutch (m : Master) (s : State) : Answer := .next (rowWrite s m 0xB 0x100 2)

/-- XFER_ABORT (R394). -/
def execXferAbort (m : Master) (s : State) : Answer := .next (rowWrite s m 0xB 0x100 4)

/-! ### Clocks, cooling, health, security, manager -/

/-- REPLAN (R409, R416). -/
def execReplan (m : Master) (d : DieId) (s : State) : Answer := .next (rowWrite s m (pgDie d) 0x240 1)

/-- TRIP_CLEAR (R437, R445). -/
def execTripClear (m : Master) (s : State) : Answer := .next (rowWrite s m 5 0x104 (withField s 5 fThermalTripClear 1))

/-- FENCE (R451, R467). -/
def execFence (m : Master) (word0 word1 : BitVec 32) (s : State) : Answer :=
  .next (rowMailbox s m 6 wFence.vid [word0.toNat, word1.toNat])

/-- SVN_COMMIT (R503, R512). -/
def execSvnCommit (m : Master) (s : State) : Answer := .next (rowWrite s m 2 0x104 2)

/-- ERASE_A (R504, R512). -/
def execEraseA (m : Master) (s : State) : Answer := .next (rowWrite s m 2 0x104 4)

/-- ERASE_B (R504, R512). -/
def execEraseB (m : Master) (s : State) : Answer := .next (rowWrite s m 2 0x104 8)

/-- PRESENCE_CLOSE (R508, R512). -/
def execPresenceClose (m : Master) (s : State) : Answer := .next (rowWrite s m 2 0x104 1)

/-- MODULE_RESET (R491, R496). -/
def execModuleReset (m : Master) (s : State) : Answer := .next (rowWrite s m 0 0x100 (2 ^ 11))

/-- WARM_RESET (R491, R496). -/
def execWarmReset (m : Master) (s : State) : Answer := .next (rowWrite s m 0 0x100 (2 ^ 10))

/-- DIE_SLEEP (R492, R496). -/
def execDieSleep (m : Master) (d : DieId) (s : State) : Answer := .next (rowWrite s m 0 0x100 (2 ^ d.val))

/-- DIE_WAKE (R492, R493, R496); `lost` names the fields, by page and offset, whose restore fails. -/
def execDieWake (m : Master) (d : DieId) (lost : List (Nat × Nat)) (s : State) : Answer :=
  .next (
    if !(reaches m 0) then busError s m (regBase + 0x100) true
    else if mayAccess s m .guarded then { wakeAction s d lost with resp := .done }
    else { guardDenied s 0 with resp := .done })

/-- STANDBY (R492, R496). -/
def execStandby (m : Master) (s : State) : Answer := .next (rowWrite s m 0 0x100 (2 ^ 8))

/-- WAKE (R492, R493, R496); `lost` names what the restore fails for. -/
def execWake (m : Master) (lost : List (Nat × Nat)) (s : State) : Answer :=
  .next (
    if !(reaches m 0) then busError s m (regBase + 0x100) true
    else if mayAccess s m .guarded then { leaveStandby s lost with resp := .done }
    else { guardDenied s 0 with resp := .done })

end Sys2Proof.Machine
end

