-- ==== Sys2Proof/Machine/CoreRegs.lean ====
section
/-!
DEFINITION. RDREG and WRREG (R142, R143): a tile program reads and writes registers of its own core page, its dispatcher's page
and the time-base page, in class C (R38).
-/

namespace Sys2Proof.Machine

/-- The page that FN names (R143). -/
def tilePage (g fn : Nat) : Nat := if fn = 0 then pgCore g else if fn = 1 then pgDisp (coreDie g) else 3

/-- The offset that a register instruction forms, none outside the page or misaligned (R4, R142). -/
def tileOffset (t : Tile) (f : TileFields) : Option Nat :=
  let o := ((getS t.ctx f.a).toNat + f.imm) % 2 ^ 64
  if o < 4096 ∧ o % 4 = 0 then some o else none

/-- RDREG (R142, R143). -/
def execRdreg (g : CoreId) (s : State) : Answer :=
  .next (issue s g 0x16 (fun s t i =>
    let f := fieldsOf i
    match tileOffset t f with
    | none => tileFail s g causeRegErr t.ctx.pc 0 0
    | some o =>
      let r := regGet s (.c g) (tilePage g f.fn) o
      match r.2 with
      | none => tileFail r.1 g causeRegErr t.ctx.pc 0 0
      | some w => finish r.1 g t (putS t.ctx f.d (BitVec.ofNat 64 w))))

/-- WRREG (R142, R143). -/
def execWrreg (g : CoreId) (s : State) : Answer :=
  .next (issue s g 0x17 (fun s t i =>
    let f := fieldsOf i
    match tileOffset t f with
    | none => tileFail s g causeRegErr t.ctx.pc 0 0
    | some o =>
      let r := regPut s (.c g) (tilePage g f.fn) o ((getS t.ctx f.b).toNat % 2 ^ 32)
      if r.2 then finish r.1 g t t.ctx else tileFail r.1 g causeRegErr t.ctx.pc 0 0))

end Sys2Proof.Machine
end

