-- ==== Sys2Proof/Machine/Dispatchers.lean ====
section
/-!
DEFINITION. The dispatcher's rows (R186 to R198), the ward time copies (R201) and the reference clock (R203). SUBMIT,
WATCH_ARM and FAIL_POP are accesses to registers and stand in Accesses.lean.
-/

namespace Sys2Proof.Machine

/-- TASK_REQUEST (R186). -/
def execTaskRequest (g : CoreId) (s : State) : Answer :=
  .next (if mayAsk s g && !(coreOf s g).asked then askTask s g else s)

/-- TASK_ASK_RETRY (R186). -/
def execTaskAskRetry (g : CoreId) (s : State) : Answer :=
  .next (if mayAsk s g && (coreOf s g).asked then askTask s g else s)

/-- PREEMPT_DECISION (R188). -/
def execPreemptDecision (d : DieId) (s : State) : Answer :=
  .next (
    if !(flag s (pgDisp d) fDispatcherEnable) || (dieCores d).any (fun g => coreIdle s g) then s else
    match bestEntry s d (preempting s d) with
    | none => s
    | some e =>
      match victim s d e with
      | none => s
      | some v => preemptCore s d v.1 e)

/-- LIST_FETCH (R196). -/
def execListFetch (d : DieId) (s : State) : Answer := .next (if dieAwake s d then fetchList s d else s)

/-- STORE_ROOM_FETCH (R196). -/
def execStoreRoomFetch (d : DieId) (s : State) : Answer := .next (if dieAwake s d then fetchRemainder s d else s)

/-- The done-counter add of a completed task: true when there is none or it was applied (R189). -/
def doneAdd (s : State) (t : Task) : State × Bool := if t.done = 0 then (s, true) else addOne s t.done

/-- TASK_DONE (R189). -/
def execTaskDone (d : DieId) (s : State) : Answer :=
  .next (match firstReport (dispOf s d) (· == .normal) with
    | none => s
    | some r =>
      match entryOf (dispOf s d) r.entryId with
      | none => s
      | some e =>
        let a := doneAdd s e.task
        if a.2 then updTileEnd (bump (closeReport a.1 d r) (pgDisp d) fDispatcherTasksDone) d e.id true else s)

/-- DONE_ADD_ERROR (R189). -/
def execDoneAddError (d : DieId) (s : State) : Answer :=
  .next (match firstReport (dispOf s d) (· == .normal) with
    | none => s
    | some r =>
      match entryOf (dispOf s d) r.entryId with
      | none => s
      | some e =>
        let a := doneAdd s e.task
        if a.2 then s else updTileEnd (addFailure (closeReport a.1 d r) d e.task.ref 0x06 0 (r.core % 304)) d e.id false)

/-- ABANDON_REPORT (R190). -/
def execAbandonReport (d : DieId) (s : State) : Answer :=
  .next (match firstReport (dispOf s d) (· == .abandoned) with
    | none => s
    | some r =>
      match entryOf (dispOf s d) r.entryId with
      | none => s
      | some e =>
        let s := handleAbandon s d r e
        if (entryOf (dispOf s d) e.id).isSome then s else updTileEnd s d e.id false)

/-- TASK_FAIL_REPORT (R190). -/
def execTaskFailReport (d : DieId) (s : State) : Answer :=
  .next (match firstReport (dispOf s d) (fun k => match k with
      | .failed _ => true
      | _ => false) with
    | none => s
    | some r =>
      match entryOf (dispOf s d) r.entryId, r.kind with
      | some e, .failed cause =>
        updTileEnd (addFailure (raise (closeReport s d r) (pgDisp d) evDispatcherTaskFail) d e.task.ref 0x01 cause (r.core % 304))
          d e.id false
      | _, _ => s)

/-- RELEASE_RECORD (R194). -/
def execReleaseRecord (d : DieId) (s : State) : Answer := .next (if dieAwake s d then releaseRecord s d else s)

/-- BELL_RING (R198). -/
def execBellRing (w : WardId) (s : State) : Answer := .next (if dieAwake s (w / 8) then ringBell s w else s)

/-- Number of a copy of the time counter. -/
def copyKey : TimeCopy → Nat
  | .ward w => w.val
  | .dispatcher d => 32 + d.val

/-- TIME_CORRECTION (R201): a copy takes the time base's count. -/
def execTimeCorrection (c : TimeCopy) (s : State) : Answer := .next { s with wardOff := mapErase (copyKey c) s.wardOff }

/-- REFCLK_LOST (R203). -/
def execRefclkLost (s : State) : Answer :=
  .next (if flag s 3 stTimeBaseHoldover || flag s 1 fStrapsRefclkSrc then s
    else raise (setFlag s 3 stTimeBaseHoldover true) 3 evTimeBaseRefLost)

/-- REFCLK_RESTORED (R203). -/
def execRefclkRestored (s : State) : Answer := .next (setFlag s 3 stTimeBaseHoldover false)

end Sys2Proof.Machine
end

