-- ==== Sys2Proof/Machine/Health.lean ====
section
/-!
DEFINITION. The rows of the health monitor and of uncorrectable SRAM errors (16_reliability.md; R117, R137, R173), of events and
votes (R46, R60), and repeated timeouts (R451, R456).
-/

namespace Sys2Proof.Machine

/-! ### Uncorrectable SRAM errors (R117, R137, R173, R451) -/

/-- ACC_UE (R117): a tile reads an accumulator value with a double-bit error. -/
def execAccUe (g : CoreId) (a : ArrayId) (slot : Fin 64) (row : Fin 32) (s : State) : Answer :=
  .next (if (coreOf s g).tile.isNone then s else
    let s := abandonRunning (arrEvent s g fCoreAccUe) g
    sramUe (addRowCandidate s (accRowReq g a slot row true)) g)

/-- REG_UE (R137). -/
def execRegUe (g : CoreId) (s : State) : Answer :=
  .next (if (coreOf s g).tile.isNone then s else sramUe (abandonRunning s g) g)

/-- OC_UE (R173): a tile that reads is abandoned; an access of another master through the window ends in a bus error (R57). -/
def execOcUe (g : CoreId) (offset : BitVec 21) (reader : OcReader) (s : State) : Answer :=
  .next (if 0x180000 ≤ offset.toNat then s else
    match reader with
    | .tile => if (coreOf s g).tile.isNone then s else
      sramUe (addRowCandidate (abandonRunning s g) (ocRow g offset.toNat true)) g
    | .window m => sramUe (addRowCandidate (busError s m (ocBase + 0x200000 * g + offset.toNat) false) (ocRow g offset.toNat true)) g)

/-! ### Fencing and bring-in (R450 to R455, R535) -/

/-- CORE_HANG (R451): a core that is not idle 1 ms after an abandonment is fenced. -/
def execCoreHang (g : CoreId) (s : State) : Answer :=
  .next (
    let c := coreOf s g
    match c.abandonedAt with
    | none => s
    | some t =>
      let busy := c.tile.isNone && (c.asyncs.any (fun a => !a.suspended) || c.passes.any (fun p => !p.suspended))
      if busy && decide (t + 1000000 ≤ now s) then fenceCore s g 5 else s)

/-- CORE_BRING_IN (R448, R450, R452): the head of the class 0 queue takes the class. -/
def execCoreBringIn (s : State) : Answer :=
  .next (match s.health.coreRun, s.health.coreQ with
    | none, r :: rest =>
      if coresReleased s (coreDie r.core) then beginCore (setHealth s { s.health with coreQ := rest }) r else s
    | _, _ => s)

/-- SELF_TEST_DONE (R450, R452, R535). -/
def execSelfTestDone (g : CoreId) (passed : Bool) (s : State) : Answer :=
  .next (match s.health.coreRun with
    | none => s
    | some (r, t) =>
      if t ≠ g.val then s
      else if passed then
        let s := setHealth s { s.health with coreRun := none }
        if r.back then
          let s := setCoreState s g 1
          noteCores (setHealth s { s.health with coreCause := mapErase g.val s.health.coreCause }) false
        else noteCores (spareIn (setCoreState s g 0) 0 r.core) false
      else
        let s := fenceCore (setHealth s { s.health with coreRun := none }) g 3
        if r.back then s else beginCore s r)

/-- Key of a bank or array of a core whose spare rows are counted. -/
def partUse (r : RowReq) : Nat := (r.core * 2 + (if r.oc then 1 else 0)) * 64 + r.part

/-- First byte of an operand-cache row (R170). -/
def rowBase (r : RowReq) : Nat := 16 * (48 * r.row + r.part)

/-- Whether a flipped bit lies in a row of a core's SRAM. -/
def inRow (r : RowReq) (e : SoftError) : Bool :=
  if r.oc then inCache (rowBase r) 16 e else inAccRow r.part (r.row / 32) (r.row % 32) e

/-- Fill the replaced row with zero after a double-bit error; a suspended tile that holds bytes there is abandoned (R454). -/
def zeroRow (s : State) (r : RowReq) : State :=
  let c := accClean (coreOf s r.core) (inRow r)
  if r.oc then
    let a := rowBase r
    let s := setCore s r.core { c with oc := mapKeep (fun k _ => !(decide (a ≤ k) && decide (k < a + 16))) c.oc }
    abandonSuspended s r.core
  else
    let k := 2048 * r.part + r.row
    setCore s r.core { c with acc := c.acc.map (fun e => if e.1 = k then (e.1, e.2.map (fun _ => 0)) else e) }

/-- ROW_SPARE_REPLACE (R449, R454): the copy of a row reads it. -/
def execRowSpareReplace (g : CoreId) (s : State) : Answer :=
  .next (
    let head (oc : Bool) : Option RowReq := (s.health.rowQ.find? (fun r => r.oc == oc)).filter (fun r => r.core == g.val)
    if (coreOf s g).tile.isSome ∨ !(dieAwake s (coreDie g)) then s else
    match (head true).orElse (fun _ => head false) with
    | none => s
    | some r =>
      let cls := if r.oc then 2 else 3
      let limit := if r.oc then 4 else 8
      let used := mapGet (fun _ => 0) (partUse r) s.health.rowUsed
      let s := if r.zero then s else meet s r.core (fun e => flipLives (coreOf s r.core) e && inRow r e)
      let s := setHealth s { s.health with rowQ := s.health.rowQ.erase r }
      if limit ≤ used then fenceCore (logSpare s cls g 2) g 2
      else
        let s := setHealth s { s.health with rowUsed := mapPut (partUse r) (used + 1) s.health.rowUsed }
        let s := if r.zero then zeroRow s r else s
        spareIn (raiseIf (decide (used + 1 = limit)) s 6 evHealthSpareExhausted) cls g)

/-- A manager core fails; with the last one the watchdog resets the module (R455, R491). -/
def mgrFails (s : State) (m : Nat) : State :=
  let s := fenceMgr s m
  if (mgrServing s).isEmpty then moduleReset s (liveStraps s) 5 else s

/-- MGR_WATCHDOG (R455). -/
def execMgrWatchdog (mc : MgrCore) (s : State) : Answer := .next (mgrFails s mc)

/-- MGR_CACHE_UE (R455). -/
def execMgrCacheUe (mc : MgrCore) (s : State) : Answer := .next (mgrFails s mc)

/-- MGR_SPARE_START (R449, R455): a spare manager core takes the place of the fenced one. -/
def execMgrSpareStart (s : State) : Answer :=
  .next (match s.health.mgrQ with
    | [] => s
    | m :: rest =>
      let h := { s.health with mgrQ := rest }
      let free := (List.range 18).filter (fun k => h.mgrSpare.getLsbD k && !(h.mgrFenced.getLsbD k))
      match free with
      | [] => logSpare (setHealth s h) 1 m 2
      | k :: more =>
        let s := setHealth s { h with mgrSpare := h.mgrSpare &&& ~~~(BitVec.ofNat 18 (2 ^ k)) }
        noteMgr (spareIn (raiseIf more.isEmpty s 6 evHealthSpareExhausted) 1 m))

/-! ### The risk estimate (R457 to R459) -/

/-- A rise to RISK_LEVEL is reported: RISK_REPORTED, a KIND 3 entry, and a RISK packet, or the report applied here. -/
def reportRisk (s : State) (risk : Nat) : State :=
  let s := logEntry (raise s 6 evHealthRiskReported) 6 0xFF 3 [risk, fld s 9 fStore1RiskLevel, 0]
  let s := if isMember s then bump s 6 fHealthRiskReportCount else s
  if isMember s ∨ holdsRankZero s then toGm s 0 8 0 risk (fun s => takeRisk s risk) else s

/-- The score of an input after a second (R458). -/
def nextScore (s : State) (i : Nat) : Nat :=
  let old := mapGet (fun _ => 0) i s.health.scores
  min 65535 (old - old / 2 ^ fld s 6 fHealthRiskShift + riskWeight s i * mapGet (fun _ => 0) i s.health.cur)

/-- HEALTH_TICK (R457 to R459): one second. -/
def execHealthTick (s : State) : Answer :=
  .next (
    let l := (List.range 17).map (nextScore s)
    let risk := min 255 (l.foldl (· + ·) 0 / 256)
    let scores : SMap Nat := (l.zipIdx.map (fun e => (e.2, e.1))).filter (fun e => decide (e.2 ≠ 0))
    let s := setHealth s { s.health with scores := scores, lastSecond := s.health.cur, cur := [] }
    let s := setFld (setFld s 6 fHealthRisk risk) 6 fHealthRiskPeak (max risk (fld s 6 fHealthRiskPeak))
    let level := fld s 9 fStore1RiskLevel
    let s :=
      if level ≤ risk then setFlag s 6 stHealthRiskHigh true
      else if risk + 32 < level then setFlag s 6 stHealthRiskHigh false else s
    let armed := s.health.riskArmed || decide (risk + 32 < level)
    let s :=
      if armed && decide (level ≤ risk) then reportRisk (setHealth s { s.health with riskArmed := false }) risk
      else setHealth s { s.health with riskArmed := armed }
    pumpSession s)

/-! ### Persisting (R232, R365, R447, R464) -/

/-- DOWNTIME_PERSIST (R464). -/
def execDowntimePersist (s : State) : Answer :=
  .next (
    let h := s.health
    let t := now s
    let run := match h.downSince with
      | some a => t - a
      | none => 0
    let v := s.sys.saved
    let v := { v with health := { v.health with
      downTicks := if h.downExcl then h.downTicks else h.downTicks + run,
      exclTicks := if h.downExcl then h.exclTicks + run else h.exclTicks,
      poweredTicks := h.poweredTicks + (t - h.poweredSince) } }
    { s with sys := { s.sys with saved := v } })

/-- SYSTEM_AREA_PERSIST (R232, R365, R447): the system area takes all class P state. -/
def execSystemAreaPersist (s : State) : Answer :=
  .next (
    let old := s.sys.saved.health
    let v : Saved :=
      { regs := wipeRegs s.regs (fun _ => true) (fun f => f.hold != .p),
        wide := wipeWides s.wide (fun _ => true) (fun d => d.hold != .p),
        chans := s.mem.chans, replanPending := s.mem.replanPending, lastReplan := s.clk.lastReplan, rails := s.power.rails,
        health := { s.health with downTicks := old.downTicks, exclTicks := old.exclTicks, poweredTicks := old.poweredTicks } }
    { s with sys := { s.sys with saved := v } })

/-! ### Events and votes (R46, R60) -/

/-- The EVENT bits of a page that its interrupt source shows (R46). -/
def sourceBits (s : State) (page : Nat) : Nat := (regWord s page 0x24).toNat &&& (regWord s page 0x28).toNat

/-- What Fethaum reports on the session beside the log entry of an event: of a VERSION_MISMATCH the result record and the CHECK_ID, words 0
to 4 of LEDGER_LAST (R329, R337). -/
def noteMismatch (s : State) (page bits : Nat) : State :=
  if 0x60 ≤ page ∧ page < 0x64 ∧ bits.testBit evWorkerDieVersionMismatch then
    report s page ((List.range 5).map (wideWord (wideVal s page wLedgerLast)))
  else s

/-- EVENT_NOTIFY (R46): Fethaum reads EVENT on an asserted source and logs each bit it reads. -/
def execEventNotify (page : BitVec 12) (s : State) : Answer :=
  let p := page.toNat
  if (pageBlock p).isNone then .fault .noSuchUnit
  else .next (
    if sourceBits s p = 0 ∨ !(pageServed s p) ∨ modState s = msReset then s else
    let bits := (regWord s p 0x24).toNat
    let details := (List.range 32).filterMap (fun i => if bits.testBit i then some (i, eventDetail s p i) else none)
    pumpSession (details.foldl (fun s e => logEntry s p e.1 0 e.2) (setRegWord (noteMismatch s p bits) p 0x24 0)))

/-- VOTE_SCAN (R60): a block votes all its triplicated fields again. -/
def execVoteScan (page : BitVec 12) (s : State) : Answer :=
  let p := page.toNat
  if (pageBlock p).isNone then .fault .noSuchUnit
  else .next (((s.triple.filter (fun e => e.1 / 4096 == p)).map (·.1)).foldl voteKey s)

/-! ### Timeouts of a page (R451, R456) -/

/-- Note a timeout of a page; true with a second one within 1 s. -/
def noteTimeout (s : State) (key : Nat) : State × Bool :=
  let l := (mapGet (fun _ => ([] : List Nat)) key s.health.timeouts).filter (fun t => decide (now s ≤ t + 1000000000))
  if l.isEmpty then (setHealth s { s.health with timeouts := mapPut key [now s] s.health.timeouts }, false)
  else (setHealth s { s.health with timeouts := mapErase key s.health.timeouts }, true)

end Sys2Proof.Machine
end

