-- ==== Sys2Proof/Machine/SessionOps.lean ====
section
/-!
DEFINITION. Shared operations of the management session (R472 to R479): which datagrams are taken, delivery in SEQ order, the end
of a session, the checks of a COMMAND and its one RESPONSE.
-/

namespace Sys2Proof.Machine

/-! ### Taking a datagram -/

/-- Whether an address is IPv4, mapped (R499: first octet in bits [7:0]). -/
def isIpv4 (ip : BitVec 128) : Bool := decide (ip.toNat % 2 ^ 96 = 0xFFFF * 2 ^ 80)

/-- Whether the port is served: the link is up and the ROM or Fethaum runs. -/
def portServes (s : State) : Bool :=
  flag s 0x10 stMgmtLinkLinkUp && decide (modState s ≠ msReset) && decide (modState s ≠ msHalted) && !s.mgmt.txDisabled

/-- Whether a message of a peer is accepted: IPv6 only with IP6_EN = 1 (R498). -/
def acceptsPeer (s : State) (p : Peer) : Bool :=
  portServes s && (isIpv4 p.ip || flag s 0x11 fMgmtSessionIp6En)

/-- A frame is counted (R498). -/
def countFrame (s : State) : State := bump s 0x10 fMgmtLinkRxFrames

/-- A message is counted in MSG_BAD_COUNT and MSG_BAD is raised (R472, R474, R534). -/
def msgBad (s : State) : State := raise (bump s 0x11 fMgmtSessionMsgBadCount) 0x11 evMgmtSessionMsgBad

/-- The session that a header belongs to: bound to its sender and carrying its SESSION (R476). -/
def sessionFor (s : State) (h : MsgHdr) : Option Session :=
  match s.mgmt.session with
  | some x => if x.peer = h.peer ∧ x.id = h.session then some x else none
  | none => none

/-- The peer has been heard; its ACK is used (R475). -/
def hearPeer (s : State) (h : MsgHdr) : State :=
  match s.mgmt.session with
  | some x => takeAck (setSession s (some { x with heard := now s })) h.ack.toNat
  | none => s

/-- Send a KEEPALIVE, which repeats ACK (R475). -/
def sendKeepalive (s : State) : State := sendOut s 4 0 []

/-- A sequenced message is delivered: its number is acknowledged later, in the next message or within 10 ms (R475). -/
def deliverSeq (s : State) (h : MsgHdr) (act : State → State) : State :=
  match s.mgmt.session with
  | none => s
  | some x =>
    if h.seq.toNat = x.inSeq + 1 then
      act (setSession s (some { x with inSeq := x.inSeq + 1, ackOwed := some (x.ackOwed.getD (now s)) }))
    else sendKeepalive s

/-- An unsequenced message of a peer on channel `chan`: taken by `act` where it belongs to the session. -/
def takePlain (s : State) (h : MsgHdr) (act : State → State) : State :=
  if !(acceptsPeer s h.peer) then s else
  let s := countFrame s
  if h.chan ≠ 0 then msgBad s else
  match sessionFor s h with
  | none => s
  | some _ => act (hearPeer s h)

/-- A sequenced message: taken in SEQ order; on a channel its TYPE may not use it is acknowledged and discarded
(R475, R534). -/
def takeSequenced (s : State) (h : MsgHdr) (chanOk : Bool) (act : State → State) : State :=
  if !(acceptsPeer s h.peer) then s else
  let s := countFrame s
  match sessionFor s h with
  | none => s
  | some _ => deliverSeq (hearPeer s h) h (fun s => if chanOk then act s else msgBad s)

/-! ### The end of a session (R476, R504) -/

/-- A session ends: its uploads and transfers are abandoned, a slot still WRITING reads INVALID. -/
def endSession (s : State) : State :=
  match s.mgmt.session with
  | none => s
  | some x =>
    let s := abortXfer s
    let s := endWriting (setMgmt s { s.mgmt with session := none, lastSession := x.id, upload := none })
    raise s 0x11 evMgmtSessionSessionEnd

/-- The module ends the session: it first sends one CLOSE with a reason. -/
def closeSession (s : State) (reason : Nat) : State := endSession (sendOut s 3 0 (leBytes 4 reason))

/-- A new nonzero SESSION that differs from the last: which is left open. -/
def newSessionId (w last : BitVec 32) : BitVec 32 :=
  if w ≠ 0 ∧ w ≠ last then w else if last + 1 = 0 then 1 else last + 1

/-- Send an OPEN_RESP (R476): outside a session to a peer that is refused. -/
def sendOpenResp (s : State) (p : Peer) (id : BitVec 32) (busy : Bool) : State :=
  putMsg s ⟨p, 2, id, 0, 0, 0, leBytes 4 (if busy then 1 else 0) ++ leBytes 4 id.toNat⟩

/-- Bind a session to a peer (R476). -/
def bindSession (s : State) (p : Peer) (want : Nat) : State :=
  let s := endSession s
  let f := takeFree s 1
  let s := f.2
  let id := newSessionId (Config.freeWord f.1) s.mgmt.lastSession
  let x : Session := { peer := p, id := id, heard := now s, sentAt := now s, nextEvent := firstEvent s want }
  let s := setMgmt s { s.mgmt with lastSession := id, session := some x }
  pumpSession (sendOpenResp (raise s 0x11 evMgmtSessionSessionOpen) p id false)

/-! ### Commands (R470, R477) -/

/-- Status OK. -/
def rcOk : Nat := 0
/-- Status BUS_ERROR. -/
def rcBus : Nat := 1
/-- Status BAD_ARG. -/
def rcBadArg : Nat := 2
/-- Status UNKNOWN. -/
def rcUnknown : Nat := 3
/-- Status BUSY. -/
def rcBusy : Nat := 4
/-- Status NO_JOB. -/
def rcNoJob : Nat := 5
/-- Status JOB_RUNNING. -/
def rcJobRunning : Nat := 6
/-- Status PRESENCE. -/
def rcPresence : Nat := 7
/-- Status REFUSED. -/
def rcRefused : Nat := 8

/-- The one RESPONSE to a COMMAND; results only where the status is OK (R477). -/
def answerCmd (s : State) (op tag st : Nat) (results : List Byte) : State :=
  sendSeq s 0x11 0 (leBytes 2 op ++ [BitVec.ofNat 8 st, 0] ++ leBytes 4 tag ++ (if st = rcOk then results else [])) []

/-- The tag of a COMMAND; absent bytes are zero (R477). -/
def cmdTag (c : CmdMsg) : Nat := c.tag.toNat % 2 ^ (8 * min 4 (c.payloadLen - 4))

/-- The little-endian argument of `n` bytes at `off` (R532). -/
def argNat (c : CmdMsg) (off n : Nat) : Nat := leNat ((c.args.drop off).take n)

/-- Whether a COMMAND's payload has the form of its opcode (R477, R532). -/
def cmdFormOk (c : CmdMsg) (argLen : Nat) : Bool :=
  decide (8 ≤ c.payloadLen) && decide (c.zero = 0) && decide (c.args.length = argLen) && decide (c.payloadLen = 8 + argLen)

/-- What the module's state answers to an opcode before it is run (R478, R502): BUSY while it starts, REFUSED where the ROM or the
recovery image does not serve it. -/
def cmdGate (s : State) (op : Nat) : Option Nat :=
  let st := modState s
  if st = msBooting then (if [1, 2, 4, 0x23, 0x24].contains op then none else some rcBusy)
  else if st = msImageWait then (if [1, 0x43, 0x44, 0x45].contains op then none else some rcRefused)
  else if st = msRecovery then (if [1, 0x40, 0x41, 0x42, 0x43, 0x44, 0x45].contains op then none else some rcRefused)
  else none

/-- What a command does: the state it leaves, its status and its results, and what follows the response. -/
structure CmdResult where
  s : State
  status : Nat
  results : List Byte := []
  after : Option (State → State) := none

/-- A command turned away with a status. -/
def cmdFail (s : State) (status : Nat) : CmdResult := { s := s, status := status }

/-- Carry out a COMMAND (R470, R477): delivery in SEQ order, form, gate, effect, one response. -/
def serveCmd (s : State) (c : CmdMsg) (op argLen : Nat) (run : State → CmdResult) : State :=
  takeSequenced s c.hdr (decide (c.hdr.chan = 0)) (fun s =>
    if !(cmdFormOk c argLen) then answerCmd s op (cmdTag c) rcBadArg []
    else match cmdGate s op with
      | some st => answerCmd s op (cmdTag c) st []
      | none =>
        let r := run s
        let s := answerCmd r.s op (cmdTag c) r.status r.results
        match r.after with
        | some f => f s
        | none => s)

/-- Whether a job runs. -/
def jobRuns (s : State) : Bool := flag s 0 stManagerJobRunning

end Sys2Proof.Machine
end

