-- ==== Sys2Proof/Machine/JobOps.lean ====
section
/-!
DEFINITION. Job bundles and plans (R480 to R483): reading a bundle, the reasons to refuse it, loading it, and one action of a plan.
-/

namespace Sys2Proof.Machine

/-! ### Reading a bundle (R480 to R483) -/

/-- A section entry of a bundle. -/
structure SecEntry where
  typ : Nat
  rank : Nat
  zero : Nat
  off : Nat
  len : Nat
  dest : Nat
  deriving DecidableEq, Repr

/-- The section entry with number i. -/
def readSection (m : SMap Byte) (i : Nat) : SecEntry :=
  let n (o k : Nat) : Nat := sparseNat m (64 + 32 * i + o) k
  ⟨n 0 2, n 2 2, n 4 4, n 8 8, n 0x10 8, n 0x18 8⟩

/-- The section entries of a bundle. -/
def readSections (m : SMap Byte) : List SecEntry := (List.range (sparseNat m 8 4)).map (readSection m)

/-- Whether this member takes a section: its RANK is 0xFFFF or the member's (R480). -/
def takesSection (s : State) (e : SecEntry) : Bool := decide (e.rank = 0xFFFF) || decide (e.rank = fld s 0x31 fMembershipRank)

/-- Pieces of a section of `size` bytes each, by their place in the bundle. -/
def sectionItems (e : SecEntry) (size : Nat) : List Nat := (List.range (e.len / size)).map (fun k => e.off + size * k)

/-- A tensor-table entry (R481). -/
def readTensor (m : SMap Byte) (o : Nat) : TensorEntry :=
  let v := sparseNat m o 16
  ⟨bitsOf v 0 18, bitsOf v 18 2, bitsOf v 32 16, bitsOf v 48 16, bitsOf v 64 24, bitsOf v 88 16, bitsOf v 104 4⟩

/-- Whether a tensor-table entry is sound: the bits that R481 calls zero are zero, its placement and its format are no reserved
codes (R317, R373). -/
def tensorOk (m : SMap Byte) (o : Nat) : Bool :=
  let v := sparseNat m o 16
  let e := readTensor m o
  decide (bitsOf v 20 12 = 0) && decide (bitsOf v 108 20 = 0) && decide (e.placement ≠ 3) && decide (e.fmt ≤ 8)

/-- A shard-catalogue entry (R482). -/
def readCatEntry (m : SMap Byte) (o : Nat) : CatEntry :=
  ⟨sparseNat m o 8, sparseNat m (o + 8) 4, sparseNat m (o + 12) 4, sparseNat m (o + 16) 4, sparseNat m (o + 20) 2, sparseNat m (o + 22) 2⟩

/-- An action of a plan (R483). -/
def readAct (m : SMap Byte) (o : Nat) : PlanAct :=
  let f := sparseNat m (o + 4) 4
  { page := sparseNat m o 2, vid := sparseNat m (o + 2) 2, eachDie := f.testBit 0, incWord := bitsOf f 1 2,
    inc := BitVec.ofNat 64 (sparseNat m (o + 8) 8), words := (List.range 8).map (fun k => sparseNat m (o + 0x10 + 4 * k) 4) }

/-- A plan (R483). -/
def readPlan (m : SMap Byte) (e : SecEntry) : Plan :=
  { stepCtr := sparseNat m e.off 8, stepInc := BitVec.ofNat 64 (sparseNat m (e.off + 8) 8), first := sparseNat m (e.off + 16) 4,
    steps := sparseNat m (e.off + 20) 4, acts := (sectionItems { e with off := e.off + 32, len := e.len - 32 } 64).map (readAct m) }

/-- Whether a plan's bits that R483 calls zero are zero. -/
def planRsvdOk (m : SMap Byte) (e : SecEntry) : Bool :=
  decide (32 ≤ e.len) && decide ((e.len - 32) % 64 = 0) && decide (sparseNat m (e.off + 24) 8 = 0)
    && (sectionItems { e with off := e.off + 32, len := e.len - 32 } 64).all (fun o =>
      decide (sparseNat m (o + 4) 4 < 8) && decide (sparseNat m (o + 0x30) 16 = 0))

/-- An entry of a REGS section: page, offset, value (R480). -/
def readRegEntry (m : SMap Byte) (o : Nat) : Nat × Nat × Word :=
  let v := sparseNat m o 8
  (bitsOf v 0 16, bitsOf v 16 12, BitVec.ofNat 32 (v / 2 ^ 32))

/-- Pages that a REGS section and the guarded register commands may not name (R478, R480). -/
def hostOnlyPage (p : Nat) : Bool := decide (p = 1) || decide (p = 2) || (decide (0x10 ≤ p) && decide (p ≤ 0x1F))

/-- Whether a REGS entry may stand in a bundle. -/
def regEntryOk (m : SMap Byte) (o : Nat) : Bool :=
  decide (bitsOf (sparseNat m o 8) 28 4 = 0) && !(hostOnlyPage (readRegEntry m o).1)

/-- Whether the content of a section obeys R480 to R483. -/
def sectionOk (m : SMap Byte) (len : Nat) (e : SecEntry) : Bool :=
  decide (1 ≤ e.typ) && decide (e.typ ≤ 7) && decide (e.zero = 0) && decide (e.off + e.len ≤ len)
    && (match e.typ with
      | 2 => decide (e.len % 16 = 0) && (sectionItems e 16).all (tensorOk m)
      | 3 => decide (e.len % 32 = 0) && (sectionItems e 32).all (fun o => decide (sparseNat m (o + 24) 8 = 0))
      | 4 => planRsvdOk m e
      | 6 => decide (e.len % 8 = 0) && (sectionItems e 8).all (regEntryOk m)
      | _ => true)

/-- Whether a section is copied to DEST. -/
def isCopied (e : SecEntry) : Bool := decide (e.typ = 1) || decide (e.typ = 5)

/-- Whether no two ranges overlap. -/
def rangesApart : List SecEntry → Bool
  | [] => true
  | e :: l => l.all (fun f => decide (e.len = 0) || decide (f.len = 0) || decide (e.dest + e.len ≤ f.dest) || decide (f.dest + f.len ≤ e.dest))
      && rangesApart l

/-- Whether a bundle of `len` bytes may be loaded (R480): its codes, CRCs, destinations, REGS entries and JOB_ID. -/
def bundleOk (s : State) (m : SMap Byte) (len : Nat) (crc : Word) : Bool :=
  let all := sparseBytes m 0 len
  let secs := readSections m
  let mine := secs.filter (takesSection s)
  let copied := mine.filter isCopied
  let flags := sparseNat m 0 4
  let ids := ((mine.filter (fun e => decide (e.typ = 2))).map (fun e => (sectionItems e 16).map (fun o => (readTensor m o).id))).flatten
  decide (64 ≤ len) && decide (crc32 all = crc) && decide ((crc32 (all.drop 64)).toNat = sparseNat m 0xC 4)
    && decide (flags % 2 ^ 24 = 0x015A34) && decide (flags < 2 ^ 25) && decide (sparseNat m 0x10 8 = len)
    && decide (sparseNat m 0x28 24 = 0) && decide (1 ≤ sparseNat m 8 4) && decide (sparseNat m 8 4 ≤ 4096)
    && decide (64 + 32 * sparseNat m 8 4 ≤ len) && secs.all (sectionOk m len)
    && copied.all (fun e => decide (e.dest + e.len ≤ bulkEnd)) && rangesApart copied
    && allDistinct ids
    && (!(flags.testBit 24) || decide (sparseNat m 4 4 = fld s 0x31 fMembershipJobId))

/-! ### Loading -/

/-- The members of every section of a type. -/
def itemsOf (m : SMap Byte) (secs : List SecEntry) (typ size : Nat) {α : Type} (f : SMap Byte → Nat → α) : List α :=
  ((secs.filter (fun e => decide (e.typ = typ))).map (fun e => (sectionItems e size).map (f m))).flatten

/-- The job that a bundle describes to this member. -/
def readJob (s : State) (m : SMap Byte) : Job :=
  let secs := (readSections m).filter (takesSection s)
  { id := BitVec.ofNat 32 (sparseNat m 4 4), restart := (sparseNat m 0 4).testBit 24, key := BitVec.ofNat 128 (sparseNat m 0x18 16),
    tensors := itemsOf m secs 2 16 readTensor, catalogue := itemsOf m secs 3 32 readCatEntry,
    plan := (secs.find? (fun e => decide (e.typ = 4))).map (readPlan m), regs := itemsOf m secs 6 8 readRegEntry,
    ranksets := ((secs.filter (fun e => decide (e.typ = 7))).map (fun e => readRanksets e.len (sparseBytes m e.off e.len))).flatten }

/-- Define a rank set (R316); a set or count out of range is refused with CTRL_BAD. -/
def defineRankset (s : State) (x : Nat × List Nat) : State :=
  if x.1 = 0 ∨ 255 < x.1 ∨ x.2 = [] ∨ 16384 < x.2.length ∨ s.net.colls.any (fun c => c.desc.rankset == x.1) then
    raise s 0x31 evMembershipCtrlBad
  else setNet s { s.net with ranksets := mapPut x.1 x.2 s.net.ranksets }

/-- Copy sections to their destinations, up to one that ends in a bus error: then false (R57). -/
def copySections (s : State) (m : SMap Byte) : List SecEntry → State × Bool
  | [] => (s, true)
  | e :: l =>
    let r := memWrite s e.dest (sparseBytes m e.off e.len)
    if r.2 then copySections r.1 m l else r

/-- Copy the CODE and DATA sections that this member takes (R480). -/
def copyBundle (s : State) (m : SMap Byte) : State × Bool :=
  copySections s m (((readSections m).filter (takesSection s)).filter isCopied)

/-- No job is loaded: what stood at the destinations is overwritten in part. -/
def dropJob (s : State) : State := setFlag { s with job := none, planNext := none } 0 stManagerJobLoaded false

/-- Load a bundle whose sections have been copied (R480): JOB_ID, RNG_KEY on every die, rank sets. -/
def loadBundle (s : State) (m : SMap Byte) (len : Nat) : State :=
  let j := readJob s m
  let s := setFld s 0x31 fMembershipJobId j.id.toNat
  let s := (List.range 4).foldl (fun s d => setWide s (pgDie d) wRngKey (j.key.setWidth 256)) s
  let s := j.ranksets.foldl defineRankset s
  let s := setMgmt s { s.mgmt with jobHash := sha256 (sparseBytes m 0 len) }
  setFlag { s with job := some j, planNext := none } 0 stManagerJobLoaded true

/-- Write the REGS of the loaded job in class K (R480), and whether none of the writes ended in a bus error. -/
def putJobRegs (s : State) : State × Bool :=
  match s.job with
  | none => (s, true)
  | some j => j.regs.foldl (fun a e =>
      (let r := regPut a.1 (.k 0) e.1 e.2.1 e.2.2.toNat
       (r.1, a.2 && r.2))) (s, true)

/-- The state once the REGS of the loaded job are written. -/
def writeJobRegs (s : State) : State := (putJobRegs s).1

/-- The group manager of a restart takes rank 0 as its new holder and restores (R388). -/
def restartGroup (s : State) : State :=
  if !(holdsRankZero s) then s else
  let l : LostRank := { rank := 0, holder := moduleId s, upto := latestClutch s, restored := false }
  startRestore (setStore s { s.store with lost := s.store.lost.filter (fun x => decide (x.rank ≠ 0)) ++ [l] })

/-- Start the loaded job, whose REGS are written: the plan from its first step, the clutch period (R371, R483). -/
def startJob (s : State) (restart : Bool) : State :=
  let s := setFld (setFlag s 0 stManagerJobRunning true) 0 stManagerModuleState msRunning
  let s := { s with planNext := (s.job.bind (·.plan)).map (·.first) }
  let s := setHealth (setStore s { s.store with lastBell := some (now s) }) { s.health with jobCores := serviceable s }
  if restart then restartGroup s else s

/-! ### Steps of a plan (R483) -/

/-- The words of an action at step s of a plan: INC times the steps since the first is added to a word pair. -/
def actWords (a : PlanAct) (n : Nat) : List Nat :=
  let lo := a.words.getD (2 * a.incWord) 0
  let hi := a.words.getD (2 * a.incWord + 1) 0
  let v := (BitVec.ofNat 64 (lo + hi * 2 ^ 32) + a.inc * BitVec.ofNat 64 n).toNat
  (a.words.set (2 * a.incWord) (v % 2 ^ 32)).set (2 * a.incWord + 1) (v / 2 ^ 32)

/-- Whether a block's CTRL_BAD stands on a page. -/
def ctrlBadStands (s : State) (b : Block) (page : Nat) : Bool :=
  match ctrlBadBit b with
  | some e => (regWord s page 0x24).toNat.testBit e
  | none => false

/-- One mailbox write of a plan in class K: false where it ends in a bus error or CTRL_BAD. -/
def planWrite (s : State) (page vid : Nat) (ws : List Nat) : State × Bool :=
  match pageBlock page with
  | none => (s, false)
  | some b =>
    if !(pageServed s page) then (s, false) else
    let stood := ctrlBadStands s b page
    let clear (s : State) : State := match ctrlBadBit b with
      | some e => setRegWord s page 0x24 (BitVec.ofNat 32 (insertBits (regWord s page 0x24).toNat e 1 0))
      | none => s
    let s := mailboxPut (clear s) (.k 0) b page vid ws
    let bad := ctrlBadStands s b page
    let s := if stood then (match ctrlBadBit b with
      | some e => setRegWord s page 0x24 (BitVec.ofNat 32 (insertBits (regWord s page 0x24).toNat e 1 1))
      | none => s) else s
    (s, !bad)

/-- Carry out writes while they go well. -/
def planWrites (s : State) : List (Nat × Nat × List Nat) → State × Bool
  | [] => (s, true)
  | x :: l =>
    let r := planWrite s x.1 x.2.1 x.2.2
    if r.2 then planWrites r.1 l else r

/-- The writes of an action: one, or one per die. -/
def actWrites (a : PlanAct) (n : Nat) : List (Nat × Nat × List Nat) :=
  (if a.eachDie then [0, 1, 2, 3] else [0]).map (fun d => (a.page + d, a.vid, actWords a n))

/-- The plan ends: JOB_RUNNING falls. -/
def endPlan (s : State) : State :=
  let s := setFlag { s with planNext := none } 0 stManagerJobRunning false
  if modState s = msRunning then setFld s 0 stManagerModuleState msReady else s

/-- Begin step n of the plan (R483). -/
def planStep (s : State) (p : Plan) (n : Nat) : State :=
  let s := (List.range 4).foldl (fun s d => setFld s (pgDie d) fWorkerDieStep (n % 2 ^ 32)) s
  let r := planWrites s ((p.acts.map (fun a => actWrites a (n - p.first))).flatten)
  if r.2 then { r.1 with planNext := some (n + 1) } else raise (endPlan r.1) 0 evManagerPlanStopped

/-- Whether STEP_CTR has reached the target of step n (R483). -/
def stepReached (s : State) (p : Plan) (n : Nat) : Bool :=
  match (memReadNat s p.stepCtr 8).2 with
  | some v => counterReached (BitVec.ofNat 64 v) (BitVec.ofNat 64 (n - p.first) * p.stepInc)
  | none => false

end Sys2Proof.Machine
end

