-- ==== Sys2Proof/Machine/Management.lean ====
section
/-!
DEFINITION. Commands of the session (R477, R478, R532) but the security commands: registers, accesses cut short (R55 to R57), jobs, the port, power and transfers;
plan steps (R483), ingest (R484) and telemetry (R485).
-/

namespace Sys2Proof.Machine

/-! ### Registers and mailboxes -/

/-- GET_INFO (R532). -/
def execGetInfo (c : CmdMsg) (s : State) : Answer :=
  .next (serveCmd s c 1 0 (fun s =>
    { s := s, status := rcOk,
      results := leBytes 1 (modState s) ++ leBytes 4 (regWord s 1 0x100).toNat ++ leBytes 2 (moduleId s).toNat
        ++ leBytes 4 (presentWord s .manager 0 4) ++ leBytes 1 (fld s 2 stSecuritySlotRunning) }))

/-- Whether page and offset name a register word. -/
def regArgsOk (c : CmdMsg) : Bool := decide (argNat c 0 2 < 0x1000) && decide (argNat c 2 2 < 0x1000) && decide (argNat c 2 2 % 4 = 0)

/-- A register read by a command in a class (R478). -/
def cmdRegRead (m : Master) (c : CmdMsg) (s : State) : CmdResult :=
  if !(regArgsOk c) then cmdFail s rcBadArg else
  let r := regGet s m (argNat c 0 2) (argNat c 2 2)
  match r.2 with
  | some w => { s := r.1, status := rcOk, results := leBytes 4 w }
  | none => cmdFail r.1 rcBus

/-- A register write by a command in a class (R478). -/
def cmdRegWrite (m : Master) (c : CmdMsg) (s : State) : CmdResult :=
  if !(regArgsOk c) then cmdFail s rcBadArg else
  let r := regPut s m (argNat c 0 2) (argNat c 2 2) (argNat c 4 4)
  { s := r.1, status := if r.2 then rcOk else rcBus }

/-- Whether an access to a page ends in a bus error (R57). -/
def busFails (s : State) (m : Master) (page : Nat) : Bool :=
  (pageBlock page).isNone || !(reaches m page) || !(pageServed s page)

/-- MBX_STAT as it stands. -/
def mbxStat (s : State) (b : Block) (page : Nat) : Nat := presentWord s b page 0xE4

/-- A mailbox read by a command in a class: MBX_STAT, then the words; words 6 and 7 by a second read (R50, R52, R532). -/
def cmdMbxRead (m : Master) (c : CmdMsg) (s : State) : CmdResult :=
  let page := argNat c 0 2
  let vid := argNat c 2 2
  match pageBlock page with
  | none => cmdFail s rcBus
  | some b =>
    if busFails s m page then cmdFail s rcBus else
    let s := mailboxOp s m b page vid false false
    if flag s page fCommonErr then { s := s, status := rcOk, results := leBytes 4 (mbxStat s b page) } else
    let n := fld s page fCommonWords
    let low := ((List.range (min 6 n)).map (fun i => leBytes 4 (mbxWord s page i))).flatten
    if n ≤ 6 then { s := s, status := rcOk, results := leBytes 4 (mbxStat s b page) ++ low } else
    let s := mailboxOp s m b page vid true false
    { s := s, status := rcOk,
      results := leBytes 4 (mbxStat s b page) ++ low ++ leBytes 4 (mbxWord s page 0) ++ leBytes 4 (mbxWord s page 1) }

/-- A mailbox write by a command in a class (R51, R52, R532). -/
def cmdMbxWrite (m : Master) (c : CmdMsg) (s : State) : CmdResult :=
  let page := argNat c 0 2
  match pageBlock page with
  | none => cmdFail s rcBus
  | some b =>
    if busFails s m page then cmdFail s rcBus else
    let s := mailboxPut s m b page (argNat c 2 2) ((List.range 8).map (fun i => argNat c (4 + 4 * i) 4))
    { s := s, status := rcOk, results := leBytes 4 (mbxStat s b page) }

/-- Whether a register holds a field that needs the presence window. -/
def presenceField (page off : Nat) : Bool :=
  match pageBlock page with
  | some b => (fieldsAt b off).any (fun f => f.grd == .presence)
  | none => false

/-- Whether a mailbox value needs the presence window. -/
def presenceWide (page vid : Nat) : Bool :=
  match pageBlock page with
  | some b => (blockWides b).any (fun d => d.vid == vid && d.grd == .presence)
  | none => false

/-- A guarded register command (R470, R478): pages of the host are refused, and GP fields while the window is closed. -/
def guardedCmd (s : State) (c : CmdMsg) (presence : Bool) (run : CmdMsg → State → CmdResult) : CmdResult :=
  if hostOnlyPage (argNat c 0 2) then cmdFail s rcBadArg
  else if presence && !(presenceOpen s) then cmdFail s rcPresence
  else run c s

/-- REG_READ (R478). -/
def execRegRead (c : CmdMsg) (s : State) : Answer := .next (serveCmd s c 2 4 (cmdRegRead .x c))
/-- REG_WRITE (R478). -/
def execRegWrite (c : CmdMsg) (s : State) : Answer := .next (serveCmd s c 3 8 (cmdRegWrite .x c))
/-- MBX_READ (R532). -/
def execMbxRead (c : CmdMsg) (s : State) : Answer := .next (serveCmd s c 4 4 (cmdMbxRead .x c))
/-- MBX_WRITE (R532). -/
def execMbxWrite (c : CmdMsg) (s : State) : Answer := .next (serveCmd s c 5 36 (cmdMbxWrite .x c))

/-- REG_READ_K (R470). -/
def execRegReadK (c : CmdMsg) (s : State) : Answer :=
  .next (serveCmd s c 6 4 (fun s => guardedCmd s c false (cmdRegRead (.k 0))))

/-- REG_WRITE_K (R470). -/
def execRegWriteK (c : CmdMsg) (s : State) : Answer :=
  .next (serveCmd s c 7 8 (fun s => guardedCmd s c (presenceField (argNat c 0 2) (argNat c 2 2)) (cmdRegWrite (.k 0))))

/-- MBX_READ_K (R470). -/
def execMbxReadK (c : CmdMsg) (s : State) : Answer :=
  .next (serveCmd s c 8 4 (fun s => guardedCmd s c false (cmdMbxRead (.k 0))))

/-- MBX_WRITE_K (R470). -/
def execMbxWriteK (c : CmdMsg) (s : State) : Answer :=
  .next (serveCmd s c 9 36 (fun s => guardedCmd s c (presenceWide (argNat c 0 2) (argNat c 2 2)) (cmdMbxWrite (.k 0))))

/-! ### Accesses cut short (R55 to R57) -/

/-- A write that took effect just before its page lost power: what the page loses with power is lost again (R13, R15, R56). -/
def cutWrite (s : State) (m : Master) (page off value : Nat) : State :=
  match pageBlock page with
  | none => s
  | some b => ((fieldsAt b off).filter (fun f => f.acc == .rw && f.hold != .v && mayAccess s m f.grd)).foldl (fun s f =>
      if valueOk s b page f (bitsOf value f.lo f.width) value then setFld s page f (bitsOf value f.lo f.width) else s) s

/-- What follows when an access to a page has timed out twice within 1 s: a core is fenced, a ward's die is reset (R451, R456). -/
def pageTimeout (s : State) (page : Nat) : State :=
  match pageBlock page with
  | some .core =>
    let n := noteTimeout s page
    if n.2 && decide (coreState s (page - 0x100) = 0) then fenceCore n.1 (page - 0x100) 5 else n.1
  | some .ward =>
    let d := (page - 0x70) / 8
    let n := noteTimeout s (pgDie d)
    if n.2 then raise (resetDie n.1 d) 6 evHealthDomainFailed else n.1
  | _ => s

/-- The bus error of an access that was cut short, as its master sees it: a tile ends with REG_ERR (R57, R154). -/
def cutError (s : State) (m : Master) (addr : Nat) (store : Bool) : State :=
  let s := busError s m addr store
  match m with
  | .c g => match (coreOf s g).tile with
    | some t => tileFail s g causeRegErr t.ctx.pc 0 0
    | none => s
  | _ => s

/-- A register access that does not complete: its page has lost power (R56), or 50 µs have passed, which raises ACCESS_TIMEOUT
(R55). A write has been applied whole or not at all. -/
def cutAccess (s : State) (m : Master) (page off : Nat) (write : Option Nat) (applied : Bool) : State :=
  let a := regBase + 4096 * page + off
  if !(reaches m page) ∨ (pageBlock page).isNone then busError s m a write.isSome
  else if !(pageServed s page) then
    let s := match write, applied with
      | some v, true => cutWrite s m page off v
      | _, _ => s
    cutError s m a write.isSome
  else
    let s := match write, applied with
      | some v, true => (regPut s m page off v).1
      | _, _ => s
    pageTimeout (cutError (raise s 0 evManagerAccessTimeout) m a write.isSome) page

/-- The access of a register command that is cut short: the command fails with BUS_ERROR and the session goes on (R57). -/
def cutCommand (s : State) (m : Master) (c : CmdMsg) (write : Option Nat) (applied : Bool) : CmdResult :=
  if !(regArgsOk c) then cmdFail s rcBadArg
  else cmdFail (cutAccess s m (argNat c 0 2) (argNat c 2 2) write applied) rcBus

/-- ACCESS_TIMEOUT (R55 to R57). An access of a session's register command is that command: its page, offset and value are the
command's own. -/
def execAccessTimeout (m : Master) (addr : BitVec 44) (write : Option (BitVec 32)) (applied : Bool) (cmd : Option CmdMsg)
    (s : State) : Answer :=
  .next (match cmd, m, write with
    | some c, .x, none => serveCmd s c 2 4 (fun s => cutCommand s .x c none applied)
    | some c, .x, some _ => serveCmd s c 3 8 (fun s => cutCommand s .x c (some (argNat c 4 4)) applied)
    | some c, .k mc, none => serveCmd s c 6 4 (fun s => guardedCmd s c false (fun c s => cutCommand s (.k mc) c none applied))
    | some c, .k mc, some _ => serveCmd s c 7 8 (fun s =>
        guardedCmd s c (presenceField (argNat c 0 2) (argNat c 2 2)) (fun c s => cutCommand s (.k mc) c (some (argNat c 4 4)) applied))
    | _, _, _ => match regAddr addr.toNat 32 with
      | none => busError s m addr.toNat write.isSome
      | some x => cutAccess s m x.1 x.2 (write.map (·.toNat)) applied)

/-! ### Jobs -/

/-- JOB_LOAD (R478, R480, R504): the upload opens; the response follows with BUNDLE_COMPLETE. -/
def execJobLoad (c : CmdMsg) (s : State) : Answer :=
  .next (takeSequenced s c.hdr (decide (c.hdr.chan = 0)) (fun s =>
    let no (st : Nat) : State := answerCmd s 0x10 (cmdTag c) st []
    if !(cmdFormOk c 12) then no rcBadArg else
    match cmdGate s 0x10 with
    | some st => no st
    | none =>
      if jobRuns s then no rcJobRunning
      else if s.mgmt.upload.isSome ∨ modState s = msStandby then no rcBusy
      else
        let u : Upload := { slot := none, len := argNat c 0 8, crc := BitVec.ofNat 32 (argNat c 8 4), tag := BitVec.ofNat 32 (cmdTag c) }
        setMgmt s { s.mgmt with upload := some u }))

/-- BUNDLE_COMPLETE (R480). -/
def execBundleComplete (s : State) : Answer :=
  .next (match s.mgmt.upload with
    | none => s
    | some u =>
      if u.slot.isSome ∨ u.data.length < u.len then s else
      let s := setMgmt s { s.mgmt with upload := none }
      if !(bundleOk s u.data u.len u.crc) then answerCmd s 0x10 u.tag.toNat rcBadArg [] else
      let r := copyBundle s u.data
      if r.2 then answerCmd (loadBundle r.1 u.data u.len) 0x10 u.tag.toNat rcOk []
      else answerCmd (dropJob r.1) 0x10 u.tag.toNat rcBus [])

/-- JOB_START (R478): flags [0] restart, [31:1] zero; BUSY unless every worker die is awake. -/
def execJobStart (c : CmdMsg) (s : State) : Answer :=
  .next (serveCmd s c 0x11 4 (fun s =>
    if 1 < argNat c 0 4 then cmdFail s rcBadArg
    else if s.job.isNone then cmdFail s rcNoJob
    else if modState s ≠ msReady ∨ !((List.range 4).all (dieAwake s)) then cmdFail s rcBusy
    else
      let r := putJobRegs s
      if r.2 then { s := startJob r.1 (decide (argNat c 0 4 = 1)), status := rcOk } else cmdFail r.1 rcBus))

/-- JOB_STOP (R478). -/
def execJobStop (c : CmdMsg) (s : State) : Answer :=
  .next (serveCmd s c 0x12 0 (fun s => if s.job.isNone then cmdFail s rcNoJob else { s := endJob s, status := rcOk }))

/-- PLAN_STEP (R483): a step begins once STEP_CTR has reached its target; past the last step the plan ends. -/
def execPlanStep (s : State) : Answer :=
  .next (match s.planNext, s.job.bind (·.plan) with
    | some n, some p =>
      if !(jobRuns s) || !(stepReached s p n) then s
      else if p.steps ≠ 0 ∧ p.first + p.steps ≤ n then endPlan s
      else planStep s p n
    | _, _ => s)

/-! ### The port, telemetry, ingest, events -/

/-- NET_CONFIG's effect. -/
def netConfig (s : State) (c : CmdMsg) : State :=
  let flags := argNat c 2 2
  let s := setFld s 0x11 fMgmtSessionUdpPort (argNat c 0 2)
  let s := storeField s .mgmtSession 0x11 fMgmtSessionIp4Dhcp (flags % 2)
  let s := setFld s 0x11 fMgmtSessionIp6En (flags / 2 % 2)
  let s := setFld s 0x10 fMgmtLinkFecEn (flags / 4 % 2)
  let s := setFld s 0x11 fMgmtSessionIpv4Addr (argNat c 4 4)
  let s := setFld s 0x11 fMgmtSessionIpv4Prefix (argNat c 8 2)
  setFld s 0x11 fMgmtSessionSessionIdle (argNat c 10 2)

/-- Whether the arguments of NET_CONFIG lie in the ranges of their fields (R498, R532). -/
def netArgsOk (c : CmdMsg) : Bool :=
  decide (1024 ≤ argNat c 0 2) && decide (argNat c 2 2 < 8) && decide (1 ≤ argNat c 8 2) && decide (argNat c 8 2 ≤ 32)
    && decide (1 ≤ argNat c 10 2) && decide (argNat c 10 2 ≤ 600)

/-- NET_CONFIG (R532): applied after the response. -/
def execNetConfig (c : CmdMsg) (s : State) : Answer :=
  .next (serveCmd s c 0x13 12 (fun s =>
    if netArgsOk c then { s := s, status := rcOk, after := some (fun s => netConfig s c) } else cmdFail s rcBadArg))

/-- TELEMETRY_SET (R478). -/
def execTelemetrySet (c : CmdMsg) (s : State) : Answer :=
  .next (serveCmd s c 0x14 4 (fun s =>
    let ms := argNat c 0 4
    if ms = 0 ∨ (100 ≤ ms ∧ ms ≤ 60000) then
      { s := setMgmt s { s.mgmt with telemetry := ms, telemetryAt := now s }, status := rcOk }
    else cmdFail s rcBadArg))

/-- Step of the plan: the one begun last. -/
def planNow (s : State) : Nat :=
  match s.planNext, s.job.bind (·.plan) with
  | some n, some p => if p.first < n then n - 1 else p.first
  | _, _ => 0

/-- Hops of this module's time path: none at rank 0, one beside the group manager, else as many as the last heartbeat of the group manager
took on the same tree (R289, log 80). -/
def timeHops (s : State) : Nat :=
  if holdsRankZero s then 0
  else if (List.range 16).any (fun p => flag s (pgPort p) fPortTimeUpstream && portActive s p && partnerId s p == (gmId s).toNat) then 1
  else s.net.hops

/-- The core count that telemetry gives: while a job runs, that of its start or of the last capture bell (R453, R485). -/
def telemetryCores (s : State) : Nat := if flag s 0 stManagerJobRunning then s.health.jobCores else serviceable s

/-- The record of a TELEMETRY message (R485). -/
def telemetryBytes (s : State) : List Byte :=
  leBytes 8 (now s) ++ leBytes 4 (planNow s) ++ leBytes 4 (fld s 4 fPowerPIn + fld s 4 fPowerFGroup * 2 ^ 16)
    ++ leBytes 4 (bitsOf (presentWord s .thermal 5 0x10C) 0 8 + fld s 6 fHealthRisk * 2 ^ 8 + telemetryCores s % 2 ^ 11 * 2 ^ 16)
    ++ leBytes 8 ((downWide s).toNat % 2 ^ 64) ++ leBytes 1 (timeHops s) ++ [0, 0, 0] ++ List.replicate 32 0

/-- TELEMETRY_TX (R485). -/
def execTelemetryTx (s : State) : Answer :=
  .next (let m := s.mgmt
    if m.session.isNone ∨ m.telemetry = 0 ∨ now s < m.telemetryAt + m.telemetry * 1000000 then s else
    let s := sendOut s 0x30 6 (telemetryBytes s)
    setMgmt s { s.mgmt with telemetryAt := now s })

/-- INGEST_OPEN (R484). -/
def execIngestOpen (c : CmdMsg) (s : State) : Answer :=
  .next (serveCmd s c 0x15 36 (fun s =>
    let ring := argNat c 0 8
    let size := argNat c 8 8
    let record := argNat c 16 4
    let prod := argNat c 20 8
    let cons := argNat c 28 8
    if s.job.isNone then cmdFail s rcNoJob
    else if size = 0 ∨ size % 4096 ≠ 0 ∨ record = 0 ∨ size % record ≠ 0 ∨ bulkEnd < ring + size
        ∨ !(ctrOk prod) ∨ !(ctrOk cons) then cmdFail s rcBadArg
    else { s := { s with ingest := some ⟨ring, size, record, prod, cons, 0⟩ }, status := rcOk }))

/-- EVENTS_FROM (R486). -/
def execEventsFrom (c : CmdMsg) (s : State) : Answer :=
  .next (serveCmd s c 0x16 8 (fun s =>
    match s.mgmt.session with
    | none => cmdFail s rcOk
    | some x => { s := setSession s (some { x with nextEvent := firstEvent s (argNat c 0 8) }), status := rcOk,
                  after := some pumpSession }))

/-! ### Power -/

/-- The dies of a mask. -/
def maskDies (n : Nat) : List Nat := (List.range 4).filter (fun d => n.testBit d)

/-- DIE_SLEEP (R478, R492). -/
def execDieSleepCmd (c : CmdMsg) (s : State) : Answer :=
  .next (serveCmd s c 0x20 4 (fun s =>
    if 15 < argNat c 0 4 then cmdFail s rcBadArg
    else if jobRuns s then cmdFail s rcJobRunning
    else if !(atWork s) then cmdFail s rcRefused
    else { s := (maskDies (argNat c 0 4)).foldl sleepAction s, status := rcOk }))

/-- DIE_WAKE (R478, R492, R493); `lost` names what the restore fails for. -/
def execDieWakeCmd (c : CmdMsg) (lost : List (Nat × Nat)) (s : State) : Answer :=
  .next (serveCmd s c 0x21 4 (fun s =>
    if 15 < argNat c 0 4 then cmdFail s rcBadArg
    else if !(atWork s) then cmdFail s rcRefused
    else { s := (maskDies (argNat c 0 4)).foldl (fun s d => wakeAction s d lost) s, status := rcOk }))

/-- STANDBY (R478, R492). -/
def execStandbyCmd (c : CmdMsg) (s : State) : Answer :=
  .next (serveCmd s c 0x22 0 (fun s =>
    if jobRuns s then cmdFail s rcJobRunning else { s := enterStandby s true, status := rcOk }))

/-- WAKE (R478, R492, R493); `lost` names what the restore fails for. -/
def execWakeCmd (c : CmdMsg) (lost : List (Nat × Nat)) (s : State) : Answer :=
  .next (serveCmd s c 0x23 0 (fun s => { s := leaveStandby s lost, status := rcOk }))

/-- RESET (R478, R491): it takes effect after the response. -/
def execReset (c : CmdMsg) (s : State) : Answer :=
  .next (serveCmd s c 0x24 4 (fun s =>
    match argNat c 0 4 with
    | 0 => { s := s, status := rcOk, after := some warmReset }
    | 1 => { s := s, status := rcOk, after := some (fun s => moduleReset s (liveStraps s) 4) }
    | _ => cmdFail s rcBadArg))

/-! ### Transfers and clutches -/

/-- Select clutch and rank as XFER_SEL does. -/
def selectXfer (s : State) (c : CmdMsg) : State := setWide s 0xB wXferSel (wideOf [argNat c 0 4, argNat c 4 2])

/-- EXPORT (R390, R478). -/
def execExportCmd (c : CmdMsg) (s : State) : Answer :=
  .next (serveCmd s c 0x30 6 (fun s =>
    if 2 ^ 15 ≤ argNat c 4 2 then cmdFail s rcBadArg
    else if s.store.xfer.isSome then cmdFail s rcBusy
    else { s := selectXfer s c, status := rcOk, after := some (fun s => startExport s (argNat c 0 4) (argNat c 4 2)) }))

/-- IMPORT (R391, R478). -/
def execImportCmd (c : CmdMsg) (s : State) : Answer :=
  .next (serveCmd s c 0x31 6 (fun s =>
    if 2 ^ 15 ≤ argNat c 4 2 then cmdFail s rcBadArg
    else if jobRuns s then cmdFail s rcJobRunning
    else if s.store.xfer.isSome then cmdFail s rcBusy
    else { s := startImport (selectXfer s c) (argNat c 0 4) (argNat c 4 2), status := rcOk }))

/-- What an action of CLUTCH does. -/
def clutchAction (s : State) (a : Nat) : State :=
  match a with
  | 0 => triggerClutch s
  | 1 => abortClutch s 4
  | 2 => if flag s 0xA stStore2Restoring then s else startRestore s
  | _ => abortRestore s

/-- CLUTCH (R478): 0 TRIGGER, 1 CAPTURE_ABORT, 2 RESTORE, 3 RESTORE_ABORT, on the group manager. -/
def execClutch (c : CmdMsg) (s : State) : Answer :=
  .next (serveCmd s c 0x32 4 (fun s =>
    if 3 < argNat c 0 4 then cmdFail s rcBadArg
    else if !(holdsRankZero s) then cmdFail s rcRefused
    else { s := clutchAction s (argNat c 0 4), status := rcOk }))

/-! ### The restore bell (R382, R391) -/

/-- Quiesce at the restore bell: steps 1 to 3 of R382. -/
def quiesce (s : State) : State :=
  let s := (List.range 4).foldl abortUpd (abortColls s)
  let s := (List.range 4).foldl (fun s d =>
    setFlag (setFlag s (pgDisp d) fDispatcherEnable false) (pgDisp d) stDispatcherEnabled false) s
  let soft := softPages s (fun p => (List.range 4).any (fun d => onDie d p))
  let s := (List.range 4).foldl (fun s d => discardUpd (resetDie s d) d) s
  raiseDefaults (writeJobRegs s) soft

/-- RESTORE_BELL (R382): from the bell on this member quiesces, then reads its units, or waits for its import. -/
def execRestoreBell (s : State) : Answer :=
  .next (match s.store.restore with
    | none => s
    | some r =>
      if r.begun ∨ r.ended ∨ now s < r.bell then s else
      let s := quiesce s
      let s := setStore s { s.store with restore := some { r with begun := true } }
      if r.source = 0 then readOwnUnits s else finishImport s)

end Sys2Proof.Machine
end

