-- ==== Sys2Proof/Machine/Security.lean ====
section
/-!
DEFINITION. The security commands (R500 to R510): attestation, certificates, image slots, SVN_COMMIT, the presence window and the
debug path.
-/

namespace Sys2Proof.Machine

/-! ### Attestation (R506, R507) -/

/-- The 32 bytes of a 256-bit value. -/
def hashBytes (h : BitVec 256) : List Byte := leBytes 32 h.toNat

/-- The 256-byte body of a quote (R506). -/
def quoteBody (s : State) (nonce : List Byte) (index : Nat) : List Byte :=
  let b (v : Bool) (n : Nat) : Nat := if v then 2 ^ n else 0
  let flags := fld s 2 fSecuritySvnRunning + fld s 2 fSecuritySvnFuse * 2 ^ 6 + fld s 2 stSecuritySlotRunning * 2 ^ 12
    + b (flag s 2 stSecuritySealBroken) 14 + b (flag s 2 stSecurityDebugEn) 15 + b (presenceOpen s) 16
    + b (flag s 2 stSecurityJumper) 17 + b (flag s 2 stSecurityFallbackBoot) 18
  leBytes 4 0x015A36 ++ leBytes 4 (moduleId s).toNat ++ leBytes 8 (wideVal s 2 wSerial).toNat ++ nonce
    ++ hashBytes (wideVal s 2 wImageHash) ++ hashBytes s.mgmt.jobHash ++ leBytes 8 (now s) ++ leBytes 4 index ++ leBytes 4 flags
    ++ leBytes 4 (regWord s 1 0x100).toNat ++ leBytes 4 (fld s 0 fManagerResetCause) ++ List.replicate 120 0

/-- ATTEST (R506, R507): the index is reserved before it is used; the quote follows with QUOTE_READY. -/
def execAttest (c : CmdMsg) (s : State) : Answer :=
  .next (serveCmd s c 0x40 32 (fun s =>
    if otsLeft s = 0 then cmdFail s rcRefused else
    let u := otsUse s
    let body := quoteBody u.2 c.args u.1
    { s := setSec u.2 { u.2.sec with quote := [], building := some (body, u.1) }, status := rcOk, results := leBytes 4 5332 }))

/-- QUOTE_READY (R506): the signature, which RFC 8554 gives and this model leaves open, is complete. -/
def execQuoteReady (s : State) : Answer :=
  .next (match s.sec.building with
    | none => s
    | some x =>
      let q := x.1 ++ (List.range 5076).map (Config.signatureByte x.2 x.1)
      setSec s { s.sec with building := none, quote := q })

/-- QUOTE_READ (R510). -/
def execQuoteRead (c : CmdMsg) (s : State) : Answer :=
  .next (serveCmd s c 0x41 4 (fun s =>
    let o := argNat c 0 4
    if o % 1024 ≠ 0 ∨ s.sec.quote.length ≤ o then cmdFail s rcBadArg
    else { s := s, status := rcOk, results := (s.sec.quote.drop o).take 1024 }))

/-- Bytes of a certificate (R505): what the rule fixes, and open factory content elsewhere. -/
def certAt (s : State) (index place : Nat) : Byte :=
  if place = 0 then 0x37 else if place = 1 then 0x5A else if place = 2 then 1 else if place < 8 then 0
  else if place < 16 then
    if index = 1 then BitVec.ofNat 8 ((wideVal s 2 wSerial).toNat / 2 ^ (8 * (place - 8))) else Config.certByte index place
  else if 76 ≤ place ∧ place < 80 then 0
  else if 120 ≤ place ∧ place < 256 then 0
  else Config.certByte index place

/-- CERT_READ (R510): a body of 256 bytes and a signature of 2,964. -/
def execCertRead (c : CmdMsg) (s : State) : Answer :=
  .next (serveCmd s c 0x42 8 (fun s =>
    let i := argNat c 0 4
    let o := argNat c 4 4
    if 1 < i ∨ 3220 ≤ o then cmdFail s rcBadArg
    else { s := s, status := rcOk, results := (List.range (min 1024 (3220 - o))).map (fun k => certAt s i (o + k)) }))

/-! ### Image slots (R501, R504, R510) -/

/-- Whether a slot may be named now: RAM in IMAGE_WAIT alone, A and B elsewhere alone (R502, R510). -/
def slotServed (s : State) (b : Nat) : Bool := decide (b = 2) == decide (modState s = msImageWait)

/-- IMAGE_BEGIN's effect: the slot reads WRITING and its image is discarded. -/
def beginImage (s : State) (b len : Nat) : State :=
  let s := setSec s { s.sec with images := mapErase b s.sec.images }
  let s := if b < 2 then setSlot s b 3 0 else s
  let u : Upload := { slot := some b, len := len, crc := 0, tag := 0 }
  setMgmt s { s.mgmt with upload := some u }

/-- IMAGE_BEGIN (R504, R510). -/
def execImageBegin (c : CmdMsg) (s : State) : Answer :=
  .next (serveCmd s c 0x43 8 (fun s =>
    let b := argNat c 0 4
    let len := argNat c 4 4
    if 2 < b ∨ len ≤ imageFront ∨ imageFront + 8388608 < len then cmdFail s rcBadArg
    else if b < 2 ∧ !(presenceOpen s) then cmdFail s rcPresence
    else if !(slotServed s b) ∨ (b < 2 ∧ slotRuns s b) then cmdFail s rcRefused
    else if flag s 9 stStore1Capturing ∨ s.mgmt.upload.isSome then cmdFail s rcBusy
    else { s := beginImage s b len, status := rcOk }))

/-- The open upload of a slot. -/
def uploadOf (s : State) (b : Nat) : Option Upload :=
  match s.mgmt.upload with
  | some u => if u.slot = some b then some u else none
  | none => none

/-- The ROM runs a RAM image that passed: the start-up goes on (R502). -/
def bootRam (s : State) : State :=
  let s := setFld (runImage s 2 false) 0 stManagerModuleState msBooting
  powerDies (noteMgr s)

/-- An uploaded image has been judged: a slot reads VALID or INVALID, a RAM image that passed runs after the response. -/
def closeImage (s : State) (b : Nat) (im : ImageSlot) (reason : Nat) : CmdResult :=
  let s := setMgmt s { s.mgmt with upload := none }
  if reason = 0 then
    let s := setSec s { s.sec with images := mapPut b im s.sec.images }
    if b = 2 then { s := s, status := rcOk, results := leBytes 4 0, after := some bootRam }
    else { s := setSlot s b 1 (imageNat im 4 1), status := rcOk, results := leBytes 4 0 }
  else
    let s := rejectImage s (if b = 2 then 3 else b) reason
    { s := if b < 2 then setSlot s b 2 0 else s, status := rcOk, results := leBytes 4 reason }

/-- IMAGE_COMMIT (R501, R508, R510). -/
def execImageCommit (c : CmdMsg) (s : State) : Answer :=
  .next (serveCmd s c 0x44 8 (fun s =>
    let b := argNat c 0 4
    match uploadOf s b with
    | none => cmdFail s (if b = 2 ∧ modState s ≠ msImageWait then rcRefused else rcBadArg)
    | some u =>
      if b < 2 ∧ !(presenceOpen s) then cmdFail (setSlot (setMgmt s { s.mgmt with upload := none }) b 2 0) rcPresence
      else if u.data.length < u.len ∨ (crc32 (sparseBytes u.data 0 u.len)).toNat ≠ argNat c 4 4 then cmdFail s rcBadArg
      else
        let im : ImageSlot := ⟨u.data, u.len⟩
        closeImage s b im (verifyImage s (some im))))

/-- IMAGE_ERASE (R504, R510): an upload to the slot ends with it. -/
def execImageErase (c : CmdMsg) (s : State) : Answer :=
  .next (serveCmd s c 0x45 4 (fun s =>
    let b := argNat c 0 4
    if 1 < b then cmdFail s rcBadArg
    else if !(presenceOpen s) then cmdFail s rcPresence
    else if !(slotServed s b) ∨ slotRuns s b then cmdFail s rcRefused
    else if flag s 9 stStore1Capturing then cmdFail s rcBusy
    else
      let s := if (uploadOf s b).isSome then setMgmt s { s.mgmt with upload := none } else s
      { s := eraseSlot s b, status := rcOk }))

/-- SVN_COMMIT (R503). -/
def execSvnCommitCmd (c : CmdMsg) (s : State) : Answer :=
  .next (serveCmd s c 0x46 0 (fun s =>
    if !(presenceOpen s) then cmdFail s rcPresence
    else { s := svnCommitEffect s, status := if svnRefused s then rcRefused else rcOk }))

/-! ### Presence and debug (R508, R509) -/

/-- PRESENCE_STATUS (R510). -/
def execPresenceStatus (c : CmdMsg) (s : State) : Answer :=
  .next (serveCmd s c 0x47 0 (fun s =>
    { s := s, status := rcOk, results := leBytes 2 (presenceLeft s) ++ leBytes 1 (fld s 2 stSecurityJumper) }))

/-- Eight bytes of the memory map of the manager cores, read by the debug module: the private map where bit 47 is set, else the
module's address space (R32, R468, R509, log 61). -/
def debugRead (s : State) (a : Nat) : State × Option (List Byte) :=
  if a.testBit 47 then mgrRead s a 8
  else match ocAddr s a 8 with
    | some x => (meetOc s x.1 x.2 8, some (ocRead (coreOf s x.1) x.2 8))
    | none => if inBulk a && inBulk (a + 7) then memRead s a 8 else (s, none)

/-- The same for a write. -/
def debugWrite (s : State) (a : Nat) (bytes : List Byte) : State × Bool :=
  if a.testBit 47 then mgrWrite s a bytes
  else match ocAddr s a 8 with
    | some x => (setCore s x.1 (ocWrite (coreOf s x.1) x.2 bytes), true)
    | none => if inBulk a && inBulk (a + 7) then memWrite s a bytes else (s, false)

/-- Operation of DEBUG_ACCESS on a manager core: halt, resume, read, write (R509, R510). -/
def debugOp (s : State) (core op a value : Nat) : CmdResult :=
  let rest := s.sec.halted.filter (· != core)
  match op with
  | 0 => { s := setSec s { s.sec with halted := rest ++ [core] }, status := rcOk }
  | 1 => { s := setSec s { s.sec with halted := rest }, status := rcOk }
  | 2 =>
    let r := debugRead s a
    match r.2 with
    | some b => { s := r.1, status := rcOk, results := b }
    | none => cmdFail r.1 rcBus
  | _ =>
    let r := debugWrite s a (leBytes 8 value)
    if r.2 then { s := r.1, status := rcOk } else cmdFail r.1 rcBus

/-- DEBUG_ACCESS (R509, R510). -/
def execDebugAccess (c : CmdMsg) (s : State) : Answer :=
  .next (serveCmd s c 0x48 24 (fun s =>
    if 17 < argNat c 0 4 ∨ 3 < argNat c 4 4 then cmdFail s rcBadArg
    else if !(presenceOpen s) then cmdFail s rcPresence
    else if !(flag s 2 stSecurityDebugEn) then cmdFail s rcRefused
    else debugOp s (argNat c 0 4) (argNat c 4 4) (argNat c 8 8) (argNat c 16 8)))

/-- PRESENCE_PRESS (R508): ignored while RESET_L is low (R518). -/
def execPresencePress (s : State) : Answer :=
  .next (if s.sys.resetLow then s
    else notePresence (setSec s { s.sec with pressUntil := some (now s + 300 * 1000000000) }))

/-- PRESENCE_EXPIRY (R508). -/
def execPresenceExpiry (s : State) : Answer :=
  .next (match s.sec.pressUntil with
    | some t => if t ≤ now s then notePresence (setSec s { s.sec with pressUntil := none }) else s
    | none => s)

/-- Whether the seal loop is open by a resistance in ohms (R523). -/
def sealOpenAt (ohms : Nat) : Bool := decide (1000 < ohms)

/-- Whether it is in the marginal range. -/
def sealMarginalAt (ohms : Nat) : Bool := decide (20 < ohms) && decide (ohms ≤ 1000)

/-- Follow the seal loop at one sample (R509, R523). -/
def sampleSeal (s : State) (ohms : Nat) : State :=
  let x := s.sec
  let o := sealOpenAt ohms
  let m := sealMarginalAt ohms
  let s := setSec s { x with sealOpenSince := if o then some (x.sealOpenSince.getD (now s)) else none, sealMarginal := m,
                             sealAtPower := x.sealAtPower && o }
  let s := setFlag (setFlag s 1 fStrapsSealOpenNow o) 1 fStrapsSealMarginalNow m
  raiseIf (m && !x.sealMarginal) s 2 evSecuritySealMarginal

/-- Whether ALERT_L is driven low: an enabled source of ALERT_EN holds (R441). -/
def alertLow (s : State) : Bool :=
  let t := s.therm
  let ev := (regWord s 5 0x24).toNat
  let source (i : Nat) : Bool := match i with
    | 0 => flag s 4 stPowerWarnActive
    | 1 => flag s 4 stPowerCapped
    | 2 => (List.range 32).any (fun w => decide (thermReq s w < 16))
    | 3 => decide (fld s 5 stThermalDieTripped ≠ 0)
    | 4 => t.inletHigh || t.inletLow || t.outletHigh || t.flowLow || t.flowLost
    | _ => ev.testBit evThermalHeatImbalance || ev.testBit evThermalSensorOpen
  (List.range 6).any (fun i => (fld s 4 fPowerAlertEn).testBit i && source i)

/-- PIN_SAMPLE (R508, R523, R529): live pins, the jumper and the seal, from the always-on domain. -/
def execPinSample (p : PinLevels) (s : State) : Answer :=
  .next (
    let s := setFlag (setFlag (setFlag s 1 fStrapsPlLow p.powerLimitLow) 1 fStrapsBtnLow p.btnLow) 1 fStrapsLosHigh p.losHigh
    let s := setFlag (setFlag s 1 fStrapsTxdisHigh s.mgmt.txDisabled) 1 fStrapsAlertLow (alertLow s)
    let s := setFld s 1 fStrapsStrapsLive p.straps.toNat
    notePresence (setFlag (sampleSeal s p.sealOhms) 2 stSecurityJumper p.jumper))

/-- SEAL_BREAK (R509): the loop is open at power-on, or has been open for 10 ms. -/
def execSealBreak (s : State) : Answer :=
  .next (match s.sec.sealOpenSince with
    | none => s
    | some t =>
      if flag s 2 stSecuritySealBroken ∨ (now s < t + 10000000 ∧ !s.sec.sealAtPower) then s else
      raise (fuseFld (fuseFld s 2 stSecuritySealBroken 1) 2 stSecurityDebugEn 1) 2 evSecuritySealOpened)

end Sys2Proof.Machine
end

