-- ==== Sys2Proof/Machine/Pins.lean ====
section
/-!
DEFINITION. Rows of the pins, the sideband, start-up and ward nap (R472, R487 to R492, R497, R518).
-/

namespace Sys2Proof.Machine

/-! ### The SMBus sideband (R487) -/

/-- The word of code 0x01. -/
def smbusStatus (s : State) : Nat :=
  let b (v : Bool) (n : Nat) : Nat := if v then 2 ^ n else 0
  modState s + strapRole s * 2 ^ 4 + b (flag s 6 stHealthDegraded) 6 + b (jobRuns s) 7 + b s.mgmt.session.isSome 8
    + b (flag s 4 stPowerWarnActive) 9 + b (flag s 4 stPowerCapped) 10
    + b ((List.range 32).any (fun w => decide (thermReq s w < 16))) 11 + b (decide (fld s 5 stThermalDieTripped ≠ 0)) 12
    + b (flag s 6 stHealthRiskHigh) 13

/-- The values of every code, as numbers whose bytes go out lowest first. -/
def smbusValues (s : State) : List (Nat × Nat) :=
  let tmax := bitsOf (presentWord s .thermal 5 0x10C) 0 8
  [ (0x00, 0x504C + 0x4731 * 2 ^ 16 + presentWord s .manager 0 4 % 2 ^ 16 * 2 ^ 32
      + (wideVal s 2 wSerial).toNat % 2 ^ 64 * 2 ^ 48 + (moduleId s).toNat * 2 ^ 112),
    (0x01, smbusStatus s), (0x02, fld s 4 fPowerPIn), (0x03, fld s 4 fPowerVIn), (0x04, tmax),
    (0x05, fld s 5 fThermalTIn), (0x06, fld s 5 fThermalTOut), (0x07, fld s 5 fThermalFlow),
    (0x08, 800 + 25 * fld s 4 fPowerFGroup), (0x09, serviceable s), (0x0A, fld s 6 fHealthRisk),
    (0x0B, (presentWide s .thermal 5 wWardTemps).toNat) ]

/-- Bytes that a code returns; a Block Read sends its byte count first. -/
def smbusSize (code : Nat) : Option (Nat × Bool) :=
  if code = 0 then some (16, true) else if code = 0xA then some (1, false) else if code = 0xB then some (32, true)
  else if code < 0xA then some (2, false) else none

/-- One step of the PEC of SMBus, a CRC-8 with polynomial 0x07 (PRESUMED: the manual only names the PEC). -/
def pecByte (c : Nat) (b : Nat) : Nat :=
  (List.range 8).foldl (fun c _ => if c.testBit 7 then ((2 * c) ^^^ 0x07) % 256 else 2 * c % 256) (c ^^^ b)

/-- SMBUS_REFRESH (R487): every value is taken at one moment. -/
def execSmbusRefresh (s : State) : Answer := .next (setMgmt s { s.mgmt with smbus := smbusValues s })

/-- SMBUS_READ (R487): a write or an undefined code is NACKed and returns nothing; the address byte is 0x5C. -/
def execSmbusRead (code : BitVec 8) (write pec : Bool) (s : State) : Answer :=
  .next (match write, smbusSize code.toNat with
    | false, some n =>
      let data := leBytes n.1 (mapGet (fun _ => 0) code.toNat s.mgmt.smbus)
      let body := (if n.2 then [BitVec.ofNat 8 n.1] else []) ++ data
      let crc := ([0xB8, code.toNat, 0xB9] ++ body.map (·.toNat)).foldl pecByte 0
      setMgmt s { s.mgmt with smbusReply := some (body ++ (if pec then [BitVec.ofNat 8 crc] else [])) }
    | _, _ => setMgmt s { s.mgmt with smbusReply := none })

/-! ### The management link (R472, R497, R518) -/

/-- The link goes down. -/
def linkDown (s : State) : State :=
  if !(flag s 0x10 stMgmtLinkLinkUp) then s else
  raise (setFlag (setFlag s 0x10 stMgmtLinkLinkUp false) 0x10 stMgmtLinkFecOn false) 0x10 evMgmtLinkLinkDown

/-- PCS_BLOCK_LOCK (R472, R497): FEC_EN is read at link start, at 25G. -/
def execPcsBlockLock (locked : Bool) (s : State) : Answer :=
  .next (if !locked then linkDown s
    else if flag s 0x10 stMgmtLinkLinkUp then s
    else
      let fec := flag s 0x10 fMgmtLinkFecEn && !(flag s 1 fStrapsMgmtMode)
      raise (setFlag (setFlag s 0x10 stMgmtLinkLinkUp true) 0x10 stMgmtLinkFecOn fec) 0x10 evMgmtLinkLinkUp)

/-- MGMT_LOS (R518). -/
def execMgmtLos (s : State) : Answer := .next (linkDown s)

/-- The IPv4 address in use: the lease with IP4_DHCP = 1, else IPV4_ADDR (R498). -/
def ipv4Now (s : State) : Option (BitVec 32) :=
  if flag s 0x11 fMgmtSessionIp4Dhcp then s.mgmt.lease.map (·.1)
  else some (BitVec.ofNat 32 (fld s 0x11 fMgmtSessionIpv4Addr))

/-- MAC_ADDR as octets, first octet first (R499). -/
def macBytes (s : State) : List Byte := leBytes 6 ((wideVal s 0x11 wMacAddr).toNat)

/-- The link-local address formed from MAC_ADDR, first octet in bits [7:0] (R472); the EUI-64 form is PRESUMED. -/
def linkLocal (s : State) : BitVec 128 :=
  let m := macBytes s
  BitVec.ofNat 128 (leNat ([0xFE, 0x80, 0, 0, 0, 0, 0, 0, m.getD 0 0 ^^^ 0x02, m.getD 1 0, m.getD 2 0, 0xFF, 0xFE,
    m.getD 3 0, m.getD 4 0, m.getD 5 0]))

/-- The answer to a request on the port, where the module gives one: a hardware address, or the echoed data. -/
def echoAnswer (s : State) : EchoReq → Option (List Byte)
  | .arp target => if ipv4Now s = some target then some (macBytes s) else none
  | .neighbour target => if flag s 0x11 fMgmtSessionIp6En && decide (target = linkLocal s) then some (macBytes s) else none
  | .echo4 _ data => if (ipv4Now s).isSome then some data else none
  | .echo6 _ data => if flag s 0x11 fMgmtSessionIp6En then some data else none

/-- ICMP_ECHO (R472). -/
def execIcmpEcho (q : EchoReq) (s : State) : Answer :=
  .next (if !(portServes s) then s else
    let s := countFrame s
    match echoAnswer s q with
    | none => s
    | some b => bump (setMgmt s { s.mgmt with replies := s.mgmt.replies ++ [b] }) 0x10 fMgmtLinkTxFrames)

/-- DHCPV4 (R472). -/
def execDhcpv4 (lease : BitVec 32) (prefixLen : BitVec 6) (s : State) : Answer :=
  .next (if !(portServes s) then s else
    let s := countFrame s
    if flag s 0x11 fMgmtSessionIp4Dhcp then setMgmt s { s.mgmt with lease := some (lease, prefixLen) } else s)

/-! ### Start-up and resets (R490, R491) -/

/-- POWER_ON (R490): the seal loop is judged anew. -/
def execPowerOn (straps : BitVec 12) (s : State) : Answer :=
  .next (powerOnReset (setSec s { s.sec with sealAtPower := true }) straps)

/-- RESET_L_LOW (R491, R518): 1 µs or longer resets the module and holds it; below 100 ns nothing happens; between them either. -/
def execResetLLow (ns : Nat) (s : State) : Answer :=
  .next (let hold (s : State) : State := moduleReset { s with sys := { s.sys with resetLow := true } } (liveStraps s) 2
    if 1000 ≤ ns then hold s
    else if ns < 100 then s
    else
      let f := takeFree s 1
      if Config.freeBool f.1 then hold f.2 else f.2)

/-- RESET_L_RELEASE (R491): boot starts, or restarts, with the straps sampled. -/
def execResetLRelease (straps : BitVec 12) (s : State) : Answer :=
  .next (if !s.sys.resetLow then s else
    let s := { s with sys := { s.sys with resetLow := false } }
    if s.sys.supplyLow then s else startModule s straps)

/-- Group roles at the end of start-up: JSTATE by the ROLE strap (R291, R314); a warm reset keeps it. -/
def startRole (s : State) : State :=
  if s.sys.warm then s
  else if strapRole s = 2 then setFld (setFld s 0x31 stMembershipJstate jsManager) 0x31 fMembershipRank 0
  else if strapRole s = 0 then setFld (setFld s 0x31 stMembershipJstate jsStandalone) 0x31 fMembershipRank 0
  else s

/-- Whether every channel has been trained or has failed. -/
def channelsUp (s : State) : Bool := (List.range 128).all (fun c => (chanOf s c).failed || (chanOf s c).rate.isSome)

/-- A core that fails its self-test at start-up is fenced, with cause 3 of R450. -/
def releaseCore (s : State) (g : Fin 1216) : State := if coreState s g.val < 2 then fenceCore s g.val 3 else s

/-- CORE_RELEASE (R490): after fill and calibration cores are released and the module is READY; after a warm reset each update
unit's journal restarts (R494). -/
def execCoreRelease (failed : List (Fin 1216)) (s : State) : Answer :=
  .next (if modState s ≠ msBooting ∨ !(channelsUp s) ∨ !s.mem.filled then s else
    let s := failed.foldl releaseCore s
    let s := startRole (setFlag s 3 stTimeBaseLocked true)
    let s := if s.sys.warm then (List.range 4).foldl journalRestart s else s
    let s := setFld { s with sys := { s.sys with warm := false } } 0 stManagerModuleState (workState s)
    noteCores s true)

/-! ### Ward nap (R122, R186, R198, R492) -/

/-- Whether a task waits that cores of a ward may pull, or a ramp time of the ward is at most 2 µs away. -/
def wardWanted (s : State) (w : Nat) : Bool :=
  let d := w / 8
  let x := dispOf s d
  let soon (e : StoreEntry) : Bool := match e.bell with
    | .at t l k => !(e.rung.getLsbD (w % 8)) && decide (rampTime t l k d (w % 8) ≤ wardTime s w + 2000)
    | .barrier _ => false
  !((pullable x (w % 8)).isEmpty) || x.store.any soon

/-- Whether a ward holds no running tile and no pass. -/
def wardIdle (s : State) (w : Nat) : Bool :=
  (wardCores w).all (fun g => (coreOf s g).tile.isNone && (coreOf s g).shadow.isNone && (coreOf s g).passes.isEmpty)

/-- WARD_NAP (R492): a ward of an awake die that has been idle for NAP_DELAY naps. -/
def execWardNap (w : WardId) (s : State) : Answer :=
  .next (if !(dieAwake s (w.val / 8)) || flag s (pgWard w.val) stWardNap || !(wardIdle s w.val) || wardWanted s w.val
      || !(coresReleased s (w.val / 8)) then s
    else replanNap (setFlag s (pgWard w.val) stWardNap true) w.val)

/-- WARD_WAKE (R492). -/
def execWardWake (w : WardId) (s : State) : Answer :=
  .next (if flag s (pgWard w.val) stWardNap && wardWanted s w.val then setFlag s (pgWard w.val) stWardNap false else s)

end Sys2Proof.Machine
end

