-- ==== Sys2Proof/Machine/Sequencer.lean ====
section
/-!
DEFINITION. The tile instructions (R142 to R148, R150, R151) and the steps of a tile on its core: start, load, end of
COMMIT, suspension and resume, completion of operations and passes, waits. Each row fetches the word at the PC; the
words of R142 that read or write registers stand in CoreRegs.lean.
-/

namespace Sys2Proof.Machine

/-! ### Control -/

/-- NOP (R142). -/
def execNop (g : CoreId) (s : State) : Answer := .next (issue s g 0x00 (fun s t _ => finish s g t t.ctx))

/-- JMP (R142). -/
def execJmp (g : CoreId) (s : State) : Answer :=
  .next (issue s g 0x01 (fun s t i => moveOn s g t t.ctx.pc (jumpTo t.ctx (fieldsOf i).imm)))

/-- BR (R143). -/
def execBr (g : CoreId) (s : State) : Answer :=
  .next (issue s g 0x02 (fun s t i =>
    let f := fieldsOf i
    if brFn f.fn (getS t.ctx f.a) (getS t.ctx f.b) then moveOn s g t t.ctx.pc (jumpTo t.ctx f.imm)
    else finish s g t t.ctx))

/-- LOOP (R146): depth first, then the target. -/
def execLoop (g : CoreId) (s : State) : Answer :=
  .next (issue s g 0x03 (fun s t i =>
    let f := fieldsOf i
    let x := t.ctx
    let outer := match x.loops with
      | [] => 8192
      | e :: _ => e.last
    if x.loops.length ≥ 4 then tileFail s g causeStack x.pc 0 0
    else if f.imm < x.pc + 1 ∨ f.imm ≥ t.task.len ∨ f.imm > outer then tileFail s g causeCodeRange x.pc 0 0
    else
      let n := (getS x f.a).toNat % 2 ^ 32
      if n = 0 then moveOn s g t x.pc (advance { x with pc := f.imm })
      else moveOn s g t x.pc { putS x f.d 0 with pc := x.pc + 1, loops := ⟨x.pc + 1, f.imm, n, 0, f.d⟩ :: x.loops }))

/-- CALL (R146). -/
def execCall (g : CoreId) (s : State) : Answer :=
  .next (issue s g 0x04 (fun s t i =>
    let x := t.ctx
    if x.calls.length ≥ 8 then tileFail s g causeStack x.pc 0 0
    else moveOn s g t x.pc (jumpTo { x with calls := (x.pc + 1) :: x.calls } (fieldsOf i).imm)))

/-- RET (R146). -/
def execRet (g : CoreId) (s : State) : Answer :=
  .next (issue s g 0x05 (fun s t _ =>
    match t.ctx.calls with
    | [] => tileFail s g causeStack t.ctx.pc 0 0
    | r :: rest => moveOn s g t t.ctx.pc (jumpTo { t.ctx with calls := rest } r)))

/-- ABORT (R142). -/
def execAbort (g : CoreId) (s : State) : Answer :=
  .next (issue s g 0x06 (fun s t i => tileFail s g causeAbort t.ctx.pc 0 (fieldsOf i).imm))

/-- COMMIT begins: the tile waits for its operations and passes (R152 step 1). -/
def execCommit (g : CoreId) (s : State) : Answer :=
  .next (issue s g 0x07 (fun s t _ => setTile s g { t with phase := .commitWait }))

/-! ### Scalars -/

/-- LI (R142). -/
def execLi (g : CoreId) (s : State) : Answer :=
  .next (issue s g 0x10 (fun s t i => let f := fieldsOf i; finish s g t (putS t.ctx f.d (BitVec.ofInt 64 f.simm))))

/-- ADDI (R142). -/
def execAddi (g : CoreId) (s : State) : Answer :=
  .next (issue s g 0x11 (fun s t i =>
    let f := fieldsOf i
    finish s g t (putS t.ctx f.d (getS t.ctx f.a + BitVec.ofInt 64 f.simm))))

/-- LIH (R142). -/
def execLih (g : CoreId) (s : State) : Answer :=
  .next (issue s g 0x12 (fun s t i =>
    let f := fieldsOf i
    finish s g t (putS t.ctx f.d (BitVec.ofNat 64 (f.imm % 2 ^ 24 * 2 ^ 40 + (getS t.ctx f.d).toNat % 2 ^ 40)))))

/-- SOP (R143). -/
def execSop (g : CoreId) (flips : List SoftError) (s : State) : Answer :=
  .next (issue (plant s g flips) g 0x13 (fun s t i =>
    let f := fieldsOf i
    finish s g t (putS t.ctx f.d (sopFn f.fn (getS t.ctx f.a) (getS t.ctx f.b)))))

/-- Bytes of an SLD or SST by FN (R143). -/
def scalarBytes (fn : Nat) : Nat := 2 ^ (if fn < 4 then fn else fn - 4)

/-- Extend a loaded value by FN (R143). -/
def loadValue (fn v : Nat) : Dword :=
  if fn < 4 then BitVec.ofNat 64 v
  else
    let n := 8 * scalarBytes fn
    BitVec.ofInt 64 (if v ≥ 2 ^ (n - 1) then (v : Int) - 2 ^ n else v)

/-- SLD (R143, R139). -/
def execSld (g : CoreId) (s : State) : Answer :=
  .next (issue s g 0x14 (fun s t i =>
    let f := fieldsOf i
    let a := regImm t.ctx f.a f.simm
    let n := scalarBytes f.fn
    if a % n ≠ 0 ∨ !(inOc a n) then tileFail s g causeOcRange t.ctx.pc a 0
    else finish (meetOc s g a n) g t (putS t.ctx f.d (loadValue f.fn (ocNat (coreOf s g) a n)))))

/-- Write the operand cache for the running tile, or end it with OC_RANGE where the range, the alignment or the
pre-emption window, given as `free`, forbids it (R139, R174). -/
def tileStore (s : State) (g : Nat) (t : Tile) (a align len : Nat) (free : Bool) (put : Core → Core) : State :=
  if a % align ≠ 0 ∨ !(inOc a len) ∨ !free then tileFail s g causeOcRange t.ctx.pc a 0
  else finish (setCore s g (put (coreOf s g))) g t t.ctx

/-- SST (R143, R139, R174). -/
def execSst (g : CoreId) (s : State) : Answer :=
  .next (issue s g 0x15 (fun s t i =>
    let f := fieldsOf i
    let a := regImm t.ctx f.a f.simm
    let n := scalarBytes f.fn
    tileStore s g t a n n (guardOk s g (coreOf s g) a n) (fun c => ocWrite c a (leBytes n ((getS t.ctx f.d).toNat % 256 ^ n)))))

/-- TIME (R142, R201). -/
def execTime (g : CoreId) (s : State) : Answer :=
  .next (issue s g 0x18 (fun s t i =>
    finish s g t (putS t.ctx (fieldsOf i).d (BitVec.ofNat 64 (wardTime s (coreWard g))))))

/-! ### Copies and staging -/

/-- Whether a length of DMA, PUT or FPUT is allowed (R142). -/
def copyLenOk (n : Nat) : Bool := decide (16 ≤ n) && decide (n ≤ 0x180000) && decide (n % 16 = 0)

/-- Whether the core may hold one more asynchronous operation (R149). -/
def asyncRoom (c : Core) : Bool := decide (c.asyncs.length < 32)

/-- Issue a DMA from bulk memory of this module (R139, R142). -/
def dmaFromBm (s : State) (g : Nat) (t : Tile) (tag dst src shown len : Nat) : State :=
  if src % 16 ≠ 0 ∨ src + len > bulkEnd then tileFail s g causeMemErr t.ctx.pc shown 0
  else finish (addOp s g tag t.ctx.pc (.dmaBm dst src len)) g t t.ctx

/-- DMA (R142, R149): with 32 operations outstanding it does not issue. -/
def execDma (g : CoreId) (s : State) : Answer :=
  .next (issue s g 0x20 (fun s t i =>
    let f := fieldsOf i
    let c := coreOf s g
    let dst := (getS t.ctx f.a).toNat
    let src := (getS t.ctx f.b).toNat
    let len := (getS t.ctx f.c).toNat
    if !(asyncRoom c) then s
    else if !(copyLenOk len) then tileFail s g causeOcRange t.ctx.pc dst 0
    else if dst % 16 ≠ 0 ∨ !(inOc dst len) ∨ !(guardOk s g c dst len) then tileFail s g causeOcRange t.ctx.pc dst 0
    else match f.fn with
      | 0 => dmaFromBm s g t f.imm dst src src len
      | 1 =>
        if src % 16 ≠ 0 ∨ !(inOc src len) then tileFail s g causeOcRange t.ctx.pc src 0
        else finish (addOp s g f.imm t.ctx.pc (.dmaOc dst src len)) g t t.ctx
      | _ =>
        if src ≥ 2 ^ 60 then tileFail s g causeMemErr t.ctx.pc src 0
        else if src / 2 ^ 44 = (moduleId s).toNat then dmaFromBm s g t f.imm dst (src % 2 ^ 44) src len
        else if src % 16 ≠ 0 then tileFail s g causeMemErr t.ctx.pc src 0
        else
          let s1 := addOp s g f.imm t.ctx.pc (.dmaFab dst src len)
          finish ((accessParts (src % 2 ^ 44) len).foldl (fun s p => sendRead s g c.nextId (src / 2 ^ 44, p.2.1, p.2.2)) s1) g t t.ctx))

/-- Add a staging entry, or end with STAGE_FULL (R151). -/
def stage (s : State) (g : Nat) (t : Tile) (e : Staged) : State :=
  let c := coreOf s g
  if c.staging.length ≥ 256 then tileFail s g causeStageFull t.ctx.pc 0 0
  else finish (setCore s g { c with staging := c.staging ++ [⟨e, false⟩] }) g t t.ctx

/-- Stage a copy out of the operand cache: the length and the source are checked at issue (R142, R151). -/
def stageCopy (s : State) (g : Nat) (t : Tile) (src len : Nat) (e : Staged) : State :=
  if !(copyLenOk len) then tileFail s g causeOcRange t.ctx.pc src 0
  else if src % 16 ≠ 0 ∨ !(inOc src len) then tileFail s g causeOcRange t.ctx.pc src 0
  else stage s g t e

/-- PUT (R151). -/
def execPut (g : CoreId) (s : State) : Answer :=
  .next (issue s g 0x21 (fun s t i =>
    let f := fieldsOf i
    let src := (getS t.ctx f.b).toNat
    let len := (getS t.ctx f.c).toNat
    stageCopy s g t src len (.put (getS t.ctx f.a).toNat src len)))

/-- FPUT (R151). -/
def execFput (g : CoreId) (s : State) : Answer :=
  .next (issue s g 0x22 (fun s t i =>
    let f := fieldsOf i
    let src := (getS t.ctx f.b).toNat
    let len := (getS t.ctx f.c).toNat
    stageCopy s g t src len (.fput (getS t.ctx f.a).toNat src len)))

/-- DWAIT (R142). -/
def execDwait (g : CoreId) (s : State) : Answer :=
  .next (issue s g 0x23 (fun s t i => settleWait (holdAt s g t (.tags (fieldsOf i).imm)) g))

/-! ### Passes and accumulators -/

/-- The descriptor at an operand-cache address is read, and with CONV its convolution descriptor (R100, R119, R173). -/
def meetDesc (s : State) (g a : Nat) : State :=
  let d := (readPassDesc (leNat (ocRead (coreOf s g) a 64))).1
  let s := meetOc s g a 64
  if d.conv then meetOc s g d.convDesc 32 else s

/-- PASS (R100 to R103): refused with PASS_BAD, after which the passes accepted before it complete normally; stalled while its
array has a queued pass, else accepted. -/
def execPass (g : CoreId) (s : State) : Answer :=
  .next (issue s g 0x30 (fun s t i =>
    let f := fieldsOf i
    let a := regImm t.ctx f.a f.imm
    let limit := fld s (pgCore g) fCoreLimit
    let bad (s : State) : State := tileFail (completeAll (arrEvent s g fCorePassBad) g) g causePassBad t.ctx.pc a 0
    if a % 64 ≠ 0 ∨ !(inOc a 64) then bad s
    else
      let s := meetDesc s g a
      let c := coreOf s g
      match checkPass (ocRead c) limit t.task.slots a with
      | none => bad s
      | some p => if queueTaken c p.1 then s else finish (acceptPass s g t p.1 p.2) g t t.ctx))

/-- PWAIT (R142). -/
def execPwait (g : CoreId) (s : State) : Answer :=
  .next (issue s g 0x31 (fun s t i => settleWait (holdAt s g t (.passes (fieldsOf i).imm)) g))

/-- An accumulator address: array, slot of the window and tile row, or none where R145 refuses it. -/
def accAddr (t : Tile) (a : Nat) : Option (Nat × Nat × Nat) :=
  if a < 2 ^ 13 ∧ a % 2 = 0 ∧ a / 32 % 64 < t.task.slots then some (a / 2048, a / 32 % 64, a % 32) else none

/-- Whether an accepted pass of the tile has yet to write one of two tile rows (R116, R145). -/
def rowsBusy (c : Core) (array slot row : Nat) : Bool :=
  c.passes.any (fun p => !p.suspended && (passWrites p.desc array slot row || passWrites p.desc array slot (row + 1)))

/-- ACCRD (R145): held until earlier passes have written the rows. -/
def execAccrd (g : CoreId) (flips : List SoftError) (s : State) : Answer :=
  .next (issue (plant s g flips) g 0x32 (fun s t i =>
    let f := fieldsOf i
    let a := regImm t.ctx f.a f.imm
    match accAddr t a with
    | none => tileFail s g causeAccRange t.ctx.pc a 0
    | some (ar, slot, row) =>
      if rowsBusy (coreOf s g) ar slot row then s else
      let rows (e : SoftError) : Bool := inAccRow ar (t.accBase + slot) row e || inAccRow ar (t.accBase + slot) (row + 1) e
      let s1 := meet s g (fun e => flipLives (coreOf s g) e && rows e)
      let c := coreOf s1 g
      let k := accKey ar (t.accBase + slot) row
      let v := accRow c.acc ar (t.accBase + slot) row ++ accRow c.acc ar (t.accBase + slot) (row + 1)
      let acc := if f.fn = 1 then mapErase (k + 1) (mapErase k c.acc) else c.acc
      finish (setCore s1 g { c with acc := acc }) g t (putV t.ctx f.d v)))

/-- ACCWR (R145): ordered behind earlier passes on those rows. -/
def execAccwr (g : CoreId) (s : State) : Answer :=
  .next (issue s g 0x33 (fun s t i =>
    let f := fieldsOf i
    let a := regImm t.ctx f.a f.imm
    match accAddr t a with
    | none => tileFail s g causeAccRange t.ctx.pc a 0
    | some (ar, slot, row) =>
      let c := coreOf s g
      if rowsBusy c ar slot row then s else
      let k := accKey ar (t.accBase + slot) row
      let v := getV t.ctx f.d
      let acc := mapPut (k + 1) (v.drop 32) (mapPut k (v.take 32) c.acc)
      let rows (e : SoftError) : Bool := inAccRow ar (t.accBase + slot) row e || inAccRow ar (t.accBase + slot) (row + 1) e
      finish (setCore s g { accClean c rows with acc := acc }) g t t.ctx))

/-! ### Vectors -/

/-- Write a vector register under MK and MZ, counting non-finite results of the lanes written (R89, R163). -/
def finishVec (s : State) (g : Nat) (t : Tile) (f : TileFields) (counted : Bool) (val : Nat → Word) : State :=
  let mk := getM t.ctx f.mask
  let old := getV t.ctx f.d
  let new := vecOf val
  let s1 := if counted then addCounts s g (countFp32s (selLanes mk new)) else s
  finish s1 g t (putV t.ctx f.d (maskVec mk f.mz old (lane new)))

/-- VOP (R143, R164, R165). -/
def execVop (g : CoreId) (s : State) : Answer :=
  .next (issue s g 0x40 (fun s t i =>
    let f := fieldsOf i
    finishVec s g t f (vopIsFp f.fn) (vopLane f.fn (getV t.ctx f.a) (getV t.ctx f.b) (getV t.ctx f.c))))

/-- VCMP (R143, R163). -/
def execVcmp (g : CoreId) (s : State) : Answer :=
  .next (issue s g 0x41 (fun s t i =>
    let f := fieldsOf i
    let mk := getM t.ctx f.mask
    let a := getV t.ctx f.a
    let b := getV t.ctx f.b
    let r := maskOf (fun k => vcmpLane f.fn (lane a k) (lane b k))
    let kept := if f.mz then 0 else getM t.ctx f.d &&& ~~~mk
    finish s g t (putM t.ctx f.d (kept ||| (r &&& mk)))))

/-- VSEL (R142). -/
def execVsel (g : CoreId) (s : State) : Answer :=
  .next (issue s g 0x42 (fun s t i =>
    let f := fieldsOf i
    let mk := getM t.ctx f.mask
    finish s g t (putV t.ctx f.d (vecOf (fun k =>
      if mk.getLsbD k then lane (getV t.ctx f.a) k else lane (getV t.ctx f.b) k)))))

/-- VCURVE (R167, R168). -/
def execVcurve (g : CoreId) (s : State) : Answer :=
  .next (issue s g 0x43 (fun s t i =>
    let f := fieldsOf i
    let a := getV t.ctx f.a
    finishVec s g t f true (fun k => curveFn f.fn (lane a k))))

/-- VLD (R142, R139). -/
def execVld (g : CoreId) (flips : List SoftError) (s : State) : Answer :=
  .next (issue (plant s g flips) g 0x44 (fun s t i =>
    let f := fieldsOf i
    let a := regImm t.ctx f.a f.imm
    if a % 16 ≠ 0 ∨ !(inOc a 256) then tileFail s g causeOcRange t.ctx.pc a 0
    else
      finishVec (meetOc s g a 256) g t f false (lane (vecOfBytes (ocRead (coreOf s g) a 256)))))

/-- Whether the pre-emption window admits every lane that a VST at an address writes (R174). -/
def lanesGuarded (s : State) (g : Nat) (mk : Dword) (a : Nat) : Bool :=
  (List.range 64).all (fun k => !(mk.getLsbD k) || guardOk s g (coreOf s g) (a + 4 * k) 4)

/-- VST (R142, R139, R174): lanes with MK bit 0 are not written. -/
def execVst (g : CoreId) (s : State) : Answer :=
  .next (issue s g 0x45 (fun s t i =>
    let f := fieldsOf i
    let a := regImm t.ctx f.a f.imm
    let mk := getM t.ctx f.mask
    let v := getV t.ctx f.d
    tileStore s g t a 16 256 (lanesGuarded s g mk a) (fun c => (List.range 64).foldl (fun c k =>
      if mk.getLsbD k then ocWrite c (a + 4 * k) (leBytes 4 (lane v k).toNat) else c) c)))

/-- VBCAST (R142). -/
def execVbcast (g : CoreId) (s : State) : Answer :=
  .next (issue s g 0x46 (fun s t i =>
    let f := fieldsOf i
    let w : Word := (getS t.ctx f.a).extractLsb' 0 32
    finishVec s g t f false (fun _ => w)))

/-- VEXT (R142, R165). -/
def execVext (g : CoreId) (s : State) : Answer :=
  .next (issue s g 0x47 (fun s t i =>
    let f := fieldsOf i
    finish s g t (putS t.ctx f.d ((lane (getV t.ctx f.a) ((getS t.ctx f.b).toNat % 64)).zeroExtend 64))))

/-- VRED (R143, R166). -/
def execVred (g : CoreId) (s : State) : Answer :=
  .next (issue s g 0x48 (fun s t i =>
    let f := fieldsOf i
    let r := vred f.fn (getM t.ctx f.mask) (getV t.ctx f.a)
    finish (addCounts s g r.2) g t (putS t.ctx f.d r.1)))

/-- VCVT (R143, R88). -/
def execVcvt (g : CoreId) (s : State) : Answer :=
  .next (issue s g 0x49 (fun s t i =>
    let f := fieldsOf i
    let stream : Word := (getS t.ctx f.c).extractLsb' 0 32
    let r := vcvt f.fn ⟨keyWords t.ctx.key, t.ctx.step, stream⟩ (getS t.ctx (f.c + 1)).toNat (getV t.ctx f.a) (getV t.ctx f.b)
    finish (addCounts s g r.2) g t (putV t.ctx f.d r.1)))

/-- MOP (R143). -/
def execMop (g : CoreId) (s : State) : Answer :=
  .next (issue s g 0x4B (fun s t i =>
    let f := fieldsOf i
    let x := t.ctx
    finish s g t
      (if f.fn ≤ 4 then putM x f.d (mopFn f.fn (getM x f.a) (getM x f.b))
       else if f.fn = 5 then putM x f.d (getS x f.a)
       else if f.fn = 6 then putS x f.d (getM x f.a)
       else putS x f.d (BitVec.ofNat 64 (popCount (getM x f.a))))))

/-- Row of a quantisation target record: VAL, SCL, SIDE, LEN; none where R147 check 4 fails. -/
def targetRecord (v : Nat) : Option (Nat × Nat × Nat × Nat) :=
  let w (i : Nat) : Nat := bitsOf v (32 * i) 32
  if w 0 < 2 ^ 21 ∧ w 1 < 2 ^ 21 ∧ w 2 < 2 ^ 21 ∧ 1 ≤ w 3 ∧ w 3 ≤ 32768 then some (w 0, w 1, w 2, w 3) else none

/-- FP32 values of a row of the operand cache: FP32 or BF16 elements (R147). -/
def rowValues (c : Core) (a n : Nat) (bf16 : Bool) : List Word :=
  (List.range n).map (fun k =>
    if bf16 then BitVec.ofNat 32 (ocNat c (a + 2 * k) 2 * 65536) else BitVec.ofNat 32 (ocNat c (a + 4 * k) 4))

/-- Bytes of a row of results: FP32 or BF16 (R88, R147), and their counts. -/
def rowBytes (l : List Num) (bf16 : Bool) : List Byte × FmtCounts :=
  if bf16 then
    let h := l.map (fun x => (BitVec.ofNat 16 (roundNum fmtBf16 .rne x) : BitVec 16))
    (h.flatMap (fun x => leBytes 2 x.toNat), h.foldl (fun c x => c.add (countBf16 x)) {})
  else
    let w := l.map (toFp32 .rne)
    (w.flatMap (fun x => leBytes 4 x.toNat), countFp32s w)

/-- VQUANT after its checks: the written core and the counts (R80, R88, R147). -/
def vquantRow (c : Core) (t : Tile) (fn : Nat) (q : QDesc) (row val scl side n : Nat) : Core × FmtCounts :=
  if fn ≤ 1 then
    let r := quantRow q (keyWords t.ctx.key) t.ctx.step (rowValues c row n (fn == 1))
    (ocWrite (ocWrite (ocWrite c val r.values) scl r.scales) side (r.side.flatMap (fun w => leBytes 4 w.toNat)), r.counts)
  else
    let values := ocRead c val (16 * ((n + 31) / 32))
    let scales := ocRead c scl (2 * ((n + 31) / 32))
    let sides := if fn ≥ 4 then (List.range (q.cap * ((n + 255) / 256))).map (fun k => BitVec.ofNat 32 (ocNat c (side + 4 * k) 4)) else []
    let r := rowBytes (dequantRow q n values scales sides) (fn % 2 == 1)
    (ocWrite c row r.1, r.2.add { rsvdScale := reservedScales n scales })

/-- VQUANT (R147): five checks in order, then the row. Of destinations outside the pre-emption window the first of values, scales
and side list is reported (R174, log 13). -/
def execVquant (g : CoreId) (s : State) : Answer :=
  .next (issue s g 0x4A (fun s t i =>
    let f := fieldsOf i
    let c := coreOf s g
    let row := (getS t.ctx f.a).toNat
    let qa := (getS t.ctx f.b).toNat
    let ta := (getS t.ctx f.c).toNat
    let bad (cause a : Nat) : State := tileFail s g cause t.ctx.pc a 0
    if qa % 32 ≠ 0 ∨ !(inOc qa 32) then bad causeOcRange qa
    else if ta % 16 ≠ 0 ∨ !(inOc ta 16) then bad causeOcRange ta
    else
      let s := meetOc s g qa 32
      match parseQDesc (ocRead c qa 32) with
      | none => tileFail (addCounts s g { qdescBad := true }) g causeQdescBad t.ctx.pc qa 0
      | some q =>
        let s := meetOc s g ta 16
        let bad (cause a : Nat) : State := tileFail s g cause t.ctx.pc a 0
        match targetRecord (ocNat c ta 16) with
        | none => bad causeOcRange ta
        | some (val, scl, side, n) =>
          let rowLen := if f.fn % 2 = 1 then 2 * n else 4 * n
          let valLen := 16 * ((n + 31) / 32)
          let sclLen := 2 * ((n + 31) / 32)
          let sideLen := if (f.fn ≤ 1 ∨ 4 ≤ f.fn) ∧ 0 < q.cap then 4 * q.cap * ((n + 255) / 256) else 0
          if !(inOc row rowLen) then bad causeOcRange row
          else if !(inOc val valLen) then bad causeOcRange val
          else if !(inOc scl sclLen) then bad causeOcRange scl
          else if 0 < sideLen ∧ !(inOc side sideLen) then bad causeOcRange side
          else if f.fn ≤ 1 ∧ !(guardOk s g c val valLen) then bad causeOcRange val
          else if f.fn ≤ 1 ∧ !(guardOk s g c scl sclLen) then bad causeOcRange scl
          else if f.fn ≤ 1 ∧ 0 < sideLen ∧ !(guardOk s g c side sideLen) then bad causeOcRange side
          else if 1 < f.fn ∧ !(guardOk s g c row rowLen) then bad causeOcRange row
          else
            let s := (if f.fn ≤ 1 then [(row, rowLen)] else [(val, valLen), (scl, sclLen), (side, sideLen)]).foldl
              (fun s r => meetOc s g r.1 r.2) s
            let r := vquantRow (coreOf s g) t f.fn q row val scl side n
            finish (addCounts (setCore s g r.1) g r.2) g t t.ctx))

/-! ### Indexed accesses -/

/-- Fields of IMM in GATHER, SCATTER and ATOM (R144): tag, element size, 64-bit indices, count. -/
def indexedImm (imm : Nat) : Nat × Nat × Bool × Nat :=
  (imm % 16, 4 * 2 ^ (imm / 16 % 8), decide (imm / 128 % 2 = 1), imm / 256 % 4096 + 1)

/-- Whether a buffer and an index list lie in the operand cache (R139). -/
def indexedOk (buf bytes idx count : Nat) (idx64 : Bool) : Bool :=
  inOc buf bytes && inOc idx (count * (if idx64 then 8 else 4))

/-- The address that a refused buffer or index list reports (R161). -/
def indexedBad (buf bytes idx : Nat) : Nat := if inOc buf bytes then idx else buf

/-- Start a GATHER from FAB addresses: its indices are read and the requests to other modules queued, none where an element has
no address (R176, R177). -/
def startRemote (s : State) (g op : Nat) (l : List (Option Nat)) (esize : Nat) : State :=
  let away := (l.filterMap id).filter (fun v => decide (v / 2 ^ 44 ≠ (moduleId s).toNat))
  let todo := if l.any (·.isNone) then [] else remoteRequests esize away
  let c := coreOf s g
  pumpGathers 128 (setCore s g { c with asyncs := c.asyncs.map (fun a => if a.id == op then { a with todo := todo } else a) }) g

/-- GATHER (R144, R176, R177). -/
def execGather (g : CoreId) (s : State) : Answer :=
  .next (issue s g 0x50 (fun s t i =>
    let f := fieldsOf i
    let c := coreOf s g
    let dst := (getS t.ctx f.a).toNat
    let idx := (getS t.ctx f.c).toNat
    let m := indexedImm f.imm
    if !(asyncRoom c) then s
    else if !(indexedOk dst (m.2.1 * m.2.2.2) idx m.2.2.2 m.2.2.1) then
      tileFail s g causeOcRange t.ctx.pc (indexedBad dst (m.2.1 * m.2.2.2) idx) 0
    else if !(guardOk s g c dst (m.2.1 * m.2.2.2)) then tileFail s g causeOcRange t.ctx.pc dst 0
    else
      let base := getS t.ctx f.b
      let kind : AsyncKind := .gather (f.fn == 1) dst base idx m.2.2.2 m.2.1 m.2.2.1
      let s1 := addOp s g m.1 t.ctx.pc kind
      let s2 := if f.fn = 1 then
          startRemote (opReads s1 g kind) g c.nextId (elemAddrs c true base idx m.2.2.2 m.2.1 m.2.2.1) m.2.1
        else s1
      finish s2 g t t.ctx))

/-- SCATTER (R144, R151). -/
def execScatter (g : CoreId) (s : State) : Answer :=
  .next (issue s g 0x51 (fun s t i =>
    let f := fieldsOf i
    let src := (getS t.ctx f.a).toNat
    let idx := (getS t.ctx f.c).toNat
    let m := indexedImm f.imm
    if !(indexedOk src (m.2.1 * m.2.2.2) idx m.2.2.2 m.2.2.1) then tileFail s g causeOcRange t.ctx.pc (indexedBad src (m.2.1 * m.2.2.2) idx) 0
    else stage s g t (.scatter src (getS t.ctx f.b) idx m.2.2.2 m.2.1 m.2.2.1)))

/-- ATOM (R150, R180). -/
def execAtom (g : CoreId) (s : State) : Answer :=
  .next (issue s g 0x52 (fun s t i =>
    let f := fieldsOf i
    let c := coreOf s g
    let vals := (getS t.ctx f.a).toNat
    let idx := (getS t.ctx f.c).toNat
    let m := indexedImm f.imm
    if !t.task.nonReplay then tileFail s g causeAtomReplayable t.ctx.pc 0 0
    else if !(asyncRoom c) then s
    else if !(indexedOk vals (adderSize f.fn * m.2.2.2) idx m.2.2.2 m.2.2.1) then
      tileFail s g causeOcRange t.ctx.pc (indexedBad vals (adderSize f.fn * m.2.2.2) idx) 0
    else finish (addOp s g m.1 t.ctx.pc (.atom f.fn vals (getS t.ctx f.b) idx m.2.2.2 m.2.2.1)) g t t.ctx))

/-! ### Waits -/

/-- WAIT_LIMIT in ticks; none when it is zero (R159). -/
def waitLimit (s : State) (g : Nat) : Option Nat :=
  let n := fld s (pgCore g) fCoreWaitLimit
  if n = 0 then none else some (1024 * n)

/-- WAITC (R148): its limit is held as the time at which it ends. -/
def execWaitc (g : CoreId) (s : State) : Answer :=
  .next (issue s g 0x60 (fun s t i =>
    let f := fieldsOf i
    let addr := (getS t.ctx f.a).toNat
    let sc := (getS t.ctx f.c).toNat
    let limit := if f.c = 0 then waitLimit s g else if sc = 0 then none else some sc
    if addr % 8 ≠ 0 ∨ addr + 8 > bulkEnd then tileFail s g causeMemErr t.ctx.pc addr 0
    else waitcRead s g t f.d addr (getS t.ctx f.b) (f.fn == 1) (limit.map (now s + ·))))

/-- WAITC_POLL (R148): the counter is read again. -/
def execWaitcPoll (g : CoreId) (s : State) : Answer :=
  .next (match (coreOf s g).tile with
    | none => s
    | some t =>
      if (coreOf s g).preempt.isSome then s else
      match t.wait with
      | .counter d addr target equal deadline => waitcRead s g t d addr target equal deadline
      | _ => s)

/-- WAIT_TIMEOUT (R148): a WAITC has reached its limit. -/
def execWaitTimeout (g : CoreId) (s : State) : Answer :=
  .next (match (coreOf s g).tile with
    | none => s
    | some t =>
      if (coreOf s g).preempt.isSome then s else
      match t.wait with
      | .counter d _ _ _ (some dl) =>
        if now s ≥ dl then finish (raise s (pgCore g) evCoreWaitTimeout) g t (putS t.ctx d 1) else s
      | _ => s)

/-- WAITT (R148). -/
def execWaitt (g : CoreId) (s : State) : Answer :=
  .next (issue s g 0x61 (fun s t i =>
    let f := fieldsOf i
    let target := (getS t.ctx f.a).toNat
    let here := wardTime s (coreWard g)
    let far := match waitLimit s g with
      | none => false
      | some n => decide (target > here + n)
    if target < here then finish s g t (putS t.ctx f.d 1)
    else if far then finish (raise s (pgCore g) evCoreWaitTimeout) g t (putS t.ctx f.d 2)
    else if target = here then finish s g t (putS t.ctx f.d 0)
    else holdAt s g t (.time f.d target)))

/-- WAITT_RELEASE (R148). -/
def execWaittRelease (g : CoreId) (s : State) : Answer :=
  .next (match (coreOf s g).tile with
    | none => s
    | some t =>
      if (coreOf s g).preempt.isSome then s else
      match t.wait with
      | .time d target => if wardTime s (coreWard g) ≥ target then finish s g t (putS t.ctx d 0) else s
      | _ => s)

/-- TIME_LIMIT (R155): the tile has run longer than TILE_TIME_LIMIT; while its image is loaded it neither runs nor waits. -/
def execTimeLimit (g : CoreId) (s : State) : Answer :=
  .next (match (coreOf s g).tile with
    | none => s
    | some t =>
      let n := fld s (pgCore g) fCoreTileTimeLimit
      if t.phase == .loading ∨ n = 0 ∨ t.ran + (now s - t.since) ≤ 65536 * n then s
      else tileFail s g causeTimeLimit t.ctx.pc 0 0)

/-! ### Steps of a tile -/

/-- TILE_START (R133): the core starts the task it was given. -/
def execTileStart (g : CoreId) (s : State) : Answer :=
  .next (match (coreOf s g).given with
    | none => s
    | some p => if (coreOf s g).tile.isSome then s else startTile s g p.1 p.2)

/-- IMAGE_LOAD_DONE (R134). -/
def execImageLoadDone (g : CoreId) (s : State) : Answer :=
  .next (match (coreOf s g).tile with
    | none => s
    | some t => if t.phase == .loading then finishLoad s g t else s)

/-- COMMIT_PERFORM (R152 step 2): the staged entries are performed once operations and passes have completed; a pre-emption
admitted meanwhile withdraws none of those passes (log 73). -/
def execCommitPerform (g : CoreId) (s : State) : Answer :=
  .next (match (coreOf s g).tile with
    | none => s
    | some t =>
      if t.phase != .commitWait ∨ tagBusy (coreOf s g) 0xFFFF ∨ passBusy (coreOf s g) 0xF then s else
      let r := commitEntries s g ((coreOf s g).staging.filter (fun e => !e.suspended))
      match r.2 with
      | some a => tileFail r.1 g causeMemErr t.ctx.pc a 0
      | none => setTile r.1 g { t with phase := .commitDone })

/-- COMMIT_COMPLETE (R152 steps 3 and 4): every write is acknowledged; the tile ends normally. -/
def execCommitComplete (g : CoreId) (s : State) : Answer :=
  .next (match (coreOf s g).tile with
    | none => s
    | some t =>
      if t.phase != .commitDone ∨ commitOwed s g then s else
      let s := setCore s g (endRunning (coreOf s g))
      addReport (bump s (pgCore g) fCoreTileCount) g .normal t.entryId)

/-- Whether passes of the running or the suspended tile have begun and not completed. -/
def passesRun (c : Core) (susp : Bool) : Bool := c.passes.any (fun p => p.suspended == susp && p.begun)

/-- Whether the running tile has come to its stop for a pre-emption: held in a wait, or its begun passes complete, and no COMMIT
running (R156). -/
def stopped (c : Core) (t : Tile) : Bool := t.phase == .running && (t.wait != .none || !(passesRun c false))

/-- The running tile moves to the shadow; saving reads the register files (R137, R156). -/
def toShadow (s : State) (g : Nat) (t : Tile) : State :=
  let r := meetFiles s g t (fun _ => true)
  let c := coreOf r.1 g
  arrEvent (setCore r.1 g { c with
    tile := none, shadow := some { r.2 with ran := t.ran + (now s - t.since) },
    asyncs := c.asyncs.map (fun a => { a with suspended := true }),
    staging := c.staging.map (fun e => { e with suspended := true }),
    passes := c.passes.map (fun q => { q with suspended := true }) }) g fCorePreempted

/-- TILE_SUSPEND (R123, R156): a running tile that has stopped moves to the shadow; once its running passes are complete the
pre-empting tile starts. A tile stopped in a wait may be saved before that. -/
def execTileSuspend (g : CoreId) (s : State) : Answer :=
  .next (match (coreOf s g).preempt with
    | none => s
    | some p =>
      let s := match (coreOf s g).tile with
        | some t => if stopped (coreOf s g) t then toShadow s g t else s
        | none => s
      let c := coreOf s g
      if c.tile.isSome || c.shadow.isNone || passesRun c true then s else startTile s g p.1 p.2)

/-- TILE_RESUME (R156, R123): the suspended tile's image, registers and withdrawn passes are restored. -/
def execTileResume (g : CoreId) (s : State) : Answer :=
  .next (
    let c := coreOf s g
    match c.tile, c.shadow with
    | none, some t =>
      if c.given.isSome || c.preempt.isSome then s else
      let res := resident c t.task
      let c1 := { reaccept c with
        tile := some { t with phase := .loading, since := now s }, shadow := none, abandonedAt := none,
        asyncs := c.asyncs.map (fun a => { a with suspended := false }),
        staging := c.staging.map (fun e => { e with suspended := false }),
        image := if res then c.image else none, flush := false }
      let s1 := setCore s g c1
      if res then continueTile s1 g { t with since := now s }
      else bump s1 (pgCore g) fCoreCodeLoadCount
    | _, _ => s)

/-- DMA_DONE (R149): a copy has all its data and completes. -/
def execDmaDone (g : CoreId) (op : Nat) (s : State) : Answer :=
  .next (match findOp (coreOf s g) op with
    | none => s
    | some a =>
      match a.kind with
      | .dmaBm _ _ _ | .dmaOc _ _ _ | .dmaFab _ _ _ =>
        if !(opAnswered a) then s else
        let r := opData s g a
        match r.2 with
        | .fails _ => s
        | .writes l => dropOp (applyWrites r.1 g l) g op
      | _ => s)

/-- GATHER_DONE (R177, R183). -/
def execGatherDone (g : CoreId) (op : Nat) (s : State) : Answer :=
  .next (match findOp (coreOf s g) op with
    | none => s
    | some a =>
      match a.kind with
      | .gather fab _ base idx count esize idx64 =>
        if !(opAnswered a) then s else
        let r := opData s g a
        match r.2 with
        | .fails _ => s
        | .writes l =>
          let reqs := gatherRequests esize ((elemAddrs (coreOf s g) fab base idx count esize idx64).map (·.getD 0))
          let s1 := bumpBy (bumpBy r.1 (pgCore g) fCoreGatherElemCount count) (pgCore g) fCoreGatherReqCount reqs
          dropOp (applyWrites s1 g l) g op
      | _ => s)

/-- ATOM_DONE (R180, R183): every update has been accepted. -/
def execAtomDone (g : CoreId) (op : Nat) (s : State) : Answer :=
  .next (match findOp (coreOf s g) op with
    | none => s
    | some a =>
      match a.kind with
      | .atom fn vals base idx count idx64 =>
        let chk := opData s g a
        match chk.2 with
        | .fails _ => s
        | .writes _ =>
          let l := atomList chk.1 g fn vals base idx count idx64
          let r := atomUpdates l.2 fn l.1
          match r.2 with
          | some _ => s
          | none =>
            dropOp (bumpBy (bumpBy r.1 (pgCore g) fCoreGatherElemCount count) (pgCore g) fCoreGatherReqCount count) g op
      | _ => s)

/-- Where an operation fails, if it does: from its messages, its addresses or its data (R149, R176). -/
def opFailure (s : State) (g : Nat) (a : AsyncOp) : State × Option Nat :=
  let r := opData s g a
  match r.2 with
  | .fails x => (r.1, some x)
  | .writes _ =>
    match a.kind with
    | .atom fn vals base idx count idx64 =>
      let l := atomList r.1 g fn vals base idx count idx64
      (r.1, (atomUpdates l.2 fn l.1).2)
    | _ => (s, none)

/-- ASYNC_FAIL (R149): a failed operation of the running tile ends it. -/
def execAsyncFail (g : CoreId) (op : Nat) (s : State) : Answer :=
  .next (match findOp (coreOf s g) op with
    | none => s
    | some a =>
      if a.suspended then s else
      let r := opFailure s g a
      match r.2 with
      | none => s
      | some addr => failOp r.1 g a addr)

/-- SUSPENDED_TILE_FAIL (R531). -/
def execSuspendedTileFail (g : CoreId) (op : Nat) (s : State) : Answer :=
  .next (match findOp (coreOf s g) op with
    | none => s
    | some a =>
      if !a.suspended then s else
      let r := opFailure s g a
      match r.2 with
      | none => s
      | some addr => failOp r.1 g a addr)

/-- PASS_START (R105, R110). -/
def execPassStart (g : CoreId) (a : ArrayId) (s : State) : Answer :=
  .next (
    let c := coreOf s g
    match nextToBegin c a with
    | none => s
    | some p => if mayBegin c p then setCore s g (beginPass c p) else s)

/-- PASS_COMPLETE (R104, R108): the oldest begun pass of the array; a running pass of a tile that has been saved completes too
(R123). -/
def execPassComplete (g : CoreId) (a : ArrayId) (s : State) : Answer :=
  .next (
    let c := coreOf s g
    match c.passes.find? (fun p => p.begun && passOn p.desc a) with
    | none => s
    | some p => completePass s g p)

/-- ACC_INV_DONE (R131): the passes that the action waited for have completed; one withdrawn since by a pre-emption keeps it
waiting (log 73). With no tile running, the slots of a suspended tile stay intact (R123). -/
def execAccInvDone (g : CoreId) (a : ArrayId) (s : State) : Answer :=
  .next (
    let c := coreOf s g
    match c.invWait.find? (fun e => e.1 == a.val) with
    | none => s
    | some e =>
      if c.passes.any (fun p => e.2.contains p.id) then s else
      setCore s g { invSlots c a with invWait := c.invWait.filter (fun x => x.1 != a.val) })

end Sys2Proof.Machine
end

