-- ==== Sys2Proof/Machine/Session.lean ====
section
/-!
DEFINITION. The session's rows (R472 to R476, R479, R534): OPEN, CLOSE, KEEPALIVE, DATA, malformed datagrams, resends and the
session's timers.
-/

namespace Sys2Proof.Machine

/-- OPEN (R476). -/
def execOpenSession (o : OpenMsg) (s : State) : Answer :=
  .next (if !(acceptsPeer s o.peer) then s else
    let s := countFrame s
    if o.chan ≠ 0 ∨ o.len ≠ 8 then msgBad s else
    match s.mgmt.session with
    | some x =>
      if x.peer = o.peer then bindSession s o.peer o.firstEvent.toNat
      else raise (sendOpenResp s o.peer 0 true) 0x11 evMgmtSessionSessionRefused
    | none => bindSession s o.peer o.firstEvent.toNat)

/-- CLOSE (R476): LEN is 4; any reason ends the session. -/
def execCloseSession (h : MsgHdr) (payload : List Byte) (s : State) : Answer :=
  .next (takePlain s h (fun s => if payload.length = 4 then endSession s else msgBad s))

/-- KEEPALIVE (R475). -/
def execKeepalive (h : MsgHdr) (s : State) : Answer := .next (takePlain s h (fun s => s))

/-! ### DATA (R479, R484) -/

/-- Bytes of an upload at a stream offset. -/
def takeUpload (s : State) (off : Nat) (bytes : List Byte) : State :=
  match s.mgmt.upload with
  | none => msgBad s
  | some u =>
    if u.len < off + bytes.length then msgBad s else
    setMgmt s { s.mgmt with upload := some { u with data := bytes.zipIdx.foldl (fun m e => mapPut (off + e.2) e.1 m) u.data } }

/-- Write stream bytes to the ring: a run stops at the ring's end and goes on at its start. -/
def ringWrite (s : State) (i : Ingest) (off : Nat) (bytes : List Byte) : State :=
  let at' := off % i.size
  let n := min bytes.length (i.size - at')
  let s := (memWrite s (i.ring + at') (bytes.take n)).1
  if bytes.length ≤ n then s else (memWrite s i.ring (bytes.drop n)).1

/-- Whether the ingest queue has room up to a stream offset: CONS_CTR × RECORD + ring size (R484). -/
def ingestRoom (s : State) (endOff : Nat) : Bool :=
  match s.ingest with
  | none => true
  | some i => decide (endOff ≤ ((memReadNat s i.cons 8).2.getD 0) * i.record + i.size)

/-- Bytes of the ingest stream in stream order: bytes already taken are passed over, a gap is discarded. -/
def takeIngest (s : State) (off : Nat) (bytes : List Byte) : State :=
  match s.ingest with
  | none => msgBad s
  | some i =>
    if i.taken < off then msgBad s else
    let bytes := bytes.drop (i.taken - off)
    let upto := i.taken + bytes.length
    let s := ringWrite s i i.taken bytes
    let s := { s with ingest := some { i with taken := upto } }
    (List.range (upto / i.record - i.taken / i.record)).foldl (fun s _ => (addOne s i.prod).1) s

/-- Whether a DATA message must wait because the ring has no room for it; it is then not delivered (R484). -/
def ingestWaits (s : State) (h : MsgHdr) (payload : List Byte) : Bool :=
  decide (h.chan = 2) && decide (8 ≤ payload.length) && !(ingestRoom s (leNat (payload.take 8) + (payload.length - 8)))

/-- The content of a DATA message. -/
def takeData (s : State) (chan : Nat) (payload : List Byte) : State :=
  if payload.length < 8 then msgBad s else
  let off := leNat (payload.take 8)
  let bytes := payload.drop 8
  if chan = 1 then takeUpload s off bytes
  else if chan = 2 then takeIngest s off bytes
  else match takeImport s off bytes with
    | some t => t
    | none => msgBad s

/-- DATA (R479). -/
def execDataMsg (h : MsgHdr) (payload : List Byte) (s : State) : Answer :=
  .next (if ingestWaits s h payload then
      (if acceptsPeer s h.peer && (sessionFor s h).isSome then hearPeer (countFrame s) h else s)
    else takeSequenced s h (decide (h.chan = 1 ∨ h.chan = 2 ∨ h.chan = 4)) (fun s => takeData s h.chan.toNat payload))

/-- DATAGRAM_BAD (R472, R474, R534). -/
def execDatagramBad (b : BadDatagram) (s : State) : Answer :=
  .next (if !(portServes s) then s else
    match b with
    | .fcs => bump s 0x10 fMgmtLinkFcsErrCount
    | .channelSequenced h => takeSequenced s h false (fun s => s)
    | .udp | .header | .badType | .moduleType | .openLength | .channelUnsequenced => msgBad (countFrame s))

/-- COMMAND_UNKNOWN (R477): a reserved opcode is answered whatever the payload's length. -/
def execCommandUnknown (c : CmdMsg) (opcode : BitVec 16) (s : State) : Answer :=
  .next (takeSequenced s c.hdr (decide (c.hdr.chan = 0)) (fun s =>
    answerCmd s (opcode.toNat % 2 ^ (8 * min 2 c.payloadLen)) (cmdTag c) rcUnknown []))

/-! ### Timers of the session (R475, R476) -/

/-- Send one unacknowledged message again, with the ACK of now. -/
def resendOne (s : State) (x : Session) (u : Unacked) : State × Unacked :=
  let m := { u.msg with ack := x.inSeq }
  (bump (putMsg s m) 0x11 fMgmtSessionResendCount, { u with msg := m, last := now s, resends := u.resends + 1 })

/-- SESSION_RESEND (R475): every message 50 ms after its last send; after 20 resends the session ends with RETRY. -/
def execSessionResend (s : State) : Answer :=
  .next (match s.mgmt.session with
    | none => s
    | some x =>
      let due (u : Unacked) : Bool := decide (u.last + 50000000 ≤ now s)
      if !(x.unacked.any due) then s
      else if x.unacked.any (fun u => due u && decide (20 ≤ u.resends)) then closeSession s 2
      else
        let r := x.unacked.foldl (fun a u =>
          if due u then
            (let b := resendOne a.1 x u
             (b.1, a.2 ++ [b.2]))
          else (a.1, a.2 ++ [u])) (s, ([] : List Unacked))
        setSession r.1 (some { x with unacked := r.2, ackOwed := none, sentAt := now s }))

/-- ACK_KEEPALIVE (R475). -/
def execAckKeepalive (s : State) : Answer :=
  .next (match s.mgmt.session with
    | some x => match x.ackOwed with
      | some t => if t + 10000000 ≤ now s then sendKeepalive s else s
      | none => s
    | none => s)

/-- KEEPALIVE_TX (R476). -/
def execKeepaliveTx (s : State) : Answer :=
  .next (match s.mgmt.session with
    | some x => if x.sentAt + 1000000000 ≤ now s then sendKeepalive s else s
    | none => s)

/-- SESSION_IDLE_TIMEOUT (R476). -/
def execSessionIdleTimeout (s : State) : Answer :=
  .next (match s.mgmt.session with
    | some x => if x.heard + fld s 0x11 fMgmtSessionSessionIdle * 1000000000 ≤ now s then closeSession s 1 else s
    | none => s)

end Sys2Proof.Machine
end

