-- ==== Sys2Proof/Machine/Dispatch.lean ====
section
/-!
DEFINITION. The one arm of each command.
-/

namespace Sys2Proof.Machine

/-- The command's effect on everything but the queue. -/
def exec (i : Instr) (s : State) : Host.Outcome State Fault Refusal :=
  match i with
  | .registerWrite m addr width value => Sys2Proof.Machine.execRegisterWrite m addr width value s
  | .rcRead m addr width => Sys2Proof.Machine.execRcRead m addr width s
  | .voteScan page => Sys2Proof.Machine.execVoteScan page s
  | .mailboxRead m page vid part => Sys2Proof.Machine.execMailboxRead m page vid part s
  | .mailboxWrite m page vid => Sys2Proof.Machine.execMailboxWrite m page vid s
  | .mailboxStage m page vid => Sys2Proof.Machine.execMailboxStage m page vid s
  | .eventNotify page => Sys2Proof.Machine.execEventNotify page s
  | .accessTimeout m addr write applied cmd => Sys2Proof.Machine.execAccessTimeout m addr write applied cmd s
  | .pass g => Sys2Proof.Machine.execPass g s
  | .passStart g a => Sys2Proof.Machine.execPassStart g a s
  | .passComplete g a => Sys2Proof.Machine.execPassComplete g a s
  | .accInv m g arrays => Sys2Proof.Machine.execAccInv m g arrays s
  | .accInvDone g a => Sys2Proof.Machine.execAccInvDone g a s
  | .accUe g a slot row => Sys2Proof.Machine.execAccUe g a slot row s
  | .regUe g => Sys2Proof.Machine.execRegUe g s
  | .ocUe g offset reader => Sys2Proof.Machine.execOcUe g offset reader s
  | .preemptDecision d => Sys2Proof.Machine.execPreemptDecision d s
  | .tileSuspend g => Sys2Proof.Machine.execTileSuspend g s
  | .tileResume g => Sys2Proof.Machine.execTileResume g s
  | .suspendedTileFail g op => Sys2Proof.Machine.execSuspendedTileFail g op s
  | .tileStart g => Sys2Proof.Machine.execTileStart g s
  | .imageLoadDone g => Sys2Proof.Machine.execImageLoadDone g s
  | .nop g => Sys2Proof.Machine.execNop g s
  | .jmp g => Sys2Proof.Machine.execJmp g s
  | .br g => Sys2Proof.Machine.execBr g s
  | .loop g => Sys2Proof.Machine.execLoop g s
  | .call g => Sys2Proof.Machine.execCall g s
  | .ret g => Sys2Proof.Machine.execRet g s
  | .abort g => Sys2Proof.Machine.execAbort g s
  | .commit g => Sys2Proof.Machine.execCommit g s
  | .commitPerform g => Sys2Proof.Machine.execCommitPerform g s
  | .commitComplete g => Sys2Proof.Machine.execCommitComplete g s
  | .li g => Sys2Proof.Machine.execLi g s
  | .addi g => Sys2Proof.Machine.execAddi g s
  | .lih g => Sys2Proof.Machine.execLih g s
  | .sop g ce => Sys2Proof.Machine.execSop g ce s
  | .sld g => Sys2Proof.Machine.execSld g s
  | .sst g => Sys2Proof.Machine.execSst g s
  | .rdreg g => Sys2Proof.Machine.execRdreg g s
  | .wrreg g => Sys2Proof.Machine.execWrreg g s
  | .time g => Sys2Proof.Machine.execTime g s
  | .dma g => Sys2Proof.Machine.execDma g s
  | .dmaDone g op => Sys2Proof.Machine.execDmaDone g op s
  | .asyncFail g op => Sys2Proof.Machine.execAsyncFail g op s
  | .put g => Sys2Proof.Machine.execPut g s
  | .fput g => Sys2Proof.Machine.execFput g s
  | .dwait g => Sys2Proof.Machine.execDwait g s
  | .pwait g => Sys2Proof.Machine.execPwait g s
  | .accrd g ce => Sys2Proof.Machine.execAccrd g ce s
  | .accwr g => Sys2Proof.Machine.execAccwr g s
  | .vop g => Sys2Proof.Machine.execVop g s
  | .vcmp g => Sys2Proof.Machine.execVcmp g s
  | .vsel g => Sys2Proof.Machine.execVsel g s
  | .vcurve g => Sys2Proof.Machine.execVcurve g s
  | .vld g ce => Sys2Proof.Machine.execVld g ce s
  | .vst g => Sys2Proof.Machine.execVst g s
  | .vbcast g => Sys2Proof.Machine.execVbcast g s
  | .vext g => Sys2Proof.Machine.execVext g s
  | .vred g => Sys2Proof.Machine.execVred g s
  | .vcvt g => Sys2Proof.Machine.execVcvt g s
  | .vquant g => Sys2Proof.Machine.execVquant g s
  | .mop g => Sys2Proof.Machine.execMop g s
  | .gather g => Sys2Proof.Machine.execGather g s
  | .gatherDone g op => Sys2Proof.Machine.execGatherDone g op s
  | .scatter g => Sys2Proof.Machine.execScatter g s
  | .atom g => Sys2Proof.Machine.execAtom g s
  | .atomDone g op => Sys2Proof.Machine.execAtomDone g op s
  | .waitc g => Sys2Proof.Machine.execWaitc g s
  | .waitcPoll g => Sys2Proof.Machine.execWaitcPoll g s
  | .waitTimeout g => Sys2Proof.Machine.execWaitTimeout g s
  | .waitt g => Sys2Proof.Machine.execWaitt g s
  | .waittRelease g => Sys2Proof.Machine.execWaittRelease g s
  | .timeLimit g => Sys2Proof.Machine.execTimeLimit g s
  | .codeFlush m g => Sys2Proof.Machine.execCodeFlush m g s
  | .taskRequest g => Sys2Proof.Machine.execTaskRequest g s
  | .taskAskRetry g => Sys2Proof.Machine.execTaskAskRetry g s
  | .listFetch d => Sys2Proof.Machine.execListFetch d s
  | .storeRoomFetch d => Sys2Proof.Machine.execStoreRoomFetch d s
  | .taskDone d => Sys2Proof.Machine.execTaskDone d s
  | .doneAddError d => Sys2Proof.Machine.execDoneAddError d s
  | .abandonReport d => Sys2Proof.Machine.execAbandonReport d s
  | .taskFailReport d => Sys2Proof.Machine.execTaskFailReport d s
  | .failPop m d => Sys2Proof.Machine.execFailPop m d s
  | .watchArm m d counter target record reserved => Sys2Proof.Machine.execWatchArm m d counter target record reserved s
  | .submit m d record => Sys2Proof.Machine.execSubmit m d record s
  | .releaseRecord d => Sys2Proof.Machine.execReleaseRecord d s
  | .bellRing w => Sys2Proof.Machine.execBellRing w s
  | .timeCorrection w => Sys2Proof.Machine.execTimeCorrection w s
  | .refclkLost => Sys2Proof.Machine.execRefclkLost s
  | .refclkRestored => Sys2Proof.Machine.execRefclkRestored s
  | .barrierArrive pk => Sys2Proof.Machine.execBarrierArrive pk s
  | .barrierBell pk => Sys2Proof.Machine.execBarrierBell pk s
  | .barrierResend barrier => Sys2Proof.Machine.execBarrierResend barrier s
  | .memoryRead addr len upsets => Sys2Proof.Machine.execMemoryRead addr len upsets s
  | .memoryWrite addr data upsets => Sys2Proof.Machine.execMemoryWrite addr data upsets s
  | .scrubSlot ch upsets => Sys2Proof.Machine.execScrubSlot ch upsets s
  | .rowRemap spareFails => Sys2Proof.Machine.execRowRemap spareFails s
  | .pageRetire => Sys2Proof.Machine.execPageRetire s
  | .channelFail ch => Sys2Proof.Machine.execChannelFail ch s
  | .memoryAdderUpdate fn addr value => Sys2Proof.Machine.execMemoryAdderUpdate fn addr value s
  | .addrProbe m probe => Sys2Proof.Machine.execAddrProbe m probe s
  | .mr4Read ch mr4 => Sys2Proof.Machine.execMr4Read ch mr4 s
  | .channelTraining ch rate => Sys2Proof.Machine.execChannelTraining ch rate s
  | .fillComplete => Sys2Proof.Machine.execFillComplete s
  | .systemAreaPersist => Sys2Proof.Machine.execSystemAreaPersist s
  | .dataFrame p f => Sys2Proof.Machine.execDataFrame p f s
  | .idleFrame p f => Sys2Proof.Machine.execIdleFrame p f s
  | .timeFrame p f arrival => Sys2Proof.Machine.execTimeFrame p f arrival s
  | .frameDiscard p why => Sys2Proof.Machine.execFrameDiscard p why s
  | .timeFrameTx p => Sys2Proof.Machine.execTimeFrameTx p s
  | .replayTimeout p => Sys2Proof.Machine.execReplayTimeout p s
  | .swap p lane => Sys2Proof.Machine.execSwap p lane s
  | .narrow p lane => Sys2Proof.Machine.execNarrow p lane s
  | .widen p lane => Sys2Proof.Machine.execWiden p lane s
  | .cmdAck p => Sys2Proof.Machine.execCmdAck p s
  | .laneMapChange p dir => Sys2Proof.Machine.execLaneMapChange p dir s
  | .portEnable m p on => Sys2Proof.Machine.execPortEnable m p on s
  | .laserCheckPass p => Sys2Proof.Machine.execLaserCheckPass p s
  | .laserRecheck p => Sys2Proof.Machine.execLaserRecheck p s
  | .laneTrainDone p txGood rxGood => Sys2Proof.Machine.execLaneTrainDone p txGood rxGood s
  | .alignDone p partnerMap => Sys2Proof.Machine.execAlignDone p partnerMap s
  | .paramFrame p partner => Sys2Proof.Machine.execParamFrame p partner s
  | .downRetry p => Sys2Proof.Machine.execDownRetry p s
  | .trainStateTimeout p => Sys2Proof.Machine.execTrainStateTimeout p s
  | .retrain m p => Sys2Proof.Machine.execRetrain m p s
  | .portReset m p => Sys2Proof.Machine.execPortReset m p s
  | .portReplan m p => Sys2Proof.Machine.execPortReplan m p s
  | .laneWindow p ratios => Sys2Proof.Machine.execLaneWindow p ratios s
  | .laneHardFail p lane => Sys2Proof.Machine.execLaneHardFail p lane s
  | .laneBringIn => Sys2Proof.Machine.execLaneBringIn s
  | .laserLoss p => Sys2Proof.Machine.execLaserLoss p s
  | .laserPwrSample p power => Sys2Proof.Machine.execLaserPwrSample p power s
  | .rdReq pk => Sys2Proof.Machine.execRdReq pk s
  | .wrReq pk => Sys2Proof.Machine.execWrReq pk s
  | .rdResp pk => Sys2Proof.Machine.execRdResp pk s
  | .wrAck pk => Sys2Proof.Machine.execWrAck pk s
  | .errResp pk => Sys2Proof.Machine.execErrResp pk s
  | .packetForward pk => Sys2Proof.Machine.execPacketForward pk s
  | .msgTimeout die msgId => Sys2Proof.Machine.execMsgTimeout die msgId s
  | .collArm m desc => Sys2Proof.Machine.execCollArm m desc s
  | .collStart => Sys2Proof.Machine.execCollStart s
  | .collReady pk => Sys2Proof.Machine.execCollReady pk s
  | .collData pk => Sys2Proof.Machine.execCollData pk s
  | .collAck pk => Sys2Proof.Machine.execCollAck pk s
  | .collEnd coll => Sys2Proof.Machine.execCollEnd coll s
  | .collAbort m => Sys2Proof.Machine.execCollAbort m s
  | .exchCount pk => Sys2Proof.Machine.execExchCount pk s
  | .exchAdmit pk => Sys2Proof.Machine.execExchAdmit pk s
  | .exchData pk => Sys2Proof.Machine.execExchData pk s
  | .exchReturn pk => Sys2Proof.Machine.execExchReturn pk s
  | .join m => Sys2Proof.Machine.execJoin m s
  | .joinRetry => Sys2Proof.Machine.execJoinRetry s
  | .joinReq pk => Sys2Proof.Machine.execJoinReq pk s
  | .joinResp pk => Sys2Proof.Machine.execJoinResp pk s
  | .joinOpen m on => Sys2Proof.Machine.execJoinOpen m on s
  | .memberUpdate pk => Sys2Proof.Machine.execMemberUpdate pk s
  | .memberSync pk => Sys2Proof.Machine.execMemberSync pk s
  | .epochApply => Sys2Proof.Machine.execEpochApply s
  | .heartbeat pk => Sys2Proof.Machine.execHeartbeat pk s
  | .heartbeatTx => Sys2Proof.Machine.execHeartbeatTx s
  | .memberLost rank => Sys2Proof.Machine.execMemberLost rank s
  | .gmLost => Sys2Proof.Machine.execGmLost s
  | .route m word0 word1 => Sys2Proof.Machine.execRoute m word0 word1 s
  | .rankset m word0 word1 word2 word3 => Sys2Proof.Machine.execRankset m word0 word1 word2 word3 s
  | .ledgerArm m d record => Sys2Proof.Machine.execLedgerArm m d record s
  | .ledgerCheckRun d => Sys2Proof.Machine.execLedgerCheckRun d s
  | .gateAdd m d gate => Sys2Proof.Machine.execGateAdd m d gate s
  | .updArm m d desc => Sys2Proof.Machine.execUpdArm m d desc s
  | .updatePrepare d => Sys2Proof.Machine.execUpdatePrepare d s
  | .subshardCommit d => Sys2Proof.Machine.execSubshardCommit d s
  | .owedRecheck d => Sys2Proof.Machine.execOwedRecheck d s
  | .updAbort m d => Sys2Proof.Machine.execUpdAbort m d s
  | .updResume m d => Sys2Proof.Machine.execUpdResume m d s
  | .updDiscard m d => Sys2Proof.Machine.execUpdDiscard m d s
  | .trigger m => Sys2Proof.Machine.execTrigger m s
  | .clutchPeriodExpiry => Sys2Proof.Machine.execClutchPeriodExpiry s
  | .risk pk => Sys2Proof.Machine.execRisk pk s
  | .clutchStart pk => Sys2Proof.Machine.execClutchStart pk s
  | .captureBell => Sys2Proof.Machine.execCaptureBell s
  | .shardStream => Sys2Proof.Machine.execShardStream s
  | .unitP pk => Sys2Proof.Machine.execUnitP pk s
  | .unitQ pk => Sys2Proof.Machine.execUnitQ pk s
  | .unitCount pk => Sys2Proof.Machine.execUnitCount pk s
  | .secured pk => Sys2Proof.Machine.execSecured pk s
  | .clutchCommit pk => Sys2Proof.Machine.execClutchCommit pk s
  | .clutchAbort pk => Sys2Proof.Machine.execClutchAbort pk s
  | .captureAbort m => Sys2Proof.Machine.execCaptureAbort m s
  | .restore m => Sys2Proof.Machine.execRestore m s
  | .restoreStart pk => Sys2Proof.Machine.execRestoreStart pk s
  | .restoreBell => Sys2Proof.Machine.execRestoreBell s
  | .rebuildReq pk => Sys2Proof.Machine.execRebuildReq pk s
  | .rebuildPart pk => Sys2Proof.Machine.execRebuildPart pk s
  | .restoreDone pk => Sys2Proof.Machine.execRestoreDone pk s
  | .restoreAbort m => Sys2Proof.Machine.execRestoreAbort m s
  | .reprotect => Sys2Proof.Machine.execReprotect s
  | .gmWaitExpiry => Sys2Proof.Machine.execGmWaitExpiry s
  | .exportClutch m => Sys2Proof.Machine.execExportClutch m s
  | .importClutch m => Sys2Proof.Machine.execImportClutch m s
  | .xferAbort m => Sys2Proof.Machine.execXferAbort m s
  | .flashRefresh die block why => Sys2Proof.Machine.execFlashRefresh die block why s
  | .wearLevel die => Sys2Proof.Machine.execWearLevel die s
  | .blockRetire die block why readable => Sys2Proof.Machine.execBlockRetire die block why readable s
  | .flashDieFail die => Sys2Proof.Machine.execFlashDieFail die s
  | .freqStep => Sys2Proof.Machine.execFreqStep s
  | .droopTrip w => Sys2Proof.Machine.execDroopTrip w s
  | .droopRequest w => Sys2Proof.Machine.execDroopRequest w s
  | .droopRelease w => Sys2Proof.Machine.execDroopRelease w s
  | .marginWindow dom readings => Sys2Proof.Machine.execMarginWindow dom readings s
  | .pllLockLoss dom => Sys2Proof.Machine.execPllLockLoss dom s
  | .replan m d => Sys2Proof.Machine.execReplan m d s
  | .replanTimer d => Sys2Proof.Machine.execReplanTimer d s
  | .replanStepDone d r => Sys2Proof.Machine.execReplanStepDone d r s
  | .pmbusPoll rail t => Sys2Proof.Machine.execPmbusPoll rail t s
  | .phaseBringIn => Sys2Proof.Machine.execPhaseBringIn s
  | .powerMeasure watts => Sys2Proof.Machine.execPowerMeasure watts s
  | .capRaise => Sys2Proof.Machine.execCapRaise s
  | .powerLimitAssert => Sys2Proof.Machine.execPowerLimitAssert s
  | .powerLimitRelease => Sys2Proof.Machine.execPowerLimitRelease s
  | .fAllowUpdate => Sys2Proof.Machine.execFAllowUpdate s
  | .allow pk => Sys2Proof.Machine.execAllow pk s
  | .cap pk => Sys2Proof.Machine.execCap pk s
  | .freqRaiseHold => Sys2Proof.Machine.execFreqRaiseHold s
  | .freqSet pk => Sys2Proof.Machine.execFreqSet pk s
  | .voltLate d => Sys2Proof.Machine.execVoltLate d s
  | .supplyDip decivolts => Sys2Proof.Machine.execSupplyDip decivolts s
  | .supplyReset => Sys2Proof.Machine.execSupplyReset s
  | .supplyRecover => Sys2Proof.Machine.execSupplyRecover s
  | .supplyHigh decivolts => Sys2Proof.Machine.execSupplyHigh decivolts s
  | .thermistorRead inlet outlet => Sys2Proof.Machine.execThermistorRead inlet outlet s
  | .flowAverage milliHz => Sys2Proof.Machine.execFlowAverage milliHz s
  | .inletHotTimeout => Sys2Proof.Machine.execInletHotTimeout s
  | .flowLowTimeout => Sys2Proof.Machine.execFlowLowTimeout s
  | .flowPulseTimeout => Sys2Proof.Machine.execFlowPulseTimeout s
  | .flowRestored => Sys2Proof.Machine.execFlowRestored s
  | .heatBalanceCheck watts => Sys2Proof.Machine.execHeatBalanceCheck watts s
  | .sensorPass w temps => Sys2Proof.Machine.execSensorPass w temps s
  | .thermalLower w => Sys2Proof.Machine.execThermalLower w s
  | .thermalRaise w => Sys2Proof.Machine.execThermalRaise w s
  | .tripSleep d => Sys2Proof.Machine.execTripSleep d s
  | .tripWake d lost => Sys2Proof.Machine.execTripWake d lost s
  | .backstopCut d hot => Sys2Proof.Machine.execBackstopCut d hot s
  | .tripClear m => Sys2Proof.Machine.execTripClear m s
  | .rotationAdvance d => Sys2Proof.Machine.execRotationAdvance d s
  | .thermalFLower => Sys2Proof.Machine.execThermalFLower s
  | .thermalFReturn => Sys2Proof.Machine.execThermalFReturn s
  | .fence m word0 word1 => Sys2Proof.Machine.execFence m word0 word1 s
  | .coreBringIn => Sys2Proof.Machine.execCoreBringIn s
  | .selfTestDone g passed => Sys2Proof.Machine.execSelfTestDone g passed s
  | .rowSpareReplace g => Sys2Proof.Machine.execRowSpareReplace g s
  | .mgrWatchdog mc => Sys2Proof.Machine.execMgrWatchdog mc s
  | .mgrSpareStart => Sys2Proof.Machine.execMgrSpareStart s
  | .healthTick => Sys2Proof.Machine.execHealthTick s
  | .downtimePersist => Sys2Proof.Machine.execDowntimePersist s
  | .openSession o => Sys2Proof.Machine.execOpenSession o s
  | .closeSession h payload => Sys2Proof.Machine.execCloseSession h payload s
  | .keepalive h => Sys2Proof.Machine.execKeepalive h s
  | .dataMsg h payload => Sys2Proof.Machine.execDataMsg h payload s
  | .datagramBad b => Sys2Proof.Machine.execDatagramBad b s
  | .commandUnknown c opcode => Sys2Proof.Machine.execCommandUnknown c opcode s
  | .getInfo c => Sys2Proof.Machine.execGetInfo c s
  | .regRead c => Sys2Proof.Machine.execRegRead c s
  | .regWrite c => Sys2Proof.Machine.execRegWrite c s
  | .mbxRead c => Sys2Proof.Machine.execMbxRead c s
  | .mbxWrite c => Sys2Proof.Machine.execMbxWrite c s
  | .regReadK c => Sys2Proof.Machine.execRegReadK c s
  | .regWriteK c => Sys2Proof.Machine.execRegWriteK c s
  | .mbxReadK c => Sys2Proof.Machine.execMbxReadK c s
  | .mbxWriteK c => Sys2Proof.Machine.execMbxWriteK c s
  | .jobLoad c => Sys2Proof.Machine.execJobLoad c s
  | .bundleComplete => Sys2Proof.Machine.execBundleComplete s
  | .jobStart c => Sys2Proof.Machine.execJobStart c s
  | .jobStop c => Sys2Proof.Machine.execJobStop c s
  | .planStep => Sys2Proof.Machine.execPlanStep s
  | .netConfig c => Sys2Proof.Machine.execNetConfig c s
  | .telemetrySet c => Sys2Proof.Machine.execTelemetrySet c s
  | .telemetryTx => Sys2Proof.Machine.execTelemetryTx s
  | .ingestOpen c => Sys2Proof.Machine.execIngestOpen c s
  | .eventsFrom c => Sys2Proof.Machine.execEventsFrom c s
  | .sessionResend => Sys2Proof.Machine.execSessionResend s
  | .ackKeepalive => Sys2Proof.Machine.execAckKeepalive s
  | .keepaliveTx => Sys2Proof.Machine.execKeepaliveTx s
  | .sessionIdleTimeout => Sys2Proof.Machine.execSessionIdleTimeout s
  | .dieSleepCmd c => Sys2Proof.Machine.execDieSleepCmd c s
  | .dieWakeCmd c lost => Sys2Proof.Machine.execDieWakeCmd c lost s
  | .standbyCmd c => Sys2Proof.Machine.execStandbyCmd c s
  | .wakeCmd c lost => Sys2Proof.Machine.execWakeCmd c lost s
  | .reset c => Sys2Proof.Machine.execReset c s
  | .exportCmd c => Sys2Proof.Machine.execExportCmd c s
  | .importCmd c => Sys2Proof.Machine.execImportCmd c s
  | .clutch c => Sys2Proof.Machine.execClutch c s
  | .attest c => Sys2Proof.Machine.execAttest c s
  | .quoteReady => Sys2Proof.Machine.execQuoteReady s
  | .quoteRead c => Sys2Proof.Machine.execQuoteRead c s
  | .certRead c => Sys2Proof.Machine.execCertRead c s
  | .imageBegin c => Sys2Proof.Machine.execImageBegin c s
  | .imageCommit c => Sys2Proof.Machine.execImageCommit c s
  | .imageErase c => Sys2Proof.Machine.execImageErase c s
  | .svnCommitCmd c => Sys2Proof.Machine.execSvnCommitCmd c s
  | .presenceStatus c => Sys2Proof.Machine.execPresenceStatus c s
  | .debugAccess c => Sys2Proof.Machine.execDebugAccess c s
  | .svnCommit m => Sys2Proof.Machine.execSvnCommit m s
  | .eraseA m => Sys2Proof.Machine.execEraseA m s
  | .eraseB m => Sys2Proof.Machine.execEraseB m s
  | .presenceClose m => Sys2Proof.Machine.execPresenceClose m s
  | .presencePress => Sys2Proof.Machine.execPresencePress s
  | .presenceExpiry => Sys2Proof.Machine.execPresenceExpiry s
  | .pinSample pins => Sys2Proof.Machine.execPinSample pins s
  | .sealBreak => Sys2Proof.Machine.execSealBreak s
  | .smbusRead code write pec => Sys2Proof.Machine.execSmbusRead code write pec s
  | .smbusRefresh => Sys2Proof.Machine.execSmbusRefresh s
  | .powerOn straps => Sys2Proof.Machine.execPowerOn straps s
  | .coreRelease failed => Sys2Proof.Machine.execCoreRelease failed s
  | .resetLLow ns => Sys2Proof.Machine.execResetLLow ns s
  | .moduleReset m => Sys2Proof.Machine.execModuleReset m s
  | .warmReset m => Sys2Proof.Machine.execWarmReset m s
  | .dieSleep m d => Sys2Proof.Machine.execDieSleep m d s
  | .dieWake m d lost => Sys2Proof.Machine.execDieWake m d lost s
  | .standby m => Sys2Proof.Machine.execStandby m s
  | .wake m lost => Sys2Proof.Machine.execWake m lost s
  | .wardNap w => Sys2Proof.Machine.execWardNap w s
  | .wardWake w => Sys2Proof.Machine.execWardWake w s
  | .mgmtLos => Sys2Proof.Machine.execMgmtLos s
  | .resetLRelease straps => Sys2Proof.Machine.execResetLRelease straps s
  | .pcsBlockLock locked => Sys2Proof.Machine.execPcsBlockLock locked s
  | .railConfirmed d => Sys2Proof.Machine.execRailConfirmed d s
  | .unitWritten lost => Sys2Proof.Machine.execUnitWritten lost s
  | .mgrCacheUe mc => Sys2Proof.Machine.execMgrCacheUe mc s
  | .coreHang g => Sys2Proof.Machine.execCoreHang g s
  | .managerDieTrip celsius => Sys2Proof.Machine.execManagerDieTrip celsius s
  | .icmpEcho q => Sys2Proof.Machine.execIcmpEcho q s
  | .dhcpv4 lease prefixLen => Sys2Proof.Machine.execDhcpv4 lease prefixLen s

end Sys2Proof.Machine
end

