-- ==== Sys2Proof/Machine/Step.lean ====
section
/-!
DEFINITION. One step of the block: the command at the front of the queue, or, with none waiting, one tick of the time counter.
-/

namespace Sys2Proof.Machine

/-- One tick of the time counter, 1 ns (R28). Slewing moves the count by at most 200 parts per million (R202): at every 5,000th
count one tick more or one tick less. The counter never moves backward. -/
def tick (s : State) : State :=
  let n := s.net
  if s.time.toNat % 5000 ≠ 0 then { s with time := s.time + 1 }
  else if 16 ≤ n.slew then { s with time := s.time + 2, net := { n with slew := n.slew - 16 } }
  else if n.slew ≤ -16 ∧ n.slewHeld = false then { s with net := { n with slew := n.slew + 16, slewHeld := true } }
  else { s with time := s.time + 1, net := { n with slewHeld := false } }

/-- Take the command at the front of the queue and run it with the queue's rest; with none waiting one tick passes (log 3). -/
def step (s : State) : Host.Outcome State Fault Refusal :=
  match s.pending with
  | [] => .next (tick s)
  | c :: rest => exec c { s with pending := rest }

/-- The state with the command that a word spells at the front of its queue: no word spells one (log 1). -/
def State.withFetchWord (s : State) (nbits w : Nat) : State :=
  match decodeTableWord nbits w with
  | some c => { s with pending := c :: s.pending }
  | none => s

end Sys2Proof.Machine
end

