-- ==== Sys2Proof/WellFormed.lean ====
section
/-!
DEFINITION. Well-formed commands: what a command's operands must satisfy to be one that the manual describes. The meanings are
total on ill-formed commands too; statements that need a bound take it from here.
-/

namespace Sys2Proof

/-- Widths of an access (R4): one to four bytes. -/
def accessWidthOk (width : Nat) : Bool := width == 8 || width == 16 || width == 32

/-- Pages that the page map gives to a block (R36). -/
def mappedPage (page : BitVec 12) : Bool :=
  let p := page.toNat
  decide (p ≤ 0x6) || (decide (0x8 ≤ p) && decide (p ≤ 0xB)) || (decide (0x10 ≤ p) && decide (p ≤ 0x31))
    || (decide (0x40 ≤ p) && decide (p ≤ 0x50)) || (decide (0x60 ≤ p) && decide (p ≤ 0x6B))
    || (decide (0x70 ≤ p) && decide (p ≤ 0x8F)) || (decide (0x100 ≤ p) && decide (p ≤ 0x5BF))

/-- A packet arrives whole: 16 bytes for each unit of LEN (R279). -/
def packetWf (p : Packet) : Bool := decide (p.payload.length = 16 * p.len.toNat)

/-- One codeword of 544 symbols on the nine lanes of a port (R252, R259). -/
def laneWordWf (w : LaneWord) : Bool := decide (w.length = 9) && w.all (fun l => decide (l.length ≤ 544))

/-- PARAM reports a share for each virtual channel (R261). -/
def partnerWf (p : Partner) : Bool := decide (p.shares.length = 4)

/-- A stored byte of an 8,192-byte slot with at least one bit flipped (R217). -/
def upsetsWf (l : List Upset) : Bool := l.all (fun u => decide (u.byte < 8192) && decide (u.flips ≠ 0))

/-- A management message carries at most 1,408 payload bytes (R473). -/
def payloadWf (l : List (BitVec 8)) : Bool := decide (l.length ≤ 1408)

/-- A COMMAND carries the arguments that its payload has room for (R477). -/
def cmdWf (c : CmdMsg) : Bool := decide (c.payloadLen ≤ 1408) && decide (c.args.length = c.payloadLen - 8)

/-- An OPEN's payload fits a datagram (R473). -/
def openWf (o : OpenMsg) : Bool := decide (o.len ≤ 1408)

/-- An echo request fits a frame of 1,518 bytes (R472). -/
def echoWf : EchoReq → Bool
  | .arp _ => true
  | .neighbour _ => true
  | .echo4 _ data => decide (data.length ≤ 1472)
  | .echo6 _ data => decide (data.length ≤ 1452)

/-- Opcodes that R478 and R510 do not list. -/
def reservedOpcode (op : BitVec 16) : Bool :=
  let n := op.toNat
  !((decide (1 ≤ n) && decide (n ≤ 9)) || (decide (0x10 ≤ n) && decide (n ≤ 0x16)) || (decide (0x20 ≤ n) && decide (n ≤ 0x24))
    || (decide (0x30 ≤ n) && decide (n ≤ 0x32)) || (decide (0x40 ≤ n) && decide (n ≤ 0x48)))

/-- Whether a command is well formed. -/
def Instr.wf : Instr → Bool
  | .registerWrite _ _ width _ => accessWidthOk width
  | .rcRead _ _ width => accessWidthOk width
  | .voteScan page => mappedPage page
  | .mailboxRead _ page _ _ => mappedPage page
  | .mailboxWrite _ page _ => mappedPage page
  | .mailboxStage _ page _ => mappedPage page
  | .eventNotify page => mappedPage page
  | .barrierArrive pk => packetWf pk
  | .barrierBell pk => packetWf pk
  | .memoryRead _ len upsets => decide (0 < len) && upsetsWf upsets
  | .memoryWrite _ data upsets => !data.isEmpty && upsetsWf upsets
  | .scrubSlot _ upsets => upsetsWf upsets
  | .dataFrame _ w => laneWordWf w
  | .idleFrame _ w => laneWordWf w
  | .timeFrame _ w _ => laneWordWf w
  | .frameDiscard _ w => laneWordWf w
  | .alignDone _ m => decide (m.length ≤ 8)
  | .paramFrame _ partner => partnerWf partner
  | .laneWindow _ r => decide (r.length = 9) && r.all (fun x => decide (x.corrected ≤ x.symbols))
  | .rdReq pk => packetWf pk
  | .wrReq pk => packetWf pk
  | .rdResp pk => packetWf pk
  | .wrAck pk => packetWf pk
  | .errResp pk => packetWf pk
  | .packetForward pk => packetWf pk
  | .collReady pk => packetWf pk
  | .collData pk => packetWf pk
  | .collAck pk => packetWf pk
  | .exchCount pk => packetWf pk
  | .exchAdmit pk => packetWf pk
  | .exchData pk => packetWf pk
  | .exchReturn pk => packetWf pk
  | .joinReq pk => packetWf pk
  | .joinResp pk => packetWf pk
  | .memberUpdate pk => packetWf pk
  | .memberSync pk => packetWf pk
  | .heartbeat pk => packetWf pk
  | .risk pk => packetWf pk
  | .clutchStart pk => packetWf pk
  | .unitP pk => packetWf pk
  | .unitQ pk => packetWf pk
  | .unitCount pk => packetWf pk
  | .secured pk => packetWf pk
  | .clutchCommit pk => packetWf pk
  | .clutchAbort pk => packetWf pk
  | .restoreStart pk => packetWf pk
  | .rebuildReq pk => packetWf pk
  | .rebuildPart pk => packetWf pk
  | .restoreDone pk => packetWf pk
  | .marginWindow _ r => decide (r.length = 8)
  | .allow pk => packetWf pk
  | .cap pk => packetWf pk
  | .freqSet pk => packetWf pk
  | .sensorPass _ temps => !temps.isEmpty
  | .openSession o => openWf o
  | .closeSession _ payload => payloadWf payload
  | .dataMsg _ payload => payloadWf payload
  | .commandUnknown c op => cmdWf c && (reservedOpcode op || decide (c.payloadLen < 2))
  | .getInfo c => cmdWf c
  | .regRead c => cmdWf c
  | .regWrite c => cmdWf c
  | .mbxRead c => cmdWf c
  | .mbxWrite c => cmdWf c
  | .regReadK c => cmdWf c
  | .regWriteK c => cmdWf c
  | .mbxReadK c => cmdWf c
  | .mbxWriteK c => cmdWf c
  | .jobLoad c => cmdWf c
  | .jobStart c => cmdWf c
  | .jobStop c => cmdWf c
  | .netConfig c => cmdWf c
  | .telemetrySet c => cmdWf c
  | .ingestOpen c => cmdWf c
  | .eventsFrom c => cmdWf c
  | .dieSleepCmd c => cmdWf c
  | .dieWakeCmd c _ => cmdWf c
  | .standbyCmd c => cmdWf c
  | .wakeCmd c _ => cmdWf c
  | .reset c => cmdWf c
  | .exportCmd c => cmdWf c
  | .importCmd c => cmdWf c
  | .clutch c => cmdWf c
  | .attest c => cmdWf c
  | .quoteRead c => cmdWf c
  | .certRead c => cmdWf c
  | .imageBegin c => cmdWf c
  | .imageCommit c => cmdWf c
  | .imageErase c => cmdWf c
  | .svnCommitCmd c => cmdWf c
  | .presenceStatus c => cmdWf c
  | .debugAccess c => cmdWf c
  | .coreRelease failed => decide failed.Nodup
  | .icmpEcho q => echoWf q
  | .dhcpv4 _ n => decide (n.toNat ≤ 32)
  | .accessTimeout _ _ _ _ _ | .pass _ | .passStart _ _ | .passComplete _ _ | .accInv _ _ _ | .accInvDone _ _
  | .accUe _ _ _ _ | .regUe _ | .ocUe _ _ _ | .preemptDecision _ | .tileSuspend _ | .tileResume _
  | .suspendedTileFail _ _ | .tileStart _ | .imageLoadDone _ | .nop _ | .jmp _ | .br _ | .loop _ | .call _ | .ret _
  | .abort _ | .commit _ | .commitPerform _ | .commitComplete _ | .li _ | .addi _ | .lih _ | .sop _ _ | .sld _
  | .sst _ | .rdreg _ | .wrreg _ | .time _ | .dma _ | .dmaDone _ _ | .asyncFail _ _ | .put _ | .fput _ | .dwait _
  | .pwait _ | .accrd _ _ | .accwr _ | .vop _ | .vcmp _ | .vsel _ | .vcurve _ | .vld _ _ | .vst _ | .vbcast _
  | .vext _ | .vred _ | .vcvt _ | .vquant _ | .mop _ | .gather _ | .gatherDone _ _ | .scatter _ | .atom _
  | .atomDone _ _ | .waitc _ | .waitcPoll _ | .waitTimeout _ | .waitt _ | .waittRelease _ | .timeLimit _
  | .codeFlush _ _ | .taskRequest _ | .taskAskRetry _ | .listFetch _ | .storeRoomFetch _ | .taskDone _
  | .doneAddError _ | .abandonReport _ | .taskFailReport _ | .failPop _ _ | .watchArm _ _ _ _ _ _ | .submit _ _ _
  | .releaseRecord _ | .bellRing _ | .timeCorrection _ | .refclkLost | .refclkRestored | .barrierResend _
  | .rowRemap _ | .pageRetire | .channelFail _ | .memoryAdderUpdate _ _ _ | .addrProbe _ _ | .mr4Read _ _
  | .channelTraining _ _ | .fillComplete | .systemAreaPersist | .timeFrameTx _ | .replayTimeout _
  | .swap _ _ | .narrow _ _ | .widen _ _ | .cmdAck _ | .laneMapChange _ _ | .portEnable _ _ _ | .laserCheckPass _
  | .laserRecheck _ | .laneTrainDone _ _ _ | .downRetry _ | .trainStateTimeout _ | .retrain _ _ | .portReset _ _
  | .portReplan _ _ | .laneHardFail _ _ | .laneBringIn | .laserLoss _ | .laserPwrSample _ _ | .msgTimeout _ _
  | .collArm _ _ | .collStart | .collEnd _ | .collAbort _ | .join _ | .joinRetry | .joinOpen _ _ | .epochApply
  | .heartbeatTx | .memberLost _ | .gmLost | .route _ _ _ | .rankset _ _ _ _ _ | .ledgerArm _ _ _ | .ledgerCheckRun _
  | .gateAdd _ _ _ | .updArm _ _ _ | .updatePrepare _ | .subshardCommit _ | .owedRecheck _ | .updAbort _ _
  | .updResume _ _ | .updDiscard _ _ | .trigger _ | .clutchPeriodExpiry | .captureBell | .shardStream
  | .captureAbort _ | .restore _ | .restoreBell | .restoreAbort _ | .reprotect | .gmWaitExpiry | .exportClutch _
  | .importClutch _ | .xferAbort _ | .flashRefresh _ _ _ | .wearLevel _ | .blockRetire _ _ _ _ | .flashDieFail _
  | .freqStep | .droopTrip _ | .droopRequest _ | .droopRelease _ | .pllLockLoss _ | .replan _ _ | .replanTimer _
  | .replanStepDone _ _ | .pmbusPoll _ _ | .phaseBringIn | .powerMeasure _ | .capRaise | .powerLimitAssert
  | .powerLimitRelease | .fAllowUpdate | .freqRaiseHold | .voltLate _ | .supplyDip _ | .supplyReset | .supplyRecover
  | .supplyHigh _ | .thermistorRead _ _ | .flowAverage _ | .inletHotTimeout | .flowLowTimeout | .flowPulseTimeout
  | .flowRestored | .heatBalanceCheck _ | .thermalLower _ | .thermalRaise _ | .tripSleep _ | .tripWake _ _
  | .backstopCut _ _ | .tripClear _ | .rotationAdvance _ | .thermalFLower | .thermalFReturn | .fence _ _ _
  | .coreBringIn | .selfTestDone _ _ | .rowSpareReplace _ | .mgrWatchdog _ | .mgrSpareStart | .healthTick
  | .downtimePersist | .keepalive _ | .datagramBad _ | .bundleComplete | .planStep | .telemetryTx | .sessionResend
  | .ackKeepalive | .keepaliveTx | .sessionIdleTimeout | .quoteReady | .svnCommit _ | .eraseA _ | .eraseB _
  | .presenceClose _ | .presencePress | .presenceExpiry | .pinSample _ | .sealBreak | .smbusRead _ _ _
  | .smbusRefresh | .powerOn _ | .resetLLow _ | .moduleReset _ | .warmReset _ | .dieSleep _ _ | .dieWake _ _ _
  | .standby _ | .wake _ _ | .wardNap _ | .wardWake _ | .mgmtLos | .resetLRelease _ | .pcsBlockLock _
  | .railConfirmed _ | .unitWritten _ | .mgrCacheUe _ | .coreHang _ | .managerDieTrip _ => true

end Sys2Proof
end

