-- ==== Sys2Proof/Laws/PerInstr.lean ====
section
/-!
SUPPORT. Statements about every command as syntax, one lemma per command: no word of the operation table spells it (log 1).
-/

namespace Sys2Proof.Laws.NoWord

/-- No number of bits and no word spells the command. -/
def Statement (i : Instr) : Prop := ∀ nbits w : Nat, decodeTableWord nbits w ≠ some i

theorem registerWrite (m : Master) (addr : BitVec 44) (width : Nat) (value : BitVec 32) : Statement (.registerWrite m addr width value) := fun _ _ => nofun
theorem rcRead (m : Master) (addr : BitVec 44) (width : Nat) : Statement (.rcRead m addr width) := fun _ _ => nofun
theorem voteScan (page : BitVec 12) : Statement (.voteScan page) := fun _ _ => nofun
theorem mailboxRead (m : Master) (page : BitVec 12) (vid : BitVec 16) (part : Bool) : Statement (.mailboxRead m page vid part) := fun _ _ => nofun
theorem mailboxWrite (m : Master) (page : BitVec 12) (vid : BitVec 16) : Statement (.mailboxWrite m page vid) := fun _ _ => nofun
theorem mailboxStage (m : Master) (page : BitVec 12) (vid : BitVec 16) : Statement (.mailboxStage m page vid) := fun _ _ => nofun
theorem eventNotify (page : BitVec 12) : Statement (.eventNotify page) := fun _ _ => nofun
theorem accessTimeout (m : Master) (addr : BitVec 44) (write : Option (BitVec 32)) (applied : Bool) (cmd : Option CmdMsg) : Statement (.accessTimeout m addr write applied cmd) := fun _ _ => nofun
theorem pass (g : CoreId) : Statement (.pass g) := fun _ _ => nofun
theorem passStart (g : CoreId) (a : ArrayId) : Statement (.passStart g a) := fun _ _ => nofun
theorem passComplete (g : CoreId) (a : ArrayId) : Statement (.passComplete g a) := fun _ _ => nofun
theorem accInv (m : Master) (g : CoreId) (arrays : BitVec 4) : Statement (.accInv m g arrays) := fun _ _ => nofun
theorem accInvDone (g : CoreId) (a : ArrayId) : Statement (.accInvDone g a) := fun _ _ => nofun
theorem accUe (g : CoreId) (a : ArrayId) (slot : Fin 64) (row : Fin 32) : Statement (.accUe g a slot row) := fun _ _ => nofun
theorem regUe (g : CoreId) : Statement (.regUe g) := fun _ _ => nofun
theorem ocUe (g : CoreId) (offset : BitVec 21) (reader : OcReader) : Statement (.ocUe g offset reader) := fun _ _ => nofun
theorem preemptDecision (d : DieId) : Statement (.preemptDecision d) := fun _ _ => nofun
theorem tileSuspend (g : CoreId) : Statement (.tileSuspend g) := fun _ _ => nofun
theorem tileResume (g : CoreId) : Statement (.tileResume g) := fun _ _ => nofun
theorem suspendedTileFail (g : CoreId) (op : Nat) : Statement (.suspendedTileFail g op) := fun _ _ => nofun
theorem tileStart (g : CoreId) : Statement (.tileStart g) := fun _ _ => nofun
theorem imageLoadDone (g : CoreId) : Statement (.imageLoadDone g) := fun _ _ => nofun
theorem nop (g : CoreId) : Statement (.nop g) := fun _ _ => nofun
theorem jmp (g : CoreId) : Statement (.jmp g) := fun _ _ => nofun
theorem br (g : CoreId) : Statement (.br g) := fun _ _ => nofun
theorem loop (g : CoreId) : Statement (.loop g) := fun _ _ => nofun
theorem call (g : CoreId) : Statement (.call g) := fun _ _ => nofun
theorem ret (g : CoreId) : Statement (.ret g) := fun _ _ => nofun
theorem abort (g : CoreId) : Statement (.abort g) := fun _ _ => nofun
theorem commit (g : CoreId) : Statement (.commit g) := fun _ _ => nofun
theorem commitPerform (g : CoreId) : Statement (.commitPerform g) := fun _ _ => nofun
theorem commitComplete (g : CoreId) : Statement (.commitComplete g) := fun _ _ => nofun
theorem li (g : CoreId) : Statement (.li g) := fun _ _ => nofun
theorem addi (g : CoreId) : Statement (.addi g) := fun _ _ => nofun
theorem lih (g : CoreId) : Statement (.lih g) := fun _ _ => nofun
theorem sop (g : CoreId) (flips : List SoftError) : Statement (.sop g flips) := fun _ _ => nofun
theorem sld (g : CoreId) : Statement (.sld g) := fun _ _ => nofun
theorem sst (g : CoreId) : Statement (.sst g) := fun _ _ => nofun
theorem rdreg (g : CoreId) : Statement (.rdreg g) := fun _ _ => nofun
theorem wrreg (g : CoreId) : Statement (.wrreg g) := fun _ _ => nofun
theorem time (g : CoreId) : Statement (.time g) := fun _ _ => nofun
theorem dma (g : CoreId) : Statement (.dma g) := fun _ _ => nofun
theorem dmaDone (g : CoreId) (op : Nat) : Statement (.dmaDone g op) := fun _ _ => nofun
theorem asyncFail (g : CoreId) (op : Nat) : Statement (.asyncFail g op) := fun _ _ => nofun
theorem put (g : CoreId) : Statement (.put g) := fun _ _ => nofun
theorem fput (g : CoreId) : Statement (.fput g) := fun _ _ => nofun
theorem dwait (g : CoreId) : Statement (.dwait g) := fun _ _ => nofun
theorem pwait (g : CoreId) : Statement (.pwait g) := fun _ _ => nofun
theorem accrd (g : CoreId) (flips : List SoftError) : Statement (.accrd g flips) := fun _ _ => nofun
theorem accwr (g : CoreId) : Statement (.accwr g) := fun _ _ => nofun
theorem vop (g : CoreId) : Statement (.vop g) := fun _ _ => nofun
theorem vcmp (g : CoreId) : Statement (.vcmp g) := fun _ _ => nofun
theorem vsel (g : CoreId) : Statement (.vsel g) := fun _ _ => nofun
theorem vcurve (g : CoreId) : Statement (.vcurve g) := fun _ _ => nofun
theorem vld (g : CoreId) (flips : List SoftError) : Statement (.vld g flips) := fun _ _ => nofun
theorem vst (g : CoreId) : Statement (.vst g) := fun _ _ => nofun
theorem vbcast (g : CoreId) : Statement (.vbcast g) := fun _ _ => nofun
theorem vext (g : CoreId) : Statement (.vext g) := fun _ _ => nofun
theorem vred (g : CoreId) : Statement (.vred g) := fun _ _ => nofun
theorem vcvt (g : CoreId) : Statement (.vcvt g) := fun _ _ => nofun
theorem vquant (g : CoreId) : Statement (.vquant g) := fun _ _ => nofun
theorem mop (g : CoreId) : Statement (.mop g) := fun _ _ => nofun
theorem gather (g : CoreId) : Statement (.gather g) := fun _ _ => nofun
theorem gatherDone (g : CoreId) (op : Nat) : Statement (.gatherDone g op) := fun _ _ => nofun
theorem scatter (g : CoreId) : Statement (.scatter g) := fun _ _ => nofun
theorem atom (g : CoreId) : Statement (.atom g) := fun _ _ => nofun
theorem atomDone (g : CoreId) (op : Nat) : Statement (.atomDone g op) := fun _ _ => nofun
theorem waitc (g : CoreId) : Statement (.waitc g) := fun _ _ => nofun
theorem waitcPoll (g : CoreId) : Statement (.waitcPoll g) := fun _ _ => nofun
theorem waitTimeout (g : CoreId) : Statement (.waitTimeout g) := fun _ _ => nofun
theorem waitt (g : CoreId) : Statement (.waitt g) := fun _ _ => nofun
theorem waittRelease (g : CoreId) : Statement (.waittRelease g) := fun _ _ => nofun
theorem timeLimit (g : CoreId) : Statement (.timeLimit g) := fun _ _ => nofun
theorem codeFlush (m : Master) (g : CoreId) : Statement (.codeFlush m g) := fun _ _ => nofun
theorem taskRequest (g : CoreId) : Statement (.taskRequest g) := fun _ _ => nofun
theorem taskAskRetry (g : CoreId) : Statement (.taskAskRetry g) := fun _ _ => nofun
theorem listFetch (d : DieId) : Statement (.listFetch d) := fun _ _ => nofun
theorem storeRoomFetch (d : DieId) : Statement (.storeRoomFetch d) := fun _ _ => nofun
theorem taskDone (d : DieId) : Statement (.taskDone d) := fun _ _ => nofun
theorem doneAddError (d : DieId) : Statement (.doneAddError d) := fun _ _ => nofun
theorem abandonReport (d : DieId) : Statement (.abandonReport d) := fun _ _ => nofun
theorem taskFailReport (d : DieId) : Statement (.taskFailReport d) := fun _ _ => nofun
theorem failPop (m : Master) (d : DieId) : Statement (.failPop m d) := fun _ _ => nofun
theorem watchArm (m : Master) (d : DieId) (counter target record reserved : BitVec 64) : Statement (.watchArm m d counter target record reserved) := fun _ _ => nofun
theorem submit (m : Master) (d : DieId) (record : BitVec 64) : Statement (.submit m d record) := fun _ _ => nofun
theorem releaseRecord (d : DieId) : Statement (.releaseRecord d) := fun _ _ => nofun
theorem bellRing (w : WardId) : Statement (.bellRing w) := fun _ _ => nofun
theorem timeCorrection (c : TimeCopy) : Statement (.timeCorrection c) := fun _ _ => nofun
theorem refclkLost : Statement (.refclkLost) := fun _ _ => nofun
theorem refclkRestored : Statement (.refclkRestored) := fun _ _ => nofun
theorem barrierArrive (pk : Packet) : Statement (.barrierArrive pk) := fun _ _ => nofun
theorem barrierBell (pk : Packet) : Statement (.barrierBell pk) := fun _ _ => nofun
theorem barrierResend (barrier : BitVec 16) : Statement (.barrierResend barrier) := fun _ _ => nofun
theorem memoryRead (addr : BitVec 44) (len : Nat) (upsets : List Upset) : Statement (.memoryRead addr len upsets) := fun _ _ => nofun
theorem memoryWrite (addr : BitVec 44) (data : List (BitVec 8)) (upsets : List Upset) : Statement (.memoryWrite addr data upsets) := fun _ _ => nofun
theorem scrubSlot (ch : ChanId) (upsets : List Upset) : Statement (.scrubSlot ch upsets) := fun _ _ => nofun
theorem rowRemap (spareFails : Bool) : Statement (.rowRemap spareFails) := fun _ _ => nofun
theorem pageRetire : Statement (.pageRetire) := fun _ _ => nofun
theorem channelFail (ch : ChanId) : Statement (.channelFail ch) := fun _ _ => nofun
theorem memoryAdderUpdate (fn : Fin 6) (addr : BitVec 44) (value : BitVec 64) : Statement (.memoryAdderUpdate fn addr value) := fun _ _ => nofun
theorem addrProbe (m : Master) (probe : BitVec 64) : Statement (.addrProbe m probe) := fun _ _ => nofun
theorem mr4Read (ch : ChanId) (mr4 : BitVec 5) : Statement (.mr4Read ch mr4) := fun _ _ => nofun
theorem channelTraining (ch : ChanId) (rate : Option (Fin 3)) : Statement (.channelTraining ch rate) := fun _ _ => nofun
theorem fillComplete : Statement (.fillComplete) := fun _ _ => nofun
theorem systemAreaPersist : Statement (.systemAreaPersist) := fun _ _ => nofun
theorem dataFrame (p : PortId) (w : LaneWord) : Statement (.dataFrame p w) := fun _ _ => nofun
theorem idleFrame (p : PortId) (w : LaneWord) : Statement (.idleFrame p w) := fun _ _ => nofun
theorem timeFrame (p : PortId) (w : LaneWord) (arrival : BitVec 64) : Statement (.timeFrame p w arrival) := fun _ _ => nofun
theorem frameDiscard (p : PortId) (w : LaneWord) : Statement (.frameDiscard p w) := fun _ _ => nofun
theorem timeFrameTx (p : PortId) : Statement (.timeFrameTx p) := fun _ _ => nofun
theorem replayTimeout (p : PortId) : Statement (.replayTimeout p) := fun _ _ => nofun
theorem swap (p : PortId) (lane : BitVec 4) : Statement (.swap p lane) := fun _ _ => nofun
theorem narrow (p : PortId) (lane : BitVec 4) : Statement (.narrow p lane) := fun _ _ => nofun
theorem widen (p : PortId) (lane : BitVec 4) : Statement (.widen p lane) := fun _ _ => nofun
theorem cmdAck (p : PortId) : Statement (.cmdAck p) := fun _ _ => nofun
theorem laneMapChange (p : PortId) (dir : LinkDir) : Statement (.laneMapChange p dir) := fun _ _ => nofun
theorem portEnable (m : Master) (p : PortId) (on : Bool) : Statement (.portEnable m p on) := fun _ _ => nofun
theorem laserCheckPass (p : PortId) : Statement (.laserCheckPass p) := fun _ _ => nofun
theorem laserRecheck (p : PortId) : Statement (.laserRecheck p) := fun _ _ => nofun
theorem laneTrainDone (p : PortId) (txGood rxGood : BitVec 9) : Statement (.laneTrainDone p txGood rxGood) := fun _ _ => nofun
theorem alignDone (p : PortId) (partnerMap : List (BitVec 4)) : Statement (.alignDone p partnerMap) := fun _ _ => nofun
theorem paramFrame (p : PortId) (partner : Partner) : Statement (.paramFrame p partner) := fun _ _ => nofun
theorem downRetry (p : PortId) : Statement (.downRetry p) := fun _ _ => nofun
theorem trainStateTimeout (p : PortId) : Statement (.trainStateTimeout p) := fun _ _ => nofun
theorem retrain (m : Master) (p : PortId) : Statement (.retrain m p) := fun _ _ => nofun
theorem portReset (m : Master) (p : PortId) : Statement (.portReset m p) := fun _ _ => nofun
theorem portReplan (m : Master) (p : PortId) : Statement (.portReplan m p) := fun _ _ => nofun
theorem laneWindow (p : PortId) (ratios : List LaneRatio) : Statement (.laneWindow p ratios) := fun _ _ => nofun
theorem laneHardFail (p : PortId) (lane : Fin 9) : Statement (.laneHardFail p lane) := fun _ _ => nofun
theorem laneBringIn : Statement (.laneBringIn) := fun _ _ => nofun
theorem laserLoss (p : PortId) : Statement (.laserLoss p) := fun _ _ => nofun
theorem laserPwrSample (p : PortId) (power : BitVec 16) : Statement (.laserPwrSample p power) := fun _ _ => nofun
theorem rdReq (pk : Packet) : Statement (.rdReq pk) := fun _ _ => nofun
theorem wrReq (pk : Packet) : Statement (.wrReq pk) := fun _ _ => nofun
theorem rdResp (pk : Packet) : Statement (.rdResp pk) := fun _ _ => nofun
theorem wrAck (pk : Packet) : Statement (.wrAck pk) := fun _ _ => nofun
theorem errResp (pk : Packet) : Statement (.errResp pk) := fun _ _ => nofun
theorem packetForward (pk : Packet) : Statement (.packetForward pk) := fun _ _ => nofun
theorem msgTimeout (die : DieId) (msgId : BitVec 32) : Statement (.msgTimeout die msgId) := fun _ _ => nofun
theorem collArm (m : Master) (desc : BitVec 64) : Statement (.collArm m desc) := fun _ _ => nofun
theorem collStart : Statement (.collStart) := fun _ _ => nofun
theorem collReady (pk : Packet) : Statement (.collReady pk) := fun _ _ => nofun
theorem collData (pk : Packet) : Statement (.collData pk) := fun _ _ => nofun
theorem collAck (pk : Packet) : Statement (.collAck pk) := fun _ _ => nofun
theorem collEnd (coll : BitVec 16) : Statement (.collEnd coll) := fun _ _ => nofun
theorem collAbort (m : Master) : Statement (.collAbort m) := fun _ _ => nofun
theorem exchCount (pk : Packet) : Statement (.exchCount pk) := fun _ _ => nofun
theorem exchAdmit (pk : Packet) : Statement (.exchAdmit pk) := fun _ _ => nofun
theorem exchData (pk : Packet) : Statement (.exchData pk) := fun _ _ => nofun
theorem exchReturn (pk : Packet) : Statement (.exchReturn pk) := fun _ _ => nofun
theorem join (m : Master) : Statement (.join m) := fun _ _ => nofun
theorem joinRetry : Statement (.joinRetry) := fun _ _ => nofun
theorem joinReq (pk : Packet) : Statement (.joinReq pk) := fun _ _ => nofun
theorem joinResp (pk : Packet) : Statement (.joinResp pk) := fun _ _ => nofun
theorem joinOpen (m : Master) (on : Bool) : Statement (.joinOpen m on) := fun _ _ => nofun
theorem memberUpdate (pk : Packet) : Statement (.memberUpdate pk) := fun _ _ => nofun
theorem memberSync (pk : Packet) : Statement (.memberSync pk) := fun _ _ => nofun
theorem epochApply : Statement (.epochApply) := fun _ _ => nofun
theorem heartbeat (pk : Packet) : Statement (.heartbeat pk) := fun _ _ => nofun
theorem heartbeatTx : Statement (.heartbeatTx) := fun _ _ => nofun
theorem memberLost (rank : Fin 16640) : Statement (.memberLost rank) := fun _ _ => nofun
theorem gmLost : Statement (.gmLost) := fun _ _ => nofun
theorem route (m : Master) (word0 word1 : BitVec 32) : Statement (.route m word0 word1) := fun _ _ => nofun
theorem rankset (m : Master) (word0 word1 word2 word3 : BitVec 32) : Statement (.rankset m word0 word1 word2 word3) := fun _ _ => nofun
theorem ledgerArm (m : Master) (d : DieId) (record : BitVec 64) : Statement (.ledgerArm m d record) := fun _ _ => nofun
theorem ledgerCheckRun (d : DieId) : Statement (.ledgerCheckRun d) := fun _ _ => nofun
theorem gateAdd (m : Master) (d : DieId) (gate : BitVec 64) : Statement (.gateAdd m d gate) := fun _ _ => nofun
theorem updArm (m : Master) (d : DieId) (desc : BitVec 64) : Statement (.updArm m d desc) := fun _ _ => nofun
theorem updatePrepare (d : DieId) : Statement (.updatePrepare d) := fun _ _ => nofun
theorem subshardCommit (d : DieId) : Statement (.subshardCommit d) := fun _ _ => nofun
theorem owedRecheck (d : DieId) : Statement (.owedRecheck d) := fun _ _ => nofun
theorem updAbort (m : Master) (d : DieId) : Statement (.updAbort m d) := fun _ _ => nofun
theorem updResume (m : Master) (d : DieId) : Statement (.updResume m d) := fun _ _ => nofun
theorem updDiscard (m : Master) (d : DieId) : Statement (.updDiscard m d) := fun _ _ => nofun
theorem trigger (m : Master) : Statement (.trigger m) := fun _ _ => nofun
theorem clutchPeriodExpiry : Statement (.clutchPeriodExpiry) := fun _ _ => nofun
theorem risk (pk : Packet) : Statement (.risk pk) := fun _ _ => nofun
theorem clutchStart (pk : Packet) : Statement (.clutchStart pk) := fun _ _ => nofun
theorem captureBell : Statement (.captureBell) := fun _ _ => nofun
theorem shardStream : Statement (.shardStream) := fun _ _ => nofun
theorem unitP (pk : Packet) : Statement (.unitP pk) := fun _ _ => nofun
theorem unitQ (pk : Packet) : Statement (.unitQ pk) := fun _ _ => nofun
theorem unitCount (pk : Packet) : Statement (.unitCount pk) := fun _ _ => nofun
theorem secured (pk : Packet) : Statement (.secured pk) := fun _ _ => nofun
theorem clutchCommit (pk : Packet) : Statement (.clutchCommit pk) := fun _ _ => nofun
theorem clutchAbort (pk : Packet) : Statement (.clutchAbort pk) := fun _ _ => nofun
theorem captureAbort (m : Master) : Statement (.captureAbort m) := fun _ _ => nofun
theorem restore (m : Master) : Statement (.restore m) := fun _ _ => nofun
theorem restoreStart (pk : Packet) : Statement (.restoreStart pk) := fun _ _ => nofun
theorem restoreBell : Statement (.restoreBell) := fun _ _ => nofun
theorem rebuildReq (pk : Packet) : Statement (.rebuildReq pk) := fun _ _ => nofun
theorem rebuildPart (pk : Packet) : Statement (.rebuildPart pk) := fun _ _ => nofun
theorem restoreDone (pk : Packet) : Statement (.restoreDone pk) := fun _ _ => nofun
theorem restoreAbort (m : Master) : Statement (.restoreAbort m) := fun _ _ => nofun
theorem reprotect : Statement (.reprotect) := fun _ _ => nofun
theorem gmWaitExpiry : Statement (.gmWaitExpiry) := fun _ _ => nofun
theorem exportClutch (m : Master) : Statement (.exportClutch m) := fun _ _ => nofun
theorem importClutch (m : Master) : Statement (.importClutch m) := fun _ _ => nofun
theorem xferAbort (m : Master) : Statement (.xferAbort m) := fun _ _ => nofun
theorem flashRefresh (die : FlashDie) (block : Fin 9936) (why : RefreshCause) : Statement (.flashRefresh die block why) := fun _ _ => nofun
theorem wearLevel (die : FlashDie) : Statement (.wearLevel die) := fun _ _ => nofun
theorem blockRetire (die : FlashDie) (block : Fin 9936) (why : RetireCause) (readable : Bool) : Statement (.blockRetire die block why readable) := fun _ _ => nofun
theorem flashDieFail (die : FlashDie) : Statement (.flashDieFail die) := fun _ _ => nofun
theorem freqStep : Statement (.freqStep) := fun _ _ => nofun
theorem droopTrip (w : WardId) : Statement (.droopTrip w) := fun _ _ => nofun
theorem droopRequest (w : WardId) : Statement (.droopRequest w) := fun _ _ => nofun
theorem droopRelease (w : WardId) : Statement (.droopRelease w) := fun _ _ => nofun
theorem marginWindow (dom : MarginDomain) (readings : List (Option (BitVec 8))) : Statement (.marginWindow dom readings) := fun _ _ => nofun
theorem pllLockLoss (dom : Fin 74) : Statement (.pllLockLoss dom) := fun _ _ => nofun
theorem replan (m : Master) (d : DieId) : Statement (.replan m d) := fun _ _ => nofun
theorem replanTimer (d : DieId) : Statement (.replanTimer d) := fun _ _ => nofun
theorem replanStepDone (d : DieId) (r : ReplanReading) : Statement (.replanStepDone d r) := fun _ _ => nofun
theorem pmbusPoll (rail : Fin 38) (t : RailTelemetry) : Statement (.pmbusPoll rail t) := fun _ _ => nofun
theorem phaseBringIn : Statement (.phaseBringIn) := fun _ _ => nofun
theorem powerMeasure (watts : Nat) : Statement (.powerMeasure watts) := fun _ _ => nofun
theorem capRaise : Statement (.capRaise) := fun _ _ => nofun
theorem powerLimitAssert : Statement (.powerLimitAssert) := fun _ _ => nofun
theorem powerLimitRelease : Statement (.powerLimitRelease) := fun _ _ => nofun
theorem fAllowUpdate : Statement (.fAllowUpdate) := fun _ _ => nofun
theorem allow (pk : Packet) : Statement (.allow pk) := fun _ _ => nofun
theorem cap (pk : Packet) : Statement (.cap pk) := fun _ _ => nofun
theorem freqRaiseHold : Statement (.freqRaiseHold) := fun _ _ => nofun
theorem freqSet (pk : Packet) : Statement (.freqSet pk) := fun _ _ => nofun
theorem voltLate (d : DieId) : Statement (.voltLate d) := fun _ _ => nofun
theorem supplyDip (decivolts : Nat) : Statement (.supplyDip decivolts) := fun _ _ => nofun
theorem supplyReset : Statement (.supplyReset) := fun _ _ => nofun
theorem supplyRecover : Statement (.supplyRecover) := fun _ _ => nofun
theorem supplyHigh (decivolts : Nat) : Statement (.supplyHigh decivolts) := fun _ _ => nofun
theorem thermistorRead (inlet outlet : ThermReading) : Statement (.thermistorRead inlet outlet) := fun _ _ => nofun
theorem flowAverage (milliHz : Nat) : Statement (.flowAverage milliHz) := fun _ _ => nofun
theorem inletHotTimeout : Statement (.inletHotTimeout) := fun _ _ => nofun
theorem flowLowTimeout : Statement (.flowLowTimeout) := fun _ _ => nofun
theorem flowPulseTimeout : Statement (.flowPulseTimeout) := fun _ _ => nofun
theorem flowRestored : Statement (.flowRestored) := fun _ _ => nofun
theorem heatBalanceCheck (watts : Nat) : Statement (.heatBalanceCheck watts) := fun _ _ => nofun
theorem sensorPass (w : WardId) (temps : List Int) : Statement (.sensorPass w temps) := fun _ _ => nofun
theorem thermalLower (w : WardId) : Statement (.thermalLower w) := fun _ _ => nofun
theorem thermalRaise (w : WardId) : Statement (.thermalRaise w) := fun _ _ => nofun
theorem tripSleep (d : DieId) : Statement (.tripSleep d) := fun _ _ => nofun
theorem tripWake (d : DieId) (lost : List (Nat × Nat)) : Statement (.tripWake d lost) := fun _ _ => nofun
theorem backstopCut (d : DieId) (hot : Bool) : Statement (.backstopCut d hot) := fun _ _ => nofun
theorem tripClear (m : Master) : Statement (.tripClear m) := fun _ _ => nofun
theorem rotationAdvance (d : DieId) : Statement (.rotationAdvance d) := fun _ _ => nofun
theorem thermalFLower : Statement (.thermalFLower) := fun _ _ => nofun
theorem thermalFReturn : Statement (.thermalFReturn) := fun _ _ => nofun
theorem fence (m : Master) (word0 word1 : BitVec 32) : Statement (.fence m word0 word1) := fun _ _ => nofun
theorem coreBringIn : Statement (.coreBringIn) := fun _ _ => nofun
theorem selfTestDone (g : CoreId) (passed : Bool) : Statement (.selfTestDone g passed) := fun _ _ => nofun
theorem rowSpareReplace (g : CoreId) : Statement (.rowSpareReplace g) := fun _ _ => nofun
theorem mgrWatchdog (mc : MgrCore) : Statement (.mgrWatchdog mc) := fun _ _ => nofun
theorem mgrSpareStart : Statement (.mgrSpareStart) := fun _ _ => nofun
theorem healthTick : Statement (.healthTick) := fun _ _ => nofun
theorem downtimePersist : Statement (.downtimePersist) := fun _ _ => nofun
theorem openSession (o : OpenMsg) : Statement (.openSession o) := fun _ _ => nofun
theorem closeSession (h : MsgHdr) (payload : List (BitVec 8)) : Statement (.closeSession h payload) := fun _ _ => nofun
theorem keepalive (h : MsgHdr) : Statement (.keepalive h) := fun _ _ => nofun
theorem dataMsg (h : MsgHdr) (payload : List (BitVec 8)) : Statement (.dataMsg h payload) := fun _ _ => nofun
theorem datagramBad (b : BadDatagram) : Statement (.datagramBad b) := fun _ _ => nofun
theorem commandUnknown (c : CmdMsg) (opcode : BitVec 16) : Statement (.commandUnknown c opcode) := fun _ _ => nofun
theorem getInfo (c : CmdMsg) : Statement (.getInfo c) := fun _ _ => nofun
theorem regRead (c : CmdMsg) : Statement (.regRead c) := fun _ _ => nofun
theorem regWrite (c : CmdMsg) : Statement (.regWrite c) := fun _ _ => nofun
theorem mbxRead (c : CmdMsg) : Statement (.mbxRead c) := fun _ _ => nofun
theorem mbxWrite (c : CmdMsg) : Statement (.mbxWrite c) := fun _ _ => nofun
theorem regReadK (c : CmdMsg) : Statement (.regReadK c) := fun _ _ => nofun
theorem regWriteK (c : CmdMsg) : Statement (.regWriteK c) := fun _ _ => nofun
theorem mbxReadK (c : CmdMsg) : Statement (.mbxReadK c) := fun _ _ => nofun
theorem mbxWriteK (c : CmdMsg) : Statement (.mbxWriteK c) := fun _ _ => nofun
theorem jobLoad (c : CmdMsg) : Statement (.jobLoad c) := fun _ _ => nofun
theorem bundleComplete : Statement (.bundleComplete) := fun _ _ => nofun
theorem jobStart (c : CmdMsg) : Statement (.jobStart c) := fun _ _ => nofun
theorem jobStop (c : CmdMsg) : Statement (.jobStop c) := fun _ _ => nofun
theorem planStep : Statement (.planStep) := fun _ _ => nofun
theorem netConfig (c : CmdMsg) : Statement (.netConfig c) := fun _ _ => nofun
theorem telemetrySet (c : CmdMsg) : Statement (.telemetrySet c) := fun _ _ => nofun
theorem telemetryTx : Statement (.telemetryTx) := fun _ _ => nofun
theorem ingestOpen (c : CmdMsg) : Statement (.ingestOpen c) := fun _ _ => nofun
theorem eventsFrom (c : CmdMsg) : Statement (.eventsFrom c) := fun _ _ => nofun
theorem sessionResend : Statement (.sessionResend) := fun _ _ => nofun
theorem ackKeepalive : Statement (.ackKeepalive) := fun _ _ => nofun
theorem keepaliveTx : Statement (.keepaliveTx) := fun _ _ => nofun
theorem sessionIdleTimeout : Statement (.sessionIdleTimeout) := fun _ _ => nofun
theorem dieSleepCmd (c : CmdMsg) : Statement (.dieSleepCmd c) := fun _ _ => nofun
theorem dieWakeCmd (c : CmdMsg) (lost : List (Nat × Nat)) : Statement (.dieWakeCmd c lost) := fun _ _ => nofun
theorem standbyCmd (c : CmdMsg) : Statement (.standbyCmd c) := fun _ _ => nofun
theorem wakeCmd (c : CmdMsg) (lost : List (Nat × Nat)) : Statement (.wakeCmd c lost) := fun _ _ => nofun
theorem reset (c : CmdMsg) : Statement (.reset c) := fun _ _ => nofun
theorem exportCmd (c : CmdMsg) : Statement (.exportCmd c) := fun _ _ => nofun
theorem importCmd (c : CmdMsg) : Statement (.importCmd c) := fun _ _ => nofun
theorem clutch (c : CmdMsg) : Statement (.clutch c) := fun _ _ => nofun
theorem attest (c : CmdMsg) : Statement (.attest c) := fun _ _ => nofun
theorem quoteReady : Statement (.quoteReady) := fun _ _ => nofun
theorem quoteRead (c : CmdMsg) : Statement (.quoteRead c) := fun _ _ => nofun
theorem certRead (c : CmdMsg) : Statement (.certRead c) := fun _ _ => nofun
theorem imageBegin (c : CmdMsg) : Statement (.imageBegin c) := fun _ _ => nofun
theorem imageCommit (c : CmdMsg) : Statement (.imageCommit c) := fun _ _ => nofun
theorem imageErase (c : CmdMsg) : Statement (.imageErase c) := fun _ _ => nofun
theorem svnCommitCmd (c : CmdMsg) : Statement (.svnCommitCmd c) := fun _ _ => nofun
theorem presenceStatus (c : CmdMsg) : Statement (.presenceStatus c) := fun _ _ => nofun
theorem debugAccess (c : CmdMsg) : Statement (.debugAccess c) := fun _ _ => nofun
theorem svnCommit (m : Master) : Statement (.svnCommit m) := fun _ _ => nofun
theorem eraseA (m : Master) : Statement (.eraseA m) := fun _ _ => nofun
theorem eraseB (m : Master) : Statement (.eraseB m) := fun _ _ => nofun
theorem presenceClose (m : Master) : Statement (.presenceClose m) := fun _ _ => nofun
theorem presencePress : Statement (.presencePress) := fun _ _ => nofun
theorem presenceExpiry : Statement (.presenceExpiry) := fun _ _ => nofun
theorem pinSample (pins : PinLevels) : Statement (.pinSample pins) := fun _ _ => nofun
theorem sealBreak : Statement (.sealBreak) := fun _ _ => nofun
theorem smbusRead (code : BitVec 8) (write : Bool) (pec : Bool) : Statement (.smbusRead code write pec) := fun _ _ => nofun
theorem smbusRefresh : Statement (.smbusRefresh) := fun _ _ => nofun
theorem powerOn (straps : BitVec 12) : Statement (.powerOn straps) := fun _ _ => nofun
theorem coreRelease (failed : List (Fin 1216)) : Statement (.coreRelease failed) := fun _ _ => nofun
theorem resetLLow (ns : Nat) : Statement (.resetLLow ns) := fun _ _ => nofun
theorem moduleReset (m : Master) : Statement (.moduleReset m) := fun _ _ => nofun
theorem warmReset (m : Master) : Statement (.warmReset m) := fun _ _ => nofun
theorem dieSleep (m : Master) (d : DieId) : Statement (.dieSleep m d) := fun _ _ => nofun
theorem dieWake (m : Master) (d : DieId) (lost : List (Nat × Nat)) : Statement (.dieWake m d lost) := fun _ _ => nofun
theorem standby (m : Master) : Statement (.standby m) := fun _ _ => nofun
theorem wake (m : Master) (lost : List (Nat × Nat)) : Statement (.wake m lost) := fun _ _ => nofun
theorem wardNap (w : WardId) : Statement (.wardNap w) := fun _ _ => nofun
theorem wardWake (w : WardId) : Statement (.wardWake w) := fun _ _ => nofun
theorem mgmtLos : Statement (.mgmtLos) := fun _ _ => nofun
theorem resetLRelease (straps : BitVec 12) : Statement (.resetLRelease straps) := fun _ _ => nofun
theorem pcsBlockLock (locked : Bool) : Statement (.pcsBlockLock locked) := fun _ _ => nofun
theorem railConfirmed (d : DieId) : Statement (.railConfirmed d) := fun _ _ => nofun
theorem unitWritten (lost : List (Nat × Nat)) : Statement (.unitWritten lost) := fun _ _ => nofun
theorem mgrCacheUe (mc : MgrCore) : Statement (.mgrCacheUe mc) := fun _ _ => nofun
theorem coreHang (g : CoreId) : Statement (.coreHang g) := fun _ _ => nofun
theorem managerDieTrip (celsius : Int) : Statement (.managerDieTrip celsius) := fun _ _ => nofun
theorem icmpEcho (q : EchoReq) : Statement (.icmpEcho q) := fun _ _ => nofun
theorem dhcpv4 (lease : BitVec 32) (prefixLen : BitVec 6) : Statement (.dhcpv4 lease prefixLen) := fun _ _ => nofun

end Sys2Proof.Laws.NoWord
end

