-- ==== Sys2Proof/Safety.lean ====
section
/-!
DEFINITION. What counts as a safe run, and the terms that the statements use: canonical forms, when a tile's instruction is
issued, when a packet, a message or a COMMAND is taken, when a register row passes its checks.
-/

namespace Sys2Proof.Machine

/-- Whether an outcome is a next state. -/
def completes (o : Host.Outcome State Fault Refusal) : Bool :=
  match o with
  | .next _ => true
  | .fault _ => false
  | .refused _ => false

/-! ### Canonical forms -/

/-- Bulk memory in canonical form: addresses rise strictly, and no listed byte equals what an unlisted address reads as. -/
def Mem.wf (m : Mem) : Bool := mapWf (memDefault m) m.data

/-- Registers in canonical form: keys rise strictly and no listed word equals its reset value. -/
def regsWf (s : State) : Bool := mapWf regDefault s.regs

/-- Every operand cache in canonical form. -/
def ocWf (c : Core) : Bool := mapWf (fun _ => (0 : Byte)) c.oc

/-! ### Tile programs (05_core_isa.md) -/

/-- In the state `s0` core `g` issues the legal instruction `i` of opcode `op` (R141, R146); `s` is the state and `t` the running tile once
the word and the registers that it names have been read, where single-bit errors in them are corrected and counted (R137). -/
def Runs (s0 : State) (g op : Nat) (s : State) (t : Tile) (i : TileWord) : Prop :=
  i.op.toNat = op ∧ i.legal = true ∧ ∃ t0 w, issuing s0 g = some t0 ∧ fetchWord s0 g t0 = some w ∧ decodeTile w = i ∧
    readSources s0 g t0 i = (s, t)

/-- A PC within the image. -/
def fits (t : Tile) (x : Ctx) : Prop := x.pc < t.task.len

/-- The state after an instruction that leaves the registers `x` of the running tile, and nothing else changed. -/
def tileAt (s : State) (g : Nat) (t : Tile) (x : Ctx) : State := setTile s g { t with ctx := x, wait := .none }

/-- The command `c` of core `g` runs its instruction: where it is issued, the next state is `u` with the registers `x`, the PC
advanced by R146, whenever that PC lies within the image. -/
def Completes (c : CoreId → Instr) (op : Nat) (u : State → Nat → Tile → TileFields → State)
    (x : State → Nat → Tile → TileFields → Ctx) : Prop :=
  ∀ (s0 s : State) (g : CoreId) (t : Tile) (i : TileWord), Runs s0 g op s t i → fits t (advance (x s g t (fieldsOf i))) →
    exec (c g) s0 = .next (tileAt (u s g t (fieldsOf i)) g t (advance (x s g t (fieldsOf i))))

/-- `Completes` for an instruction that changes the registers of its tile alone. -/
def CompletesReg (c : CoreId → Instr) (op : Nat) (x : State → Nat → Tile → TileFields → Ctx) : Prop :=
  Completes c op (fun s _ _ _ => s) x

/-! ### Packets (11_fabric_transport.md) -/

/-- A packet of a kind, addressed to this module and well formed (R279, R281). -/
def Arrives (s : State) (pk : Packet) (kind : Nat) : Prop :=
  pk.kind.toNat = kind ∧ forMe s pk = true ∧ packetOk pk = true

/-! ### The management session (17_management.md) -/

/-- A sequenced message with header `h` is delivered in order; `u` is the state after its delivery, before its content is used
(R475, R476). -/
def Delivered (s : State) (h : MsgHdr) (u : State) : Prop :=
  acceptsPeer s h.peer = true ∧ ∃ x y, sessionFor (countFrame s) h = some x ∧
    (hearPeer (countFrame s) h).mgmt.session = some y ∧ h.seq.toNat = y.inSeq + 1 ∧
    u = setSession (hearPeer (countFrame s) h)
      (some { y with inSeq := y.inSeq + 1, ackOwed := some (y.ackOwed.getD (now (hearPeer (countFrame s) h))) })

/-- A COMMAND of opcode `op` with `argLen` argument bytes is delivered in order, has the form of R477, and the module's state
serves it; `u` is the state in which it runs. -/
def Served (s : State) (c : CmdMsg) (op argLen : Nat) (u : State) : Prop :=
  Delivered s c.hdr u ∧ c.hdr.chan = 0 ∧ cmdFormOk c argLen = true ∧ cmdGate u op = none

/-- The one RESPONSE with status OK. -/
def answersOk (u : State) (c : CmdMsg) (op : Nat) (results : List Byte) : State := answerCmd u op (cmdTag c) rcOk results

/-! ### Register rows (02_registers.md) -/

/-- A master's access to a page is served and passes a guard (R12, R38, R54). -/
def Passes (s : State) (m : Master) (page : Nat) (g : GuardKind) : Prop :=
  reaches m page = true ∧ pageServed s page = true ∧ mayAccess s m g = true

/-- The state in which a register's fields are written: what was left to vote of the word is gone. -/
def unvoted (s : State) (page off : Nat) : State := { s with triple := mapErase (regKey page off) s.triple }

/-- The state after an access that the block answers. -/
def accepted (s : State) : State := { s with resp := .done }

/-- `u` differs from `s` in register words and mailbox buffers only. -/
def RegsOnly (s u : State) : Prop := u = { s with regs := u.regs, mailbox := u.mailbox }

end Sys2Proof.Machine
end

