-- ==== Sys2Proof/Certificates/Slice0/Obligations.lean ====
section
/-!
DEFINITION. The statements for the provers: each `Obligations.<Name>` is a proposition about `Sys2Proof.Machine.exec` and
`Sys2Proof.Machine.step`.
-/

open Sys2Proof Sys2Proof.Machine

/-- A step takes the command at the front of the queue and is that command's effect on the state with the queue's rest (log 1, log 3). -/
def Obligations.StepRunsFront : Prop :=
  ∀ (s : State) (c : Instr) (rest : List Instr),
    Sys2Proof.Machine.step { s with pending := c :: rest } = exec c { s with pending := rest }

/-- With no command waiting one tick passes (the model's choice, log 3): the time counter moves on by none, one or two counts, by other than
one only at a multiple of 5,000, and registers, memory, cores and the queue stay (R202). -/
def Obligations.IdleStepTicks : Prop :=
  ∀ s : State, s.pending = [] → ∃ (t : State) (k : Nat), Sys2Proof.Machine.step s = .next t ∧
    t.time = s.time + BitVec.ofNat 64 k ∧ k ≤ 2 ∧ (now s % 5000 ≠ 0 → k = 1) ∧
    t.regs = s.regs ∧ t.wide = s.wide ∧ t.mem = s.mem ∧ t.cores = s.cores ∧ t.ports = s.ports ∧ t.disps = s.disps ∧ t.pending = []

/-- No command stops the block, but for a scan or a notification of a page that the page map does not list (R36, R46, R60). -/
def Obligations.OnlyUnmappedPagesFault : Prop :=
  (∀ (c : Instr) (s : State), (∀ p, c ≠ .voteScan p) → (∀ p, c ≠ .eventNotify p) → completes (exec c s) = true) ∧
  (∀ (p : BitVec 12) (s : State), (exec (.voteScan p) s = .fault .noSuchUnit ↔ pageBlock p.toNat = none) ∧
    (completes (exec (.voteScan p) s) = true ↔ pageBlock p.toNat ≠ none)) ∧
  (∀ (p : BitVec 12) (s : State), (exec (.eventNotify p) s = .fault .noSuchUnit ↔ pageBlock p.toNat = none) ∧
    (completes (exec (.eventNotify p) s) = true ↔ pageBlock p.toNat ≠ none))

/-- What reset leaves: every field of every page at the reset value of its table (in as many bits as the field has: CAP_DUTY's 16 stands as 0,
the model's choice, log 60), but for REFCLK_SRC, whose default strap is 1 (the model's choice of unconnected straps, log 6); every mailbox
value at its reset value; no byte of memory written, no tile, no message, no session; the queue empty (R5, R13, R40, R41). -/
def Obligations.ResetState : Prop :=
  (∀ (p : BitVec 12) (b : Block) (f : FieldDef), pageBlock p.toNat = some b → f ∈ blockFields b → f ≠ fStrapsRefclkSrc →
    fld State.reset p.toNat f = f.reset % 2 ^ f.width) ∧
  fld State.reset 1 fStrapsRefclkSrc = 1 ∧
  (∀ (p : BitVec 12) (b : Block), pageBlock p.toNat = some b →
    (regWord State.reset p.toNat 0).toNat = blockId b p.toNat ∧ regWord State.reset p.toNat 4 = 0x100) ∧
  (∀ (p : BitVec 12) (b : Block) (d : WideDef), pageBlock p.toNat = some b → d ∈ blockWides b →
    (wideVal State.reset p.toNat d).toNat = d.reset) ∧
  regsWf State.reset = true ∧ State.reset.mem.wf = true ∧ State.reset.mem.data = [] ∧
  (∀ g, (coreOf State.reset g).tile = none ∧ (coreOf State.reset g).image = none) ∧
  State.reset.mgmt.session = none ∧ State.reset.time = 0 ∧ State.reset.pending = []

/-- Registers are 32 bits wide and aligned to four bytes; an access of the register window of another width, or one that is not aligned, is a
bus error and has no effect on the module's registers (R4). -/
def Obligations.RegisterWindowWidth : Prop :=
  (∀ (b : Block) (f : FieldDef), f ∈ pageFields b → f.off % 4 = 0 ∧ f.lo + f.width ≤ 32) ∧
  (∀ (s : State) (m : Master) (a : BitVec 44) (width : Nat) (v : BitVec 32),
    regBase ≤ a.toNat → a.toNat < regBase + 0x1000000 → width ≠ 32 ∨ a.toNat % 4 ≠ 0 →
    exec (.registerWrite m a width v) s = .next (busError s m a.toNat true) ∧
    exec (.rcRead m a width) s = .next (busError s m a.toNat false))

/-- A page that a master does not reach, or whose power is off, answers a register access with a bus error, which a manager core takes as an
access-fault exception; no register changes and no event is raised (R36, R38, R54, R57). -/
def Obligations.UnansweredPages : Prop :=
  ∀ (s : State) (m : Master) (p : BitVec 12) (off : Nat) (v : BitVec 32), off < 4096 → off % 4 = 0 →
    reaches m p.toNat = false ∨ pageServed s p.toNat = false →
    (let a := BitVec.ofNat 44 (regBase + 4096 * p.toNat + off)
     exec (.registerWrite m a 32 v) s = .next (busError s m a.toNat true) ∧
     exec (.rcRead m a 32) s = .next (busError s m a.toNat false) ∧
     ∀ st, (busError s m a.toNat st).regs = s.regs ∧ (busError s m a.toNat st).wide = s.wide ∧ (busError s m a.toNat st).mem = s.mem ∧
       (busError s m a.toNat st).resp = .busError)

/-- A write to a register all of whose fields a guard refuses this master raises GUARD_DENIED on the page and writes nothing (R12). -/
def Obligations.GuardedWritesDenied : Prop :=
  ∀ (s : State) (m : Master) (p : BitVec 12) (b : Block) (off : Nat) (v : BitVec 32), pageBlock p.toNat = some b →
    reaches m p.toNat = true → pageServed s p.toNat = true → 0x100 ≤ off → off < 4096 → off % 4 = 0 → fieldsAt b off ≠ [] →
    (∀ f, f ∈ fieldsAt b off → mayAccess s m f.grd = false) →
    exec (.registerWrite m (BitVec.ofNat 44 (regBase + 4096 * p.toNat + off)) 32 v) s =
      .next (accepted (raise (unvoted s p.toNat off) p.toNat evCommonGuardDenied))

/-- A mailbox operation on a guarded value that a master may not access completes with VALID = 1 and ERR = 0 and raises GUARD_DENIED: a
refused read shows zero in every data word, a refused write changes no value; nothing but the page's mailbox registers and EVENT changes
(R53). -/
def Obligations.GuardedMailboxValues : Prop :=
  ∀ (s : State) (m : Master) (p : BitVec 12) (b : Block) (d : WideDef), pageBlock p.toNat = some b → reaches m p.toNat = true →
    pageServed s p.toNat = true → (blockWides b).find? (fun x => x.vid == d.vid) = some d → d.vid < 2 ^ 16 →
    mayAccess s m d.grd = false →
    (let refused := fun t : State => flag t p.toNat fCommonValid = true ∧ flag t p.toNat fCommonErr = false ∧
       regWord t p.toNat 0x24 = (regWord s p.toNat 0x24 ||| BitVec.ofNat 32 (2 ^ evCommonGuardDenied)) ∧
       t = { s with regs := t.regs, mailbox := t.mailbox, resp := .done } ∧
       ∀ q o, q < 4096 → o < 4096 → (q ≠ p.toNat ∨ (o ≠ 0x24 ∧ (o < 0xE0 ∨ 0x100 ≤ o))) → regWord t q o = regWord s q o
     let vid := BitVec.ofNat 16 d.vid
     (∀ part : Bool, (part = true → 6 < d.words) → ∃ t, exec (.mailboxRead m p vid part) s = .next t ∧ refused t ∧
       ∀ i, i < 6 → mbxWord t p.toNat i = 0) ∧
     (d.acc = .rw → ∃ t, exec (.mailboxWrite m p vid) s = .next t ∧ refused t) ∧
     (d.acc = .rw → 6 < d.words → ∃ t, exec (.mailboxStage m p vid) s = .next t ∧ refused t))

/-- A read of EVENT returns its bits and clears what it returned, so that an event raised after the read is what the next read finds; a read
of EVENT_PEEK returns the same bits and clears nothing (R8, R44). -/
def Obligations.EventReads : Prop :=
  ∀ (s : State) (m : Master) (p : BitVec 12) (b : Block), pageBlock p.toNat = some b → reaches m p.toNat = true →
    pageServed s p.toNat = true → mapFind (regKey p.toNat 0x24) s.triple = none → mapFind (regKey p.toNat 0x2C) s.triple = none →
    (let read := setRegWord s p.toNat 0x24 0
     exec (.rcRead m (BitVec.ofNat 44 (regBase + 4096 * p.toNat + 0x24)) 32) s =
       .next { read with resp := .data (regWord s p.toNat 0x24) } ∧
     exec (.rcRead m (BitVec.ofNat 44 (regBase + 4096 * p.toNat + 0x2C)) 32) s = .next { s with resp := .data (regWord s p.toNat 0x24) } ∧
     (∀ e, e < 32 → regWord (raise read p.toNat e) p.toNat 0x24 = BitVec.ofNat 32 (2 ^ e)) ∧
     (∀ q o, q < 4096 → o < 4096 → (q ≠ p.toNat ∨ o ≠ 0x24) → regWord read q o = regWord s q o))

/-- The operand-cache window of a core holds the core's cache in its first 0x180000 bytes; an access to the rest of the window is a bus error.
Every core has its window, a spare or fenced one too, served while the core's die has power and the module is not in standby; a read corrects
and counts the single-bit errors that it meets (R33, R173). -/
def Obligations.OperandCacheWindow : Prop :=
  ∀ (s : State) (m : Master) (g : CoreId) (o n : Nat) (v : BitVec 32), isTile m = false → n = 1 ∨ n = 2 ∨ n = 4 → o + n ≤ 0x200000 →
    (let a := BitVec.ofNat 44 (0x80000000000 + 0x200000 * g.val + o)
     (o + n ≤ 0x180000 → dieAwake s (coreDie g) = true → modState s ≠ msStandby →
       exec (.rcRead m a (8 * n)) s = .next { meetOc s g o n with resp := .bytes (ocRead (coreOf s g) o n) } ∧
       exec (.registerWrite m a (8 * n) v) s =
         .next { setCore s g (ocWrite (coreOf s g) o (leBytes n v.toNat)) with resp := .done }) ∧
     (0x180000 < o + n →
       exec (.rcRead m a (8 * n)) s = .next (busError s m a.toNat false) ∧
       exec (.registerWrite m a (8 * n) v) s = .next (busError s m a.toNat true)))

/-- Splitting the word that joins the fields of a tile instruction gives the fields back, for both formats and every value of every field.
Joining the fields of any 64-bit word gives the word back: no bit is dropped (R140). -/
def Obligations.TileWordsJoinAndSplit : Prop :=
  (∀ i : TileWord, i.formatOk = true → decodeTile (encodeTile i) = i) ∧
  (∀ w : Dword, encodeTile (decodeTile w) = w ∧ (decodeTile w).formatOk = true)

/-- A word of a listed opcode that breaks the rules of its form, and a word of an opcode that no row has, end the tile with ILLEGAL at its PC:
nothing of the instruction's own effect happens (R141); only a flipped bit of the word itself is corrected and counted first (R137). -/
def Obligations.IllegalWordEndsTile : Prop :=
  ∀ (s : State) (g : CoreId) (t : Tile) (w : Dword), issuing s g = some t → fetchWord s g t = some w →
    (((decodeTile w).op.toNat = 0x00 ∧ (decodeTile w).legal = false) ∨ tileOpListed (decodeTile w).op = false) →
    exec (.nop g) s = .next (tileFail (readSources s g t (decodeTile w)).1 g causeIllegal t.ctx.pc 0 0)

/-- Integer lanes work modulo 2^32; IMUL gives the low 32 bits of the product; shift counts use five bits of Vb; PERM and VEXT use six bits of
their index; VOP with an integer code writes its register and changes no counter and no event (R165). -/
def Obligations.IntegerLanes : Prop :=
  (∀ a b c : Vec, ∀ i : Nat,
    (vopLane 16 a b c i).toNat = ((lane a i).toNat + (lane b i).toNat) % 2 ^ 32 ∧
    (vopLane 17 a b c i).toNat = (2 ^ 32 - (lane b i).toNat + (lane a i).toNat) % 2 ^ 32 ∧
    (vopLane 18 a b c i).toNat = (lane a i).toNat * (lane b i).toNat % 2 ^ 32 ∧
    (vopLane 22 a b c i).toNat = (lane a i).toNat * 2 ^ ((lane b i).toNat % 32) % 2 ^ 32 ∧
    (vopLane 23 a b c i).toNat = (lane a i).toNat / 2 ^ ((lane b i).toNat % 32) ∧
    (vopLane 24 a b c i).toInt = (lane a i).toInt / 2 ^ ((lane b i).toNat % 32) ∧
    vopLane 34 a b c i = lane a ((lane b i).toNat % 64)) ∧
  (∀ (s0 s : State) (g : CoreId) (t : Tile) (i : TileWord), Runs s0 g 0x40 s t i → 16 ≤ (fieldsOf i).fn →
    (let f := fieldsOf i
     let x := putV t.ctx f.d (maskVec (getM t.ctx f.mask) f.mz (getV t.ctx f.d)
       (lane (vecOf (vopLane f.fn (getV t.ctx f.a) (getV t.ctx f.b) (getV t.ctx f.c)))))
     fits t (advance x) → exec (.vop g) s0 = .next (tileAt s g t (advance x)))) ∧
  (∀ (s0 s : State) (g : CoreId) (t : Tile) (i : TileWord), Runs s0 g 0x47 s t i →
    (let f := fieldsOf i
     let x := putS t.ctx f.d ((lane (getV t.ctx f.a) ((getS t.ctx f.b).toNat % 64)).zeroExtend 64)
     fits t (advance x) → exec (.vext g) s0 = .next (tileAt s g t (advance x))))

/-- Every BI4 code decodes to its two's-complement value, from -8 to 7, and the quantiser writes only codes from -7 to 7 (R65). -/
def Obligations.Bi4Elements : Prop :=
  (∀ b : BitVec 4, decodeBi4 b = .fin (decide (b.toInt < 0)) b.toInt.natAbs 0 ∧ -8 ≤ b.toInt ∧ b.toInt ≤ 7) ∧
  (∀ (q : QDesc) (site : NoiseSite) (j : Nat) (xs : List Word), q.bi4 = true →
    ∀ c, c ∈ (quantBlock q site j xs).codes → -7 ≤ c.toInt ∧ c.toInt ≤ 7)

/-- A tile instruction that works on the tile's registers alone, and does not end the tile, leaves the rest of the module as it was: every
mailbox value and byte of memory, every register but REG_CE_COUNT and EVENT of its own core page, every other core, and of its own core the
operand cache, accumulators, staged writes, outstanding operations and passes. Where no bit has flipped in what a core holds, no register
changes at all (R137, R142, R143, R146). -/
def Obligations.RegisterInstructionFrame : Prop :=
  ∀ (s t : State) (g : CoreId) (c : Instr),
    c ∈ [Instr.nop g, .li g, .addi g, .lih g, .time g, .jmp g, .br g, .loop g, .call g, .ret g, .vcmp g, .vsel g, .vext g, .mop g,
      .vbcast g] →
    exec c s = .next t → (coreOf t g).tile ≠ none →
    t.wide = s.wide ∧ t.mem = s.mem ∧ t.disps = s.disps ∧ t.ports = s.ports ∧ t.net = s.net ∧ t.ledgers = s.ledgers ∧
    t.upds = s.upds ∧ t.store = s.store ∧ t.time = s.time ∧ t.mgmt = s.mgmt ∧ t.pending = s.pending ∧
    (∀ h, h ≠ g.val → coreOf t h = coreOf s h) ∧ (coreOf t g).oc = (coreOf s g).oc ∧ (coreOf t g).acc = (coreOf s g).acc ∧
    (coreOf t g).staging = (coreOf s g).staging ∧ (coreOf t g).asyncs = (coreOf s g).asyncs ∧
    (coreOf t g).passes = (coreOf s g).passes ∧ (coreOf t g).shadow = (coreOf s g).shadow ∧
    (∀ q o, q < 4096 → o < 4096 → (q ≠ pgCore g ∨ (o ≠ 0x24 ∧ o ≠ fCoreRegCeCount.off)) → regWord t q o = regWord s q o) ∧
    ((coreOf s g).soft = [] → (∀ k, (coreOf s g).tile = some k → k.ctx.soft = []) → t.regs = s.regs ∧ t.health = s.health)

/-- SST and VST, where they do not end the tile, change no byte of the operand cache outside the bytes that they store: the width of SST from
its address, the 256 bytes of VST from its own; bulk memory, the registers of every page and every other core stay as the reading of the
instruction's sources left them (R139, R143). -/
def Obligations.StoreInstructionFrame : Prop :=
  (∀ (s0 s t : State) (g : CoreId) (k : Tile) (i : TileWord), Runs s0 g 0x15 s k i → exec (.sst g) s0 = .next t → (coreOf t g).tile ≠ none →
    (let a := regImm k.ctx (fieldsOf i).a (fieldsOf i).simm
     (∀ o, o < a ∨ a + scalarBytes (fieldsOf i).fn ≤ o → ocByte (coreOf t g) o = ocByte (coreOf s g) o) ∧
     t.mem = s.mem ∧ t.regs = s.regs ∧ ∀ h, h ≠ g.val → coreOf t h = coreOf s h)) ∧
  (∀ (s0 s t : State) (g : CoreId) (k : Tile) (i : TileWord), Runs s0 g 0x45 s k i → exec (.vst g) s0 = .next t → (coreOf t g).tile ≠ none →
    (let a := regImm k.ctx (fieldsOf i).a (fieldsOf i).imm
     (∀ o, o < a ∨ a + 256 ≤ o → ocByte (coreOf t g) o = ocByte (coreOf s g) o) ∧
     (∀ j, j < 64 → (getM k.ctx (fieldsOf i).mask).getLsbD j = false →
       ∀ b, b < 4 → ocByte (coreOf t g) (a + 4 * j + b) = ocByte (coreOf s g) (a + 4 * j + b)) ∧
     t.mem = s.mem ∧ t.regs = s.regs ∧ ∀ h, h ≠ g.val → coreOf t h = coreOf s h))

/-- A write of bulk memory changes no byte outside its own, and where it is done its bytes read as written; one that is a bus error, and every
read, changes no byte. Cores, dispatchers, ports, the time counter and the queue stay (R220, R221). -/
def Obligations.MemoryAccessFrame : Prop :=
  (∀ (s t : State) (addr : BitVec 44) (data : List (BitVec 8)) (ups : List Upset), exec (.memoryWrite addr data ups) s = .next t →
    (∀ a, a < addr.toNat ∨ addr.toNat + data.length ≤ a → memByte t.mem a = memByte s.mem a) ∧
    (t.resp = .done → ∀ i, i < data.length → memByte t.mem (addr.toNat + i) = data.getD i 0) ∧
    (t.resp = .busError → ∀ a, memByte t.mem a = memByte s.mem a) ∧
    t.cores = s.cores ∧ t.disps = s.disps ∧ t.ports = s.ports ∧ t.time = s.time ∧ t.pending = s.pending) ∧
  (∀ (s t : State) (addr : BitVec 44) (len : Nat) (ups : List Upset), exec (.memoryRead addr len ups) s = .next t →
    (∀ a, memByte t.mem a = memByte s.mem a) ∧
    t.cores = s.cores ∧ t.disps = s.disps ∧ t.ports = s.ports ∧ t.time = s.time ∧ t.pending = s.pending)

/-- Bulk memory keeps its canonical form: from every state in which addresses rise strictly and no listed byte equals what an unlisted one
reads as, a step that runs a command of the memory family, or an empty step, leaves a memory of that form (R213, R214, R220, R221, R223,
R225, R228, R229, R234, R236). -/
def Obligations.MemoryFormKept : Prop :=
  ∀ (s t : State), s.mem.wf = true →
    (s.pending = [] ∨ ∃ c rest, s.pending = c :: rest ∧ match c with
      | .memoryRead _ _ _ | .memoryWrite _ _ _ | .memoryAdderUpdate _ _ _ | .scrubSlot _ _ | .rowRemap _ | .pageRetire | .channelFail _
      | .mr4Read _ _ | .channelTraining _ _ | .fillComplete => True
      | _ => False) →
    Sys2Proof.Machine.step s = .next t → t.mem.wf = true

/-- No two addresses of bulk memory share a stored byte: the decoding of an address into channel, page, granule, word and byte is one to one,
in a region that a channel's failure has re-planned too (R215, R235). -/
def Obligations.AddressesShareNoByte : Prop :=
  ∀ (s : State) (a b : Nat) (x y : Loc), locate s a = some x → locate s b = some y →
    x.chan = y.chan → x.page = y.page → x.gran = y.gran → x.word = y.word → x.byte = y.byte → a = b

/-- A sequenced message of the session that is not the next in order is dropped: the peer has been heard, a KEEPALIVE repeats the
acknowledgement, and nothing of the message is used (R475). -/
def Obligations.OutOfOrderMessagesDropped : Prop :=
  ∀ (s : State) (h : MsgHdr) (x y : Session), acceptsPeer s h.peer = true → sessionFor (countFrame s) h = some x →
    (hearPeer (countFrame s) h).mgmt.session = some y → h.seq.toNat ≠ y.inSeq + 1 →
    (∀ payload, ingestWaits s h payload = false →
      exec (.dataMsg h payload) s = .next (sendKeepalive (hearPeer (countFrame s) h))) ∧
    exec (.datagramBad (.channelSequenced h)) s = .next (sendKeepalive (hearPeer (countFrame s) h)) ∧
    (∀ (c : CmdMsg) (op : BitVec 16), c.hdr = h → exec (.commandUnknown c op) s = .next (sendKeepalive (hearPeer (countFrame s) h)))

/-- The index of a one-time signature is never used again: after one use the next index is greater, and so is the index from which the module
goes on after a power-on, whatever was lost in between, the copies of the high mark too (R507). -/
def Obligations.SignatureIndexUsedOnce : Prop :=
  ∀ s : State, fld s 2 fSecurityOtsNext ≤ s.sec.otsHigh → fld s 2 fSecurityOtsNext < 1048576 → s.sec.otsHigh ≤ 1048576 →
    s.sec.otsHigh % 64 = 0 → s.sec.otsHigh ≤ 4096 * fld s 2 fSecurityOtsFuses → fld s 2 fSecurityOtsFuses ≤ 256 →
    (let r := otsUse s
     r.1 = fld s 2 fSecurityOtsNext ∧ r.1 < fld r.2 2 fSecurityOtsNext ∧ fld r.2 2 fSecurityOtsNext ≤ r.2.sec.otsHigh ∧
     r.1 < fld (otsBoot r.2) 2 fSecurityOtsNext)

/-- NOP, LI, ADDI, LIH, TIME and SOP write their scalar register and fall through, SOP also where bits of the core flip as it runs (R137,
R142, R143). -/
def Obligations.ScalarInstructionsComplete : Prop :=
  CompletesReg .nop 0x00 (fun _ _ t _ => t.ctx) ∧
  CompletesReg .li 0x10 (fun _ _ t f => putS t.ctx f.d (BitVec.ofInt 64 f.simm)) ∧
  CompletesReg .addi 0x11 (fun _ _ t f => putS t.ctx f.d (getS t.ctx f.a + BitVec.ofInt 64 f.simm)) ∧
  CompletesReg .lih 0x12 (fun _ _ t f =>
    putS t.ctx f.d (BitVec.ofNat 64 (f.imm % 2 ^ 24 * 2 ^ 40 + (getS t.ctx f.d).toNat % 2 ^ 40))) ∧
  CompletesReg .time 0x18 (fun s g t f => putS t.ctx f.d (BitVec.ofNat 64 (wardTime s (coreWard g)))) ∧
  (∀ (s0 s : State) (g : CoreId) (flips : List SoftError) (t : Tile) (i : TileWord), Runs (plant s0 g flips) g 0x13 s t i →
    (let f := fieldsOf i
     let x := putS t.ctx f.d (sopFn f.fn (getS t.ctx f.a) (getS t.ctx f.b))
     fits t (advance x) → exec (.sop g flips) s0 = .next (tileAt s g t (advance x))))

/-- JMP, BR, CALL and RET go to their target; a branch not taken falls through; CALL pushes the address after it, RET pops it. LOOP with a
count of zero goes to the instruction after its body; with another count it pushes a loop entry and sets its index register to zero.
COMMIT holds the tile for its writes; ABORT ends it with cause ABORT and its code (R142, R143, R146, R152). -/
def Obligations.ControlInstructionsComplete : Prop :=
  ((∀ (s0 s : State) (g : CoreId) (t : Tile) (i : TileWord), Runs s0 g 0x01 s t i → (fieldsOf i).imm < t.task.len →
    exec (.jmp g) s0 = .next (tileAt s g t (jumpTo t.ctx (fieldsOf i).imm))) ∧
  (∀ (s0 s : State) (g : CoreId) (t : Tile) (i : TileWord), Runs s0 g 0x02 s t i →
    brFn (fieldsOf i).fn (getS t.ctx (fieldsOf i).a) (getS t.ctx (fieldsOf i).b) = true → (fieldsOf i).imm < t.task.len →
    exec (.br g) s0 = .next (tileAt s g t (jumpTo t.ctx (fieldsOf i).imm))) ∧
  (∀ (s0 s : State) (g : CoreId) (t : Tile) (i : TileWord), Runs s0 g 0x02 s t i →
    brFn (fieldsOf i).fn (getS t.ctx (fieldsOf i).a) (getS t.ctx (fieldsOf i).b) = false → fits t (advance t.ctx) →
    exec (.br g) s0 = .next (tileAt s g t (advance t.ctx))) ∧
  (∀ (s0 s : State) (g : CoreId) (t : Tile) (i : TileWord), Runs s0 g 0x04 s t i → t.ctx.calls.length < 8 →
    (fieldsOf i).imm < t.task.len →
    exec (.call g) s0 = .next (tileAt s g t (jumpTo { t.ctx with calls := (t.ctx.pc + 1) :: t.ctx.calls } (fieldsOf i).imm))) ∧
  (∀ (s0 s : State) (g : CoreId) (t : Tile) (i : TileWord) (r : Nat) (rest : List Nat), Runs s0 g 0x05 s t i →
    t.ctx.calls = r :: rest → r < t.task.len →
    exec (.ret g) s0 = .next (tileAt s g t (jumpTo { t.ctx with calls := rest } r)))) ∧
  (∀ (s0 s : State) (g : CoreId) (t : Tile) (i : TileWord), Runs s0 g 0x03 s t i → t.ctx.loops.length < 4 →
    t.ctx.pc + 1 ≤ (fieldsOf i).imm → (fieldsOf i).imm < t.task.len → (∀ e, t.ctx.loops.head? = some e → (fieldsOf i).imm ≤ e.last) →
    (fieldsOf i).imm ≤ 8192 →
    (let n := (getS t.ctx (fieldsOf i).a).toNat % 2 ^ 32
     let out := advance { t.ctx with pc := (fieldsOf i).imm }
     (n = 0 → out.pc < t.task.len → exec (.loop g) s0 = .next (tileAt s g t out)) ∧
     (n ≠ 0 → t.ctx.pc + 1 < t.task.len → exec (.loop g) s0 = .next (tileAt s g t
       { putS t.ctx (fieldsOf i).d 0 with
         pc := t.ctx.pc + 1, loops := ⟨t.ctx.pc + 1, (fieldsOf i).imm, n, 0, (fieldsOf i).d⟩ :: t.ctx.loops })))) ∧
  ((∀ (s0 s : State) (g : CoreId) (t : Tile) (i : TileWord), Runs s0 g 0x07 s t i →
    exec (.commit g) s0 = .next (setTile s g { t with phase := .commitWait })) ∧
  (∀ (s0 s : State) (g : CoreId) (t : Tile) (i : TileWord), Runs s0 g 0x06 s t i →
    exec (.abort g) s0 = .next (tileFail s g causeAbort t.ctx.pc 0 (fieldsOf i).imm)))

/-- SLD loads and SST stores 1, 2, 4 or 8 bytes of the operand cache at an aligned address within it; SST stores the low bytes of its
register, and only those bytes. RDREG and WRREG reach the tile's own core page, its dispatcher's page and the time base, at an aligned
offset, and go the path of every register access (R142, R143). A load corrects and counts the single-bit errors that it meets (R173). -/
def Obligations.ScalarMemoryInstructionsComplete : Prop :=
  ((∀ (s0 s : State) (g : CoreId) (t : Tile) (i : TileWord), Runs s0 g 0x14 s t i →
    (let f := fieldsOf i
     let a := regImm t.ctx f.a f.simm
     let n := scalarBytes f.fn
     let x := putS t.ctx f.d (loadValue f.fn (ocNat (coreOf s g) a n))
     a % n = 0 → a + n ≤ ocSize → fits t (advance x) → exec (.sld g) s0 = .next (tileAt (meetOc s g a n) g t (advance x)))) ∧
  (∀ (s0 s : State) (g : CoreId) (t : Tile) (i : TileWord), Runs s0 g 0x15 s t i →
    (let f := fieldsOf i
     let a := regImm t.ctx f.a f.simm
     let n := scalarBytes f.fn
     a % n = 0 → a + n ≤ ocSize → guardOk s g (coreOf s g) a n = true → fits t (advance t.ctx) →
     exec (.sst g) s0 = .next (tileAt
       (setCore s g (ocWrite (coreOf s g) a (leBytes n ((getS t.ctx f.d).toNat % 256 ^ n)))) g t (advance t.ctx))))) ∧
  ((∀ (s0 s : State) (g : CoreId) (t : Tile) (i : TileWord) (o w : Nat) (u : State), Runs s0 g 0x16 s t i →
    tileOffset t (fieldsOf i) = some o → regGet s (.c g) (tilePage g (fieldsOf i).fn) o = (u, some w) →
    (let x := putS t.ctx (fieldsOf i).d (BitVec.ofNat 64 w)
     fits t (advance x) → exec (.rdreg g) s0 = .next (tileAt u g t (advance x)))) ∧
  (∀ (s0 s : State) (g : CoreId) (t : Tile) (i : TileWord) (o : Nat) (u : State), Runs s0 g 0x17 s t i →
    tileOffset t (fieldsOf i) = some o →
    regPut s (.c g) (tilePage g (fieldsOf i).fn) o ((getS t.ctx (fieldsOf i).b).toNat % 2 ^ 32) = (u, true) →
    fits t (advance t.ctx) → exec (.wrreg g) s0 = .next (tileAt u g t (advance t.ctx))))

/-- VCMP, VSEL, VEXT and MOP write one register from their sources; a lane that MK leaves out keeps its bit, or reads zero with MZ. VOP,
VCURVE and VBCAST write the lanes of their vector register that MK names, and zero or keep the others by MZ; VOP and VCURVE count the non-
finite results of those lanes, VOP only for its floating-point codes. VRED and VCVT write their result register and count its non-finite
results (R142, R143, R164, R166, R168). -/
def Obligations.VectorInstructionsComplete : Prop :=
  (CompletesReg .vcmp 0x41 (fun _ _ t f =>
    putM t.ctx f.d ((if f.mz then 0 else getM t.ctx f.d &&& ~~~(getM t.ctx f.mask)) |||
      (maskOf (fun k => vcmpLane f.fn (lane (getV t.ctx f.a) k) (lane (getV t.ctx f.b) k)) &&& getM t.ctx f.mask))) ∧
  CompletesReg .vsel 0x42 (fun _ _ t f => putV t.ctx f.d (vecOf (fun k =>
    if (getM t.ctx f.mask).getLsbD k then lane (getV t.ctx f.a) k else lane (getV t.ctx f.b) k))) ∧
  CompletesReg .vext 0x47 (fun _ _ t f =>
    putS t.ctx f.d ((lane (getV t.ctx f.a) ((getS t.ctx f.b).toNat % 64)).zeroExtend 64)) ∧
  CompletesReg .mop 0x4B (fun _ _ t f =>
    if f.fn ≤ 4 then putM t.ctx f.d (mopFn f.fn (getM t.ctx f.a) (getM t.ctx f.b))
    else if f.fn = 5 then putM t.ctx f.d (getS t.ctx f.a)
    else if f.fn = 6 then putS t.ctx f.d (getM t.ctx f.a)
    else putS t.ctx f.d (BitVec.ofNat 64 (popCount (getM t.ctx f.a))))) ∧
  (Completes .vop 0x40
    (fun s g t f => if vopIsFp f.fn then addCounts s g (countFp32s (selLanes (getM t.ctx f.mask)
      (vecOf (vopLane f.fn (getV t.ctx f.a) (getV t.ctx f.b) (getV t.ctx f.c))))) else s)
    (fun _ _ t f => putV t.ctx f.d (maskVec (getM t.ctx f.mask) f.mz (getV t.ctx f.d)
      (lane (vecOf (vopLane f.fn (getV t.ctx f.a) (getV t.ctx f.b) (getV t.ctx f.c)))))) ∧
  Completes .vcurve 0x43
    (fun s g t f => addCounts s g (countFp32s (selLanes (getM t.ctx f.mask) (vecOf (fun k => curveFn f.fn (lane (getV t.ctx f.a) k))))))
    (fun _ _ t f => putV t.ctx f.d (maskVec (getM t.ctx f.mask) f.mz (getV t.ctx f.d)
      (lane (vecOf (fun k => curveFn f.fn (lane (getV t.ctx f.a) k)))))) ∧
  CompletesReg .vbcast 0x46 (fun _ _ t f => putV t.ctx f.d (maskVec (getM t.ctx f.mask) f.mz (getV t.ctx f.d)
      (lane (vecOf (fun _ => (getS t.ctx f.a).extractLsb' 0 32)))))) ∧
  (Completes .vred 0x48 (fun s g t f => addCounts s g (vred f.fn (getM t.ctx f.mask) (getV t.ctx f.a)).2)
    (fun _ _ t f => putS t.ctx f.d (vred f.fn (getM t.ctx f.mask) (getV t.ctx f.a)).1) ∧
  Completes .vcvt 0x49
    (fun s g t f => addCounts s g (vcvt f.fn ⟨keyWords t.ctx.key, t.ctx.step, (getS t.ctx f.c).extractLsb' 0 32⟩
      (getS t.ctx (f.c + 1)).toNat (getV t.ctx f.a) (getV t.ctx f.b)).2)
    (fun _ _ t f => putV t.ctx f.d (vcvt f.fn ⟨keyWords t.ctx.key, t.ctx.step, (getS t.ctx f.c).extractLsb' 0 32⟩
      (getS t.ctx (f.c + 1)).toNat (getV t.ctx f.a) (getV t.ctx f.b)).1))

/-- VLD loads and VST stores 256 bytes of the operand cache at a 16-byte aligned address within it; VLD writes lanes by MK and MZ, VST stores
the lanes that MK names and no other byte. VQUANT with a legal descriptor, target record and buffers writes the quantised row, or reads it
back, and counts its results. What they read of the operand cache has its single-bit errors corrected and counted (R142, R147, R173). -/
def Obligations.VectorMemoryInstructionsComplete : Prop :=
  ((∀ (s0 s : State) (g : CoreId) (flips : List SoftError) (t : Tile) (i : TileWord), Runs (plant s0 g flips) g 0x44 s t i →
    (let f := fieldsOf i
     let a := regImm t.ctx f.a f.imm
     let v := vecOfBytes (ocRead (coreOf s g) a 256)
     let x := putV t.ctx f.d (maskVec (getM t.ctx f.mask) f.mz (getV t.ctx f.d) (lane (vecOf (lane v))))
     a % 16 = 0 → a + 256 ≤ ocSize → fits t (advance x) →
     exec (.vld g flips) s0 = .next (tileAt (meetOc s g a 256) g t (advance x)))) ∧
  (∀ (s0 s : State) (g : CoreId) (t : Tile) (i : TileWord), Runs s0 g 0x45 s t i →
    (let f := fieldsOf i
     let a := regImm t.ctx f.a f.imm
     let v := getV t.ctx f.d
     a % 16 = 0 → a + 256 ≤ ocSize → lanesGuarded s g (getM t.ctx f.mask) a = true → fits t (advance t.ctx) →
     exec (.vst g) s0 = .next (tileAt (setCore s g ((List.range 64).foldl (fun c k =>
       if (getM t.ctx f.mask).getLsbD k then ocWrite c (a + 4 * k) (leBytes 4 (lane v k).toNat) else c) (coreOf s g))) g t
         (advance t.ctx))))) ∧
  (∀ (s0 s : State) (g : CoreId) (t : Tile) (i : TileWord) (q : QDesc) (val scl side n : Nat), Runs s0 g 0x4A s t i →
    (let f := fieldsOf i
     let c := coreOf s g
     let row := (getS t.ctx f.a).toNat
     let qa := (getS t.ctx f.b).toNat
     let ta := (getS t.ctx f.c).toNat
     let u := meetOc (meetOc s g qa 32) g ta 16
     let rowLen := if f.fn % 2 = 1 then 2 * n else 4 * n
     let valLen := 16 * ((n + 31) / 32)
     let sclLen := 2 * ((n + 31) / 32)
     let sideLen := if (f.fn ≤ 1 ∨ 4 ≤ f.fn) ∧ 0 < q.cap then 4 * q.cap * ((n + 255) / 256) else 0
     qa % 32 = 0 → qa + 32 ≤ ocSize → ta % 16 = 0 → ta + 16 ≤ ocSize → parseQDesc (ocRead c qa 32) = some q →
     targetRecord (ocNat c ta 16) = some (val, scl, side, n) → row + rowLen ≤ ocSize → val + valLen ≤ ocSize →
     scl + sclLen ≤ ocSize → (0 < sideLen → side + sideLen ≤ ocSize) →
     (f.fn ≤ 1 → guardOk u g c val valLen = true ∧ guardOk u g c scl sclLen = true ∧ (sideLen = 0 ∨ guardOk u g c side sideLen = true)) →
     (1 < f.fn → guardOk u g c row rowLen = true) → fits t (advance t.ctx) →
     (let v := (if f.fn ≤ 1 then [(row, rowLen)] else [(val, valLen), (scl, sclLen), (side, sideLen)]).foldl
        (fun w r => meetOc w g r.1 r.2) u
      let r := vquantRow (coreOf v g) t f.fn q row val scl side n
      exec (.vquant g) s0 = .next (tileAt (addCounts (setCore v g r.1) g r.2) g t (advance t.ctx)))))

/-- PUT, FPUT and SCATTER add an entry to the staging list, at most 256, and write no memory. DMA, GATHER and ATOM with room for one more
operation put it in line and fall through; a DMA from another module's memory also sends its read requests, a GATHER by FAB addresses as
many of its own as may be outstanding (R142, R144, R150, R151, R177). -/
def Obligations.CopyInstructionsComplete : Prop :=
  ((∀ (s0 s : State) (g : CoreId) (t : Tile) (i : TileWord), Runs s0 g 0x21 s t i →
    (let f := fieldsOf i
     let src := (getS t.ctx f.b).toNat
     let len := (getS t.ctx f.c).toNat
     let c := coreOf s g
     copyLenOk len = true → src % 16 = 0 → src + len ≤ ocSize → c.staging.length < 256 → fits t (advance t.ctx) →
     exec (.put g) s0 = .next (tileAt (setCore s g { c with staging := c.staging ++ [⟨.put (getS t.ctx f.a).toNat src len, false⟩] }) g t
       (advance t.ctx)))) ∧
  (∀ (s0 s : State) (g : CoreId) (t : Tile) (i : TileWord), Runs s0 g 0x22 s t i →
    (let f := fieldsOf i
     let src := (getS t.ctx f.b).toNat
     let len := (getS t.ctx f.c).toNat
     let c := coreOf s g
     copyLenOk len = true → src % 16 = 0 → src + len ≤ ocSize → c.staging.length < 256 → fits t (advance t.ctx) →
     exec (.fput g) s0 = .next (tileAt (setCore s g { c with staging := c.staging ++ [⟨.fput (getS t.ctx f.a).toNat src len, false⟩] }) g t
       (advance t.ctx)))) ∧
  (∀ (s0 s : State) (g : CoreId) (t : Tile) (i : TileWord), Runs s0 g 0x51 s t i →
    (let f := fieldsOf i
     let src := (getS t.ctx f.a).toNat
     let idx := (getS t.ctx f.c).toNat
     let m := indexedImm f.imm
     let c := coreOf s g
     indexedOk src (m.2.1 * m.2.2.2) idx m.2.2.2 m.2.2.1 = true → c.staging.length < 256 → fits t (advance t.ctx) →
     exec (.scatter g) s0 = .next (tileAt (setCore s g { c with
       staging := c.staging ++ [⟨.scatter src (getS t.ctx f.b) idx m.2.2.2 m.2.1 m.2.2.1, false⟩] }) g t (advance t.ctx))))) ∧
  ((∀ (s0 s : State) (g : CoreId) (t : Tile) (i : TileWord), Runs s0 g 0x20 s t i →
    (let f := fieldsOf i
     let c := coreOf s g
     let dst := (getS t.ctx f.a).toNat
     let src := (getS t.ctx f.b).toNat
     let len := (getS t.ctx f.c).toNat
     asyncRoom c = true → copyLenOk len = true → dst % 16 = 0 → dst + len ≤ ocSize → guardOk s g c dst len = true → src % 16 = 0 →
     fits t (advance t.ctx) →
     (f.fn = 0 → src + len ≤ bulkEnd →
       exec (.dma g) s0 = .next (tileAt (addOp s g f.imm t.ctx.pc (.dmaBm dst src len)) g t (advance t.ctx))) ∧
     (f.fn = 1 → src + len ≤ ocSize →
       exec (.dma g) s0 = .next (tileAt (addOp s g f.imm t.ctx.pc (.dmaOc dst src len)) g t (advance t.ctx))) ∧
     (f.fn = 2 → src < 2 ^ 60 → src / 2 ^ 44 = (moduleId s).toNat → src % 2 ^ 44 + len ≤ bulkEnd →
       exec (.dma g) s0 = .next (tileAt (addOp s g f.imm t.ctx.pc (.dmaBm dst (src % 2 ^ 44) len)) g t (advance t.ctx))) ∧
     (f.fn = 2 → src < 2 ^ 60 → src / 2 ^ 44 ≠ (moduleId s).toNat →
       exec (.dma g) s0 = .next (tileAt ((accessParts (src % 2 ^ 44) len).foldl
         (fun u p => sendRead u g c.nextId (src / 2 ^ 44, p.2.1, p.2.2)) (addOp s g f.imm t.ctx.pc (.dmaFab dst src len))) g t
         (advance t.ctx))))) ∧
  (∀ (s0 s : State) (g : CoreId) (t : Tile) (i : TileWord), Runs s0 g 0x50 s t i →
    (let f := fieldsOf i
     let c := coreOf s g
     let dst := (getS t.ctx f.a).toNat
     let idx := (getS t.ctx f.c).toNat
     let m := indexedImm f.imm
     let kind : AsyncKind := .gather (f.fn == 1) dst (getS t.ctx f.b) idx m.2.2.2 m.2.1 m.2.2.1
     let s1 := addOp s g m.1 t.ctx.pc kind
     let l := elemAddrs c true (getS t.ctx f.b) idx m.2.2.2 m.2.1 m.2.2.1
     asyncRoom c = true → indexedOk dst (m.2.1 * m.2.2.2) idx m.2.2.2 m.2.2.1 = true →
     guardOk s g c dst (m.2.1 * m.2.2.2) = true → fits t (advance t.ctx) →
     (f.fn = 0 → exec (.gather g) s0 = .next (tileAt s1 g t (advance t.ctx))) ∧
     (f.fn = 1 →
       exec (.gather g) s0 = .next (tileAt (startRemote (opReads s1 g kind) g c.nextId l m.2.1) g t (advance t.ctx))))) ∧
  (∀ (s0 s : State) (g : CoreId) (t : Tile) (i : TileWord), Runs s0 g 0x52 s t i →
    (let f := fieldsOf i
     let vals := (getS t.ctx f.a).toNat
     let idx := (getS t.ctx f.c).toNat
     let m := indexedImm f.imm
     t.task.nonReplay = true → asyncRoom (coreOf s g) = true →
     indexedOk vals (adderSize f.fn * m.2.2.2) idx m.2.2.2 m.2.2.1 = true → fits t (advance t.ctx) →
     exec (.atom g) s0 = .next (tileAt
       (addOp s g m.1 t.ctx.pc (.atom f.fn vals (getS t.ctx f.b) idx m.2.2.2 m.2.2.1)) g t (advance t.ctx)))))

/-- DWAIT and PWAIT fall through once nothing that they name is outstanding, and hold the sequencer while something is. WAITC reads its
counter at once: with the condition met it writes 0 and falls through, else it holds with its deadline. WAITT writes 1 for a time that has
passed, 0 for the present one, 2 and WAIT_TIMEOUT for one beyond WAIT_LIMIT, and holds for one to come. A held WAITC ends with 0 when its
counter is read with the condition met, and with 1 and WAIT_TIMEOUT at its deadline; a held WAITT ends with 0 when the ward's time reaches
its target (R142, R148). -/
def Obligations.WaitsComplete : Prop :=
  ((∀ (s0 s : State) (g : CoreId) (t : Tile) (i : TileWord), Runs s0 g 0x23 s t i →
    (tagBusy (coreOf s g) (fieldsOf i).imm = false → fits t (advance t.ctx) →
      exec (.dwait g) s0 = .next (tileAt s g t (advance t.ctx))) ∧
    (tagBusy (coreOf s g) (fieldsOf i).imm = true → exec (.dwait g) s0 = .next (setTile s g { t with wait := .tags (fieldsOf i).imm }))) ∧
  (∀ (s0 s : State) (g : CoreId) (t : Tile) (i : TileWord), Runs s0 g 0x31 s t i →
    (passBusy (coreOf s g) (fieldsOf i).imm = false → fits t (advance t.ctx) →
      exec (.pwait g) s0 = .next (tileAt s g t (advance t.ctx))) ∧
    (passBusy (coreOf s g) (fieldsOf i).imm = true → exec (.pwait g) s0 = .next (setTile s g { t with wait := .passes (fieldsOf i).imm })))) ∧
  ((∀ (s0 s u : State) (g : CoreId) (t : Tile) (i : TileWord) (v : Nat), Runs s0 g 0x60 s t i →
    (let f := fieldsOf i
     let addr := (getS t.ctx f.a).toNat
     let target := getS t.ctx f.b
     let sc := (getS t.ctx f.c).toNat
     let limit := if f.c = 0 then waitLimit s g else if sc = 0 then none else some sc
     addr % 8 = 0 → addr + 8 ≤ bulkEnd → memReadNat s addr 8 = (u, some v) →
     (waitcMet (f.fn == 1) (BitVec.ofNat 64 v) target = true → fits t (advance (putS t.ctx f.d 0)) →
       exec (.waitc g) s0 = .next (tileAt u g t (advance (putS t.ctx f.d 0)))) ∧
     (waitcMet (f.fn == 1) (BitVec.ofNat 64 v) target = false →
       exec (.waitc g) s0 = .next (setTile u g { t with wait := .counter f.d addr target (f.fn == 1) (limit.map (now s + ·)) })))) ∧
  (∀ (s0 s : State) (g : CoreId) (t : Tile) (i : TileWord), Runs s0 g 0x61 s t i →
    (let d := (fieldsOf i).d
     let target := (getS t.ctx (fieldsOf i).a).toNat
     let here := wardTime s (coreWard g)
     (target < here → fits t (advance (putS t.ctx d 1)) → exec (.waitt g) s0 = .next (tileAt s g t (advance (putS t.ctx d 1)))) ∧
     (target = here → fits t (advance (putS t.ctx d 0)) → exec (.waitt g) s0 = .next (tileAt s g t (advance (putS t.ctx d 0)))) ∧
     (∀ n, waitLimit s g = some n → here + n < target → fits t (advance (putS t.ctx d 2)) →
       exec (.waitt g) s0 = .next (tileAt (raise s (pgCore g) evCoreWaitTimeout) g t (advance (putS t.ctx d 2)))) ∧
     (here < target → (∀ n, waitLimit s g = some n → target ≤ here + n) →
       exec (.waitt g) s0 = .next (setTile s g { t with wait := .time d target }))))) ∧
  ((∀ (s u : State) (g : CoreId) (t : Tile) (d addr : Nat) (target : Dword) (eq : Bool) (dl : Option Nat) (v : Nat),
    (coreOf s g).tile = some t → (coreOf s g).preempt = none → t.wait = .counter d addr target eq dl →
    memReadNat s addr 8 = (u, some v) → waitcMet eq (BitVec.ofNat 64 v) target = true → fits t (advance (putS t.ctx d 0)) →
    exec (.waitcPoll g) s = .next (tileAt u g t (advance (putS t.ctx d 0)))) ∧
  (∀ (s : State) (g : CoreId) (t : Tile) (d addr : Nat) (target : Dword) (eq : Bool) (dl : Nat),
    (coreOf s g).tile = some t → (coreOf s g).preempt = none → t.wait = .counter d addr target eq (some dl) → dl ≤ now s →
    fits t (advance (putS t.ctx d 1)) →
    exec (.waitTimeout g) s = .next (tileAt (raise s (pgCore g) evCoreWaitTimeout) g t (advance (putS t.ctx d 1)))) ∧
  (∀ (s : State) (g : CoreId) (t : Tile) (d target : Nat),
    (coreOf s g).tile = some t → (coreOf s g).preempt = none → t.wait = .time d target → target ≤ wardTime s (coreWard g) →
    fits t (advance (putS t.ctx d 0)) →
    exec (.waittRelease g) s = .next (tileAt s g t (advance (putS t.ctx d 0)))))

/-- PASS with a legal descriptor and a free queue place is accepted; ACCRD and ACCWR reach a pair of rows of the tile's window that no
accepted pass has yet to write; reads correct and count the single-bit errors that they meet, and a row that is written holds none (R100,
R117, R145, R173). -/
def Obligations.ArrayInstructionsComplete : Prop :=
  (∀ (s0 s : State) (g : CoreId) (t : Tile) (i : TileWord) (p : PassDesc) (cv : Option ConvDesc), Runs s0 g 0x30 s t i →
    (let a := regImm t.ctx (fieldsOf i).a (fieldsOf i).imm
     let u := meetDesc s g a
     a % 64 = 0 → a + 64 ≤ ocSize → checkPass (ocRead (coreOf u g)) (fld s (pgCore g) fCoreLimit) t.task.slots a = some (p, cv) →
     queueTaken (coreOf u g) p = false → fits t (advance t.ctx) →
     exec (.pass g) s0 = .next (tileAt (acceptPass u g t p cv) g t (advance t.ctx)))) ∧
  (∀ (s0 s : State) (g : CoreId) (flips : List SoftError) (t : Tile) (i : TileWord) (ar slot row : Nat),
    Runs (plant s0 g flips) g 0x32 s t i →
    accAddr t (regImm t.ctx (fieldsOf i).a (fieldsOf i).imm) = some (ar, slot, row) → rowsBusy (coreOf s g) ar slot row = false →
    (let s1 := meet s g (fun e => flipLives (coreOf s g) e &&
       (inAccRow ar (t.accBase + slot) row e || inAccRow ar (t.accBase + slot) (row + 1) e))
     let c := coreOf s1 g
     let k := accKey ar (t.accBase + slot) row
     let x := putV t.ctx (fieldsOf i).d (accRow c.acc ar (t.accBase + slot) row ++ accRow c.acc ar (t.accBase + slot) (row + 1))
     let acc := if (fieldsOf i).fn = 1 then mapErase (k + 1) (mapErase k c.acc) else c.acc
     fits t (advance x) → exec (.accrd g flips) s0 = .next (tileAt (setCore s1 g { c with acc := acc }) g t (advance x)))) ∧
  (∀ (s0 s : State) (g : CoreId) (t : Tile) (i : TileWord) (ar slot row : Nat), Runs s0 g 0x33 s t i →
    accAddr t (regImm t.ctx (fieldsOf i).a (fieldsOf i).imm) = some (ar, slot, row) → rowsBusy (coreOf s g) ar slot row = false →
    (let c := coreOf s g
     let k := accKey ar (t.accBase + slot) row
     let v := getV t.ctx (fieldsOf i).d
     fits t (advance t.ctx) → exec (.accwr g) s0 = .next (tileAt
       (setCore s g { accClean c (fun e => inAccRow ar (t.accBase + slot) row e || inAccRow ar (t.accBase + slot) (row + 1) e) with
         acc := mapPut (k + 1) (v.drop 32) (mapPut k (v.take 32) c.acc) }) g t (advance t.ctx))))

/-- A pass that may reach its cycle 0 begins; a begun pass completes on its array; an ACC_INV that no pass holds up any more clears the window
of its array. An uncorrectable error of an accumulator row, a register file or an operand-cache row abandons the running tile and counts
against the core; another master's read of such an operand-cache row ends in a bus error (R104, R105, R117, R131, R137, R173). -/
def Obligations.PassAndErrorEventsComplete : Prop :=
  ((∀ (s : State) (g : CoreId) (a : ArrayId) (p : Pass), nextToBegin (coreOf s g) a = some p → mayBegin (coreOf s g) p = true →
    exec (.passStart g a) s = .next (setCore s g (beginPass (coreOf s g) p))) ∧
  (∀ (s : State) (g : CoreId) (a : ArrayId) (p : Pass),
    (coreOf s g).passes.find? (fun q => q.begun && passOn q.desc a) = some p →
    exec (.passComplete g a) s = .next (completePass s g p)) ∧
  (∀ (s : State) (g : CoreId) (a : ArrayId) (ids : List Nat),
    (coreOf s g).invWait.find? (fun e => e.1 == a.val) = some (a.val, ids) →
    (coreOf s g).passes.any (fun p => ids.contains p.id) = false →
    exec (.accInvDone g a) s = .next (setCore s g { invSlots (coreOf s g) a with
      invWait := (coreOf s g).invWait.filter (fun x => x.1 != a.val) }))) ∧
  ((∀ (s : State) (g : CoreId) (a : ArrayId) (slot : Fin 64) (row : Fin 32), (coreOf s g).tile ≠ none →
    exec (.accUe g a slot row) s = .next (sramUe (addRowCandidate (abandonRunning (arrEvent s g fCoreAccUe) g)
      (accRowReq g a slot row true)) g)) ∧
  (∀ (s : State) (g : CoreId), (coreOf s g).tile ≠ none → exec (.regUe g) s = .next (sramUe (abandonRunning s g) g)) ∧
  (∀ (s : State) (g : CoreId) (o : BitVec 21), o.toNat < 0x180000 → (coreOf s g).tile ≠ none →
    exec (.ocUe g o .tile) s = .next (sramUe (addRowCandidate (abandonRunning s g) (ocRow g o.toNat true)) g)) ∧
  (∀ (s : State) (g : CoreId) (o : BitVec 21) (m : Master), o.toNat < 0x180000 →
    exec (.ocUe g o (.window m)) s =
      .next (sramUe (addRowCandidate (busError s m (ocBase + 0x200000 * g + o.toNat) false) (ocRow g o.toNat true)) g)))

/-- A pre-empted core whose tile has come to its stop moves it to the shadow, and starts the other task once no pass of the saved tile runs any
more; with no tile and no task given, the suspended tile comes back, from its resident image or after a load. A task given to an idle core
starts; a completed image load lets the tile run; a tile that has run past its time limit ends with TIME_LIMIT (R123, R133, R134, R155,
R156). -/
def Obligations.TileStartAndSuspendComplete : Prop :=
  ((∀ (s : State) (g : CoreId) (t : Tile) (p : Task × Nat), (coreOf s g).tile = some t → (coreOf s g).preempt = some p →
    stopped (coreOf s g) t = true →
    (let u := toShadow s g t
     (passesRun (coreOf u g) true = false → exec (.tileSuspend g) s = .next (startTile u g p.1 p.2)) ∧
     (passesRun (coreOf u g) true = true → exec (.tileSuspend g) s = .next u))) ∧
  (∀ (s : State) (g : CoreId) (t : Tile) (p : Task × Nat), (coreOf s g).tile = none → (coreOf s g).preempt = some p →
    (coreOf s g).shadow = some t → passesRun (coreOf s g) true = false →
    exec (.tileSuspend g) s = .next (startTile s g p.1 p.2)) ∧
  (∀ (s : State) (g : CoreId) (t : Tile), (coreOf s g).tile = none → (coreOf s g).given = none → (coreOf s g).preempt = none →
    (coreOf s g).shadow = some t →
    (let c := coreOf s g
     let c1 := { reaccept c with
       tile := some { t with phase := .loading, since := now s }, shadow := none, abandonedAt := none,
       asyncs := c.asyncs.map (fun a => { a with suspended := false }),
       staging := c.staging.map (fun e => { e with suspended := false }),
       image := if resident c t.task then c.image else none, flush := false }
     (resident c t.task = true →
       exec (.tileResume g) s = .next (continueTile (setCore s g c1) g { t with since := now s })) ∧
     (resident c t.task = false →
       exec (.tileResume g) s = .next (bump (setCore s g c1) (pgCore g) fCoreCodeLoadCount))))) ∧
  ((∀ (s : State) (g : CoreId) (k : Task) (id : Nat), (coreOf s g).given = some (k, id) → (coreOf s g).tile = none →
    exec (.tileStart g) s = .next (startTile s g k id)) ∧
  (∀ (s : State) (g : CoreId) (t : Tile), (coreOf s g).tile = some t → t.phase = .loading →
    exec (.imageLoadDone g) s = .next (finishLoad s g t)) ∧
  (∀ (s : State) (g : CoreId) (t : Tile), (coreOf s g).tile = some t → t.phase ≠ .loading → fld s (pgCore g) fCoreTileTimeLimit ≠ 0 →
    65536 * fld s (pgCore g) fCoreTileTimeLimit < t.ran + (now s - t.since) →
    exec (.timeLimit g) s = .next (tileFail s g causeTimeLimit t.ctx.pc 0 0)))

/-- A COMMIT with nothing outstanding performs its staged entries in order; with all writes acknowledged the tile has ended: it is counted and
reported as normal. An outstanding operation whose data are all there writes them and leaves the list; one that fails ends its tile, the
running one or the suspended one (R149, R152, R177, R180, R531). -/
def Obligations.TileEventsComplete : Prop :=
  ((∀ (s u : State) (g : CoreId) (t : Tile), (coreOf s g).tile = some t → t.phase = .commitWait →
    tagBusy (coreOf s g) 0xFFFF = false → passBusy (coreOf s g) 0xF = false →
    commitEntries s g ((coreOf s g).staging.filter (fun e => !e.suspended)) = (u, none) →
    exec (.commitPerform g) s = .next (setTile u g { t with phase := .commitDone })) ∧
  (∀ (s : State) (g : CoreId) (t : Tile), (coreOf s g).tile = some t → t.phase = .commitDone → commitOwed s g = false →
    exec (.commitComplete g) s = .next (addReport (bump (setCore s g (endRunning (coreOf s g))) (pgCore g) fCoreTileCount) g .normal
      t.entryId))) ∧
  ((∀ (s u : State) (g : CoreId) (op : Nat) (a : AsyncOp) (l : List (Nat × List Byte)), findOp (coreOf s g) op = some a →
    (∃ d r n, a.kind = .dmaBm d r n ∨ a.kind = .dmaOc d r n ∨ a.kind = .dmaFab d r n) → opAnswered a = true →
    opData s g a = (u, .writes l) → exec (.dmaDone g op) s = .next (dropOp (applyWrites u g l) g op)) ∧
  (∀ (s u : State) (g : CoreId) (op : Nat) (a : AsyncOp) (l : List (Nat × List Byte)) (fab : Bool) (dst : Nat) (base : Dword)
    (idx count esize : Nat) (idx64 : Bool), findOp (coreOf s g) op = some a → a.kind = .gather fab dst base idx count esize idx64 →
    opAnswered a = true → opData s g a = (u, .writes l) →
    (let reqs := gatherRequests esize ((elemAddrs (coreOf s g) fab base idx count esize idx64).map (·.getD 0))
     exec (.gatherDone g op) s = .next (dropOp (applyWrites (bumpBy (bumpBy u (pgCore g) fCoreGatherElemCount count) (pgCore g)
       fCoreGatherReqCount reqs) g l) g op))) ∧
  (∀ (s u v : State) (g : CoreId) (op : Nat) (a : AsyncOp) (fn vals : Nat) (base : Dword) (idx count : Nat) (idx64 : Bool),
    findOp (coreOf s g) op = some a → a.kind = .atom fn vals base idx count idx64 → opData s g a = (v, .writes []) →
    (let l := atomList v g fn vals base idx count idx64
     atomUpdates l.2 fn l.1 = (u, none) →
     exec (.atomDone g op) s = .next (dropOp (bumpBy (bumpBy u (pgCore g) fCoreGatherElemCount count) (pgCore g)
       fCoreGatherReqCount count) g op))) ∧
  (∀ (s u : State) (g : CoreId) (op x : Nat) (a : AsyncOp), findOp (coreOf s g) op = some a → a.suspended = false →
    opFailure s g a = (u, some x) → exec (.asyncFail g op) s = .next (tileFail u g causeMemErr a.pc x 0)) ∧
  (∀ (s u : State) (g : CoreId) (op x : Nat) (a : AsyncOp), findOp (coreOf s g) op = some a → a.suspended = true →
    opFailure s g a = (u, some x) → exec (.suspendedTileFail g op) s = .next (suspendedFail u g causeMemErr a.pc x)))

/-- An idle core asks its dispatcher, the first time or again, and is given the best task, which is counted as issued, or waits. A dispatcher
with an urgent task and no idle core pre-empts the admitting core of lowest priority; it fetches a forwarded list, or the rest of one that
found no room; it reads and releases the first record in line. Reports of ended tiles: a normal end adds the task's done counter and frees
its entry, or is recorded as DONE_ERR where that add fails; an abandoned tile is reissued or given up; a failed one is recorded with its
cause; an update unit whose tile it was goes on or ends FAILED (R186, R188, R189, R190, R194, R196, R348). -/
def Obligations.DispatcherCommandsComplete : Prop :=
  (∀ (s : State) (g : CoreId), mayAsk s g = true →
    (let d := coreDie g
     let best := if flag s (pgDisp d) fDispatcherEnable then bestEntry s d (pullable (dispOf s d) (coreWard g % 8)) else none
     ∀ c, (c = .taskRequest g ∧ (coreOf s g).asked = false ∨ c = .taskAskRetry g ∧ (coreOf s g).asked = true) →
       (best = none → exec c s = .next (setCore s g { coreOf s g with asked := true })) ∧
       (∀ e, best = some e →
         (let s1 := setDisp s d (updEntry (dispOf s d) e.id (fun x => { x with core := some g.val }))
          exec c s = .next (bump (setCore s1 g { coreOf s1 g with given := some (e.task, e.id), asked := false }) (pgDisp d)
            fDispatcherTasksIssued))))) ∧
  ((∀ (s : State) (d : DieId) (e : StoreEntry) (v : Nat × Tile), flag s (pgDisp d) fDispatcherEnable = true →
    (dieCores d).any (fun g => coreIdle s g) = false → bestEntry s d (preempting s d) = some e → victim s d e = some v →
    exec (.preemptDecision d) s = .next (preemptCore s d v.1 e)) ∧
  (∀ (s : State) (d : DieId) (l : FetchList), dieAwake s d = true → (dispOf s d).lists.find? (fun x => !x.overflowed) = some l →
    (let r := fetchMany l.left s d l
     let q := lateCheck r.1 d r.2
     let full := decide (q.2.left ≠ 0)
     let s1 := raiseIf full q.1 (pgDisp d) evDispatcherStoreOverflow
     exec (.listFetch d) s = .next (arriveIfReady (setDisp s1 d { dispOf s1 d with
       lists := replaceList (dispOf s1 d).lists (fun x => !x.overflowed) { q.2 with overflowed := full } }) l.bell))) ∧
  (∀ (s : State) (d : DieId) (l : FetchList), dieAwake s d = true → (dispOf s d).lists.find? (·.overflowed) = some l →
    storeFree (dispOf s d) ≠ 0 →
    (let r := fetchMany l.left s d l
     let q := lateCheck r.1 d r.2
     exec (.storeRoomFetch d) s = .next (setDisp q.1 d { dispOf q.1 d with
       lists := replaceList (dispOf q.1 d).lists (·.overflowed) q.2 }))) ∧
  (∀ (s : State) (d : DieId) (a : RecordRef) (rest : List RecordRef), dieAwake s d = true → (dispOf s d).records = a :: rest →
    exec (.releaseRecord d) s = .next (releaseRecord s d))) ∧
  ((∀ (s u : State) (d : DieId) (r : Report) (e : StoreEntry), firstReport (dispOf s d) (· == .normal) = some r →
    entryOf (dispOf s d) r.entryId = some e →
    (doneAdd s e.task = (u, true) →
      exec (.taskDone d) s = .next (updTileEnd (bump (closeReport u d r) (pgDisp d) fDispatcherTasksDone) d e.id true)) ∧
    (doneAdd s e.task = (u, false) →
      exec (.doneAddError d) s =
        .next (updTileEnd (addFailure (closeReport u d r) d e.task.ref 0x06 0 (r.core % 304)) d e.id false))) ∧
  (∀ (s : State) (d : DieId) (r : Report) (e : StoreEntry), firstReport (dispOf s d) (· == .abandoned) = some r →
    entryOf (dispOf s d) r.entryId = some e →
    (let u := handleAbandon s d r e
     exec (.abandonReport d) s = .next (if (entryOf (dispOf u d) e.id).isSome then u else updTileEnd u d e.id false))) ∧
  (∀ (s : State) (d : DieId) (r : Report) (e : StoreEntry) (cause : Nat),
    (dispOf s d).reports.find? (fun x => match x.kind with
      | .failed _ => true
      | _ => false) = some r → r.kind = .failed cause → entryOf (dispOf s d) r.entryId = some e →
    exec (.taskFailReport d) s = .next (updTileEnd (addFailure (raise (closeReport s d r) (pgDisp d) evDispatcherTaskFail) d e.task.ref
      0x01 cause (r.core % 304)) d e.id false)))

/-- The bell of an awake ward makes pending tasks pullable; a ward's or a dispatcher's copy of the time counter is put right; the loss of
the reference clock puts the time base in holdover and raises REF_LOST, its return ends that. A rank-0 manager takes a working rank's
arrival at a barrier; a member takes the bell; an arrival without a bell for 100 us is sent again (R198, R201, R203, R294). -/
def Obligations.TimeAndBarrierCommandsComplete : Prop :=
  ((∀ (s : State) (w : WardId), dieAwake s (w / 8) = true → exec (.bellRing w) s = .next (ringBell s w)) ∧
  (∀ (s : State) (c : TimeCopy), ∃ t, exec (.timeCorrection c) s = .next t ∧ t = { s with wardOff := mapErase (copyKey c) s.wardOff } ∧
    copyTime t (copyKey c) = now s) ∧
  (∀ s : State, flag s 3 stTimeBaseHoldover = false → flag s 1 fStrapsRefclkSrc = false →
    exec .refclkLost s = .next (raise (setFlag s 3 stTimeBaseHoldover true) 3 evTimeBaseRefLost)) ∧
  (∀ s : State, exec .refclkRestored s = .next (setFlag s 3 stTimeBaseHoldover false))) ∧
  ((∀ (s : State) (pk : Packet) (r : Nat), Arrives s pk kBarrierArrive → pk.len = 0 → pk.addr = 0 → pk.aux = 0 →
    (let u := takeInbox s pk
     pk.epoch = epochNow u → jstate u = jsManager → rankOf u pk.src = some r → r < 16384 →
     exec (.barrierArrive pk) s = .next (barrierArrival u pk.ctx r))) ∧
  (∀ (s : State) (pk : Packet), Arrives s pk kBarrierBell → pk.len = 0 →
    (let u := takeInbox s pk
     pk.epoch = epochNow u → exec (.barrierBell pk) s = .next (takeBell u pk.ctx pk.addr.toNat))) ∧
  (∀ (s : State) (id : BitVec 16) (t : Nat), s.net.waiting.find? (fun w => w.1 == id) = some (id, t) → t + 100000 ≤ now s →
    exec (.barrierResend id) s = .next (sendArrival s id)))

/-- Accesses of bulk memory answer with the bytes, with done, or with a bus error, as the address and the stored code words decide; an update
by a memory adder does too. The scrubber checks the page of its next slot once that is due; a queued row is remapped, a queued page retired, a
channel failed; MR4 and a training result are kept, and before the fill a trained channel's rows are repaired; with every channel trained or
failed the memory is filled and open (R213, R214, R220, R221,
R223, R225, R228, R229, R234, R236). -/
def Obligations.MemoryCommandsComplete : Prop :=
  ((∀ (s u : State) (addr : BitVec 44) (len : Nat) (ups : List Upset) (b : List Byte),
    memRead (applyUpsets s ups) addr.toNat len = (u, some b) → exec (.memoryRead addr len ups) s = .next { u with resp := .bytes b }) ∧
  (∀ (s u : State) (addr : BitVec 44) (data : List (BitVec 8)) (ups : List Upset),
    memWrite (applyUpsets s ups) addr.toNat data = (u, true) → exec (.memoryWrite addr data ups) s = .next { u with resp := .done }) ∧
  (∀ (s u : State) (fn : Fin 6) (addr : BitVec 44) (v : BitVec 64),
    adderUpdate s fn addr.toNat v.toNat = (u, true) → exec (.memoryAdderUpdate fn addr v) s = .next { u with resp := .done }) ∧
  (∀ (s u : State) (addr : BitVec 44) (len : Nat) (ups : List Upset),
    memRead (applyUpsets s ups) addr.toNat len = (u, none) → exec (.memoryRead addr len ups) s = .next { u with resp := .busError })) ∧
  ((∀ (s : State) (ch : ChanId) (ups : List Upset) (page : Nat), dieAwake s (ch / 32) = true → modState s ≠ msStandby →
    chanServes s ch = true → flag s (pgMem (ch / 8)) fMemCtlScrubEn = true → (chanOf s ch).scrubAt ≤ now s →
    (let u := applyUpsets s ups
     let c := chanOf u ch
     let next := (c.scrubNext + 1) % slotCount
     let due := if c.scrubAt = 0 then now u else c.scrubAt
     let v := setChan u ch { c with
       scrubNext := next, scrubAt := due + scrubStep u ch, ceRows := if next = 0 then [] else c.ceRows }
     pageOfSlot v ch c.scrubNext = some page → exec (.scrubSlot ch ups) s = .next (checkPage v ch page c.scrubNext true))) ∧
  (∀ (s : State) (fails : Bool) (r : RowRef) (rest : List RowRef), s.mem.queue = r :: rest →
    (pagesOfRow s (logicalRow s r)).any (fun p => s.mem.retireQ.contains (r.chan, p)) = false →
    exec (.rowRemap fails) s = .next (remapRow s r fails)) ∧
  (∀ (s : State) (chan page : Nat) (rest : List (Nat × Nat)), s.mem.retireQ = (chan, page) :: rest →
    (let u := retirePage (setMem s { s.mem with retireQ := rest }) chan page
     exec .pageRetire s = .next (if rest.isEmpty then freeRetired u else u))) ∧
  (∀ (s : State) (ch : ChanId), chanServes s ch = true → exec (.channelFail ch) s = .next (failChannel s ch)) ∧
  (∀ (s : State) (ch : ChanId) (v : BitVec 5), chanServes s ch = true →
    exec (.mr4Read ch v) s = .next (setChan s ch { chanOf s ch with mr4 := v.toNat })) ∧
  (∀ (s : State) (ch : ChanId) (r : Fin 3), (chanOf s ch).failed = false → dieAwake s (ch / 32) = true →
    (let u := setFld (setChan s ch { chanOf s ch with rate := some r.val }) (pgMem (ch / 8)) { fMemCtlRate0 with lo := 2 * (ch % 8) } r
     exec (.channelTraining ch (some r)) s = .next (if s.mem.filled then u else repairChan u ch))) ∧
  (∀ (s : State) (ch : ChanId), (chanOf s ch).failed = false → dieAwake s (ch / 32) = true →
    exec (.channelTraining ch none) s = .next (failChannel s ch)) ∧
  (∀ s : State, s.mem.filled = false → (∀ c, c < 128 → (chanOf s c).failed = true ∨ (chanOf s c).rate ≠ none) →
    exec .fillComplete s = .next (setMem s { s.mem with filled := true, data := [], opens := [], poison := [], flips := [] })))

/-- A codeword on a port that receives: a DATA frame in sequence is delivered, one out of sequence asks for a replay, one that would overrun its
buffer is discarded; an IDLE or TIME frame has its header used; a codeword that gives no sound frame is discarded and counted. After each
the port's own codeword follows. A lane command is kept for its boundary while none is kept, and CMD_ACK is noted for a command of this
side; at the boundary the receive or the transmit map changes (R252, R254, R255, R257, R258, R260, R272). -/
def Obligations.LinkFramesComplete : Prop :=
  ((∀ (s : State) (p : PortId) (w : LaneWord) (f : Frame), receiving s p = true → hear (portOf s p).rxMap w = .ok f → f.typ = 0 →
    timeRuns (portState s p) = true →
    (let s1 := setPort s p { portOf s p with badRun := 0 }
     let u := useHeader s1 p f
     (f.seq.toNat = (portOf s p).rxNext → overruns s1 p f = true →
       exec (.dataFrame p w) s = .next (keepLine s (discardFrame s1 p .overrun) p)) ∧
     (f.seq.toNat = (portOf s p).rxNext → overruns s1 p f = false → timeRuns (portState u p) = true →
       exec (.dataFrame p w) s = .next (keepLine s (deliver u p f) p)) ∧
     (f.seq.toNat ≠ (portOf s p).rxNext → timeRuns (portState u p) = true →
       exec (.dataFrame p w) s = .next (keepLine s (setPort u p (askReplay (portOf u p))) p)))) ∧
  (∀ (s : State) (p : PortId) (w : LaneWord) (f : Frame), receiving s p = true → hear (portOf s p).rxMap w = .ok f → f.typ = 1 →
    exec (.idleFrame p w) s = .next (keepLine s (useHeader (setPort s p { portOf s p with badRun := 0 }) p f) p)) ∧
  (∀ (s : State) (p : PortId) (w : LaneWord) (f : Frame) (a : BitVec 64), receiving s p = true → hear (portOf s p).rxMap w = .ok f →
    f.typ = 2 → timeRuns (portState s p) = true →
    (let u := useHeader (setPort s p { portOf s p with badRun := 0 }) p f
     timeRuns (portState u p) = true → exec (.timeFrame p w a) s = .next (keepLine s (timeFrame u p f a.toNat) p))) ∧
  (∀ (s : State) (p : PortId) (w : LaneWord) (why : BadFrame), receiving s p = true → hear (portOf s p).rxMap w = .error why →
    exec (.frameDiscard p w) s = .next (keepLine s (discardFrame s p why) p)) ∧
  (∀ (s : State) (p : PortId), receiving s p = true → timeRuns (portState s p) = true → timeDue s p = true →
    exec (.timeFrameTx p) s = .next (setPort s p { transmit (portOf s p) (now s) 2 0 (portOf s p).nextSeq (timePayload s (portOf s p)) with
      timeAt := some (now s) })) ∧
  (∀ (s : State) (p : PortId), portActive s p = true → (portOf s p).replay ≠ [] → (portOf s p).lastData + 8000 ≤ now s →
    exec (.replayTimeout p) s = .next (replayAll s p))) ∧
  ((∀ (s : State) (p : PortId) (lane : BitVec 4), receiving s p = true → (portOf s p).cmdIn = none →
    (let kept (code : Nat) : State := setPort s p { portOf s p with cmdIn := some ⟨code, lane.toNat⟩, ackDue := true }
     exec (.swap p lane) s = .next (keepLine s (kept 1) p) ∧ exec (.narrow p lane) s = .next (keepLine s (kept 2) p) ∧
     exec (.widen p lane) s = .next (keepLine s (kept 3) p))) ∧
  (∀ (s : State) (p : PortId) (c : LaneCmd), receiving s p = true → (portOf s p).cmdOut = some c →
    exec (.cmdAck p) s = .next (setPort s p { portOf s p with cmdAcked := true })) ∧
  (∀ (s : State) (p : PortId), receiving s p = true →
    exec (.laneMapChange p .tx) s = .next (txBoundary s p) ∧ exec (.laneMapChange p .rx) s = .next (rxBoundary s p)))

/-- A frame that fills its 39 units, sent on the lanes of any map, is heard as it was sent: no bit of its header, its payload, its transmit time
or its CRC is dropped or moved by the code or by the lanes. One whose fields break their table is heard as such (R252, R253, R254, R259,
R530). -/
def Obligations.FramesCrossTheLink : Prop :=
  ∀ (map : List Nat) (f : Frame), map ≠ [] → map.length ≤ 8 → map.Nodup → (∀ l, l ∈ map → l < 9) → f.payload.length = 624 →
    hear map (onLanes map (codeword f)) = if frameFieldsOk f = true then .ok f else .error .fields

/-- A port's way up: the laser check passes after 1 ms of light and is reported while there is none; training and alignment fix the lanes; a
PARAM frame names the partner, a frame of this module's own is a SELF_LINK unless LOOPBACK is set, and one that reaches an ACTIVE port says
that the partner retrains; a port that is DOWN tries again after a
second, and a state that lasts too long ends DOWN. Lanes and lasers at work: the ratios of a window are judged; a lane that fails is
replaced or given up; a bring-in starts; an ACTIVE port whose light is gone goes DOWN and reports it; a sample of the laser power is shown
with its judgement (R250, R261, R264, R265, R268, R269). -/
def Obligations.LinkHealthCompletes : Prop :=
  ((∀ (s : State) (p : PortId) (t : Nat), (portOf s p).laserSince = some t → portState s p = psLaser → t + 1000000 ≤ now s →
    exec (.laserCheckPass p) s = .next (setPortState s p psTrain)) ∧
  (∀ (s : State) (p : PortId), portState s p = psLaser → (portOf s p).laserSince = none → laserDue s p = true →
    exec (.laserRecheck p) s = .next (raise (setPort s p { portOf s p with laserAt := some (now s) }) (pgPort p) evPortLaserLow)) ∧
  (∀ (s : State) (p : PortId) (tx rx : BitVec 9), portState s p = psTrain →
    (let u := setPort s p { portOf s p with txGood := tx, rxGood := rx }
     (tooNarrow u p = false → exec (.laneTrainDone p tx rx) s = .next (setPortState u p psAlign)) ∧
     (tooNarrow u p = true → exec (.laneTrainDone p tx rx) s = .next (portDown u p)))) ∧
  (∀ (s : State) (p : PortId) (map : List (BitVec 4)), portState s p = psAlign →
    exec (.alignDone p map) s = .next (setPortState (setPort s p { portOf s p with
      rxMap := goodLanes (portOf s p).rxGood (deadLanes s p),
      txMap := ((map.map (·.toNat)).filter (fun k => !((deadLanes s p).testBit k))).take 8, mapped := true, held := none,
      rxShare := [fld s (pgPort p) fPortShare0, fld s (pgPort p) fPortShare1, fld s (pgPort p) fPortShare2,
        fld s (pgPort p) fPortShare3], paramOut := some (ownParam s p) }) p psParam)) ∧
  (∀ (s : State) (p : PortId) (q : Partner), portState s p = psParam → (q.id ≠ moduleId s ∨ flag s (pgPort p) fPortLoopback = true) →
    exec (.paramFrame p q) s = .next (takePartner s p q)) ∧
  (∀ (s : State) (p : PortId) (q : Partner), portState s p = psParam → q.id = moduleId s → flag s (pgPort p) fPortLoopback = false →
    exec (.paramFrame p q) s =
      .next (raiseIf (portOf s p).held.isNone (setPort s p { portOf s p with held := some q }) (pgPort p) evPortSelfLink)) ∧
  (∀ (s : State) (p : PortId) (q : Partner), portState s p = psActive → exec (.paramFrame p q) s = .next (portRetrain s p)) ∧
  (∀ (s : State) (p : PortId), portState s p = psDown → flag s (pgPort p) fPortEnable = true →
    (portOf s p).since + 1000000000 ≤ now s → exec (.downRetry p) s = .next (portLaserCheck s p)) ∧
  (∀ (s : State) (p : PortId) (n : Nat), stateLimit s p = some n → (portOf s p).since + n < now s →
    exec (.trainStateTimeout p) s = .next (portDown s p))) ∧
  ((∀ (s : State) (p : PortId) (l : List LaneRatio), receiving s p = true → exec (.laneWindow p l) s = .next (laneWindow s p l)) ∧
  (∀ (s : State) (p : PortId) (k : Fin 9), pageServed s (pgPort p) = true → (deadLanes s p).testBit k = false →
    exec (.laneHardFail p k) s = .next (laneFails s p k)) ∧
  (∀ (s : State) (r : LaneReq) (rest : List LaneReq) (k : Nat), s.net.laneRun = none → s.net.laneQ = r :: rest →
    (portOf s r.port).cmdOut = none → portActive s r.port = true → bestSpare s r.port = some k →
    (let u := setNet s { s.net with laneQ := rest }
     (∀ l, r.lane = some l → exec .laneBringIn s = .next (setNet (setPort u r.port { portOf s r.port with cmdOut := some ⟨1, l⟩ })
       { u.net with laneRun := some r })) ∧
     (r.lane = none → (portOf s r.port).rxMap.length < 8 → bestSpare u r.port = some k →
       exec .laneBringIn s = .next (setNet (setPort u r.port { portOf s r.port with cmdOut := some ⟨3, k⟩ })
         { u.net with laneRun := some r })))) ∧
  (∀ (s : State) (p : PortId), portState s p = psActive → (portOf s p).laserSince = none →
    exec (.laserLoss p) s = .next (raise (portDown s p) (pgPort p) evPortLaserLow)) ∧
  (∀ (s : State) (p : PortId) (w : BitVec 16), pageServed s (pgPort p) = true →
    (let ok := w != 0x8000 && decide (1500 ≤ w.toInt)
     let u := setFlag (setFld s (pgPort p) fPortLaserPwr w.toNat) (pgPort p) stPortLaserOk ok
     exec (.laserPwrSample p w) s = .next (setPort u p { portOf u p with
       laserSince := if ok then some ((portOf u p).laserSince.getD (now u)) else none }))))

/-- A read request is answered with its bytes, or with the refusal of R283; a write request is carried out once and acknowledged, again when
it comes again. Responses: the bytes of a read are kept for the operation that asked, a write's acknowledgement ends its message, an error
fails it. A packet for another module goes on with its TTL one lower; with TTL 1 its source is sent an error of code 5. A message without
its response in time is sent again up to RETRY times; after those, or 8 ms after its first send, it fails (R283, R284, R287). -/
def Obligations.TransportCompletes : Prop :=
  ((∀ (s v : State) (pk : Packet) (b : List Byte), Arrives s pk kRdReq → pk.len = 0 → pk.epoch = 0 → pk.ctx = 0 →
    16 * pk.aux.toNat ≤ 4096 →
    (let u := takeInbox s pk
     (refuseCode u pk.addr.toNat (16 * pk.aux.toNat) = none → memRead u pk.addr.toNat (16 * pk.aux.toNat) = (v, some b) →
       exec (.rdReq pk) s = .next (respond v pk kRdResp 0 b)) ∧
     (∀ c, refuseCode u pk.addr.toNat (16 * pk.aux.toNat) = some c → exec (.rdReq pk) s = .next (respond u pk kErrResp c [])) ∧
     (refuseCode u pk.addr.toNat (16 * pk.aux.toNat) = none → memRead u pk.addr.toNat (16 * pk.aux.toNat) = (v, none) →
       exec (.rdReq pk) s = .next (respond v pk kErrResp 0x02 [])))) ∧
  (∀ (s v : State) (pk : Packet), Arrives s pk kWrReq → pk.epoch = 0 → pk.ctx = 0 →
    (let u := takeInbox s pk
     (wasApplied u pk.src pk.msgId = false → refuseCode u pk.addr.toNat pk.payload.length = none →
       memWrite u pk.addr.toNat pk.payload = (v, true) →
       exec (.wrReq pk) s = .next (respond (noteApplied v pk.src pk.msgId) pk kWrAck 0 [])) ∧
     (wasApplied u pk.src pk.msgId = true → exec (.wrReq pk) s = .next (respond u pk kWrAck 0 []))))) ∧
  ((∀ (s : State) (pk : Packet) (m : Msg) (g op : Nat), Arrives s pk kRdResp → pk.epoch = 0 →
    (let u := takeInbox s pk
     answered u pk = some m → m.pk.kind.toNat = kRdReq → pk.len.toNat = m.pk.aux.toNat → m.owner = .async g op →
     exec (.rdResp pk) s = .next (pumpGathers 128 (opUpd (dropMsg u pk.msgId) g op (fun a =>
       opAnsweredBy { a with got := pk.payload.zipIdx.foldl (fun m' e => mapPut (fabAddr m + e.2) e.1 m') a.got } pk.msgId)) g))) ∧
  (∀ (s : State) (pk : Packet) (m : Msg), Arrives s pk kWrAck → pk.epoch = 0 → pk.len = 0 →
    (let u := takeInbox s pk
     answered u pk = some m → m.pk.kind.toNat = kWrReq → exec (.wrAck pk) s = .next (dropMsg u pk.msgId))) ∧
  (∀ (s : State) (pk : Packet) (m : Msg), Arrives s pk kErrResp → pk.epoch = 0 → pk.len = 0 →
    (let u := takeInbox s pk
     u.net.out.find? (fun m => m.pk.msgId == pk.msgId) = some m → exec (.errResp pk) s = .next (failMsg u m)))) ∧
  ((∀ (s : State) (pk : Packet), forMe s pk = false → packetOk pk = true →
    (1 < pk.ttl.toNat → exec (.packetForward pk) s = .next (emit (takeInbox s pk) { pk with ttl := pk.ttl - 1 })) ∧
    (pk.ttl.toNat ≤ 1 → exec (.packetForward pk) s = .next (emit (takeInbox s pk) (errResp (takeInbox s pk) pk 0x05)))) ∧
  (∀ (s : State) (d : DieId) (id : BitVec 32) (m : Msg), s.net.out.find? (fun m => m.die == d.val && m.pk.msgId == id) = some m →
    (let due := m.last + fld s 0x30 fTransportMsgTimeout * 1000 ≤ now s
     (due → m.resends < fld s 0x30 fTransportRetry → now s < m.first + 8000000 → exec (.msgTimeout d id) s = .next (resendMsg s m)) ∧
     (due ∧ fld s 0x30 fTransportRetry ≤ m.resends ∨ m.first + 8000000 ≤ now s → exec (.msgTimeout d id) s =
       .next (failMsg (raise (bump s 0x30 fTransportMsgFailedCount) 0x30 evTransportMsgFailed) m)))))

/-- Collectives: the first armed one starts when it may; a handshake, data and acknowledgements of a running one are taken; data that came
before are acknowledged again; an ended one writes its status and is forgotten. The four packets of an expert exchange, well formed and
from a position of the operation that runs, are kept for that position and the operation goes on: counts, admissions, rows and returned
rows (R298, R302, R303, R304, R306, R307, R308). -/
def Obligations.CollectivesComplete : Prop :=
  ((∀ (s : State) (c : Coll), nextColl s = some c → runningColls s < 16 → c.started = true →
    exec .collStart s = .next (startColl s c)) ∧
  (∀ (s : State) (pk : Packet) (c : Coll) (q : Nat), Arrives s pk kCollReady → readyOk pk = true →
    (let u := takeInbox s pk
     let flags := leNat ((pk.payload.drop 4).take 4)
     pk.epoch = epochNow u → (flags = 0 ∨ flags = 2 ∧ c.desc.op = 3) → collAt u pk.ctx = some c → posOf u c pk.src = some q →
     exec (.collReady pk) s = .next (collPump (takeReady u c q pk) pk.ctx))) ∧
  (∀ (s v : State) (pk : Packet) (c : Coll) (q : Nat), Arrives s pk kCollData →
    (let u := takeInbox s pk
     let n := pk.payload.length
     pk.epoch = epochNow u → wasApplied u pk.src pk.msgId = false → collAt u pk.ctx = some c → posOf u c pk.src = some q →
     dataOk c q pk = true → applyData u c q pk = (v, true) →
     exec (.collData pk) s = .next (collPump (peerUpd (sendCollAck (noteApplied v pk.src pk.msgId) pk) pk.ctx q (fun p =>
       if c.desc.op = 0 ∧ pk.aux = 1 then { p with got1 := p.got1 + n } else { p with got0 := p.got0 + n })) pk.ctx))) ∧
  (∀ (s : State) (pk : Packet), Arrives s pk kCollData →
    (let u := takeInbox s pk
     pk.epoch = epochNow u → wasApplied u pk.src pk.msgId = true → exec (.collData pk) s = .next (sendCollAck u pk))) ∧
  (∀ (s : State) (pk : Packet) (m : Msg) (id : BitVec 16) (k : Nat), Arrives s pk kCollAck → pk.len = 0 → pk.aux = 0 →
    (let u := takeInbox s pk
     pk.epoch = epochNow u → answered u pk = some m → m.owner = .coll id k → m.pk.addr = pk.addr →
     exec (.collAck pk) s = .next (collPump (dropMsg u pk.msgId) id))) ∧
  (∀ (s : State) (id : BitVec 16) (c : Coll), s.net.colls.find? (fun c => c.desc.id == id && c.ending.isSome) = some c →
    exec (.collEnd id) s = .next (finishColl s c))) ∧
  (∀ (s : State) (pk : Packet) (c : Coll) (q : Nat) (p : Peer1), forMe s pk = true → packetOk pk = true →
    (let u := takeInbox s pk
     let v := noteApplied u pk.src pk.msgId
     let n := pk.payload.length
     pk.epoch = epochNow u → wasApplied u pk.src pk.msgId = false → collAt u pk.ctx = some c → posOf u c pk.src = some q →
     c.peers.find? (fun p => p.pos == q) = some p →
     (pk.kind.toNat = kExchCount → c.desc.op = 4 → listOk pk (nlocalAt c c.pos) = true →
       exec (.exchCount pk) s = .next (collPump (peerUpd v c.desc.id p.pos (fun x => { x with
         countTotal := some pk.aux.toNat, countGot := x.countGot + n,
         countList := keepBytes x.countList pk.addr.toNat pk.payload })) pk.ctx)) ∧
     (pk.kind.toNat = kExchAdmit → c.desc.op = 4 → listOk pk (nlocalAt c p.pos) = true →
       exec (.exchAdmit pk) s = .next (collPump (peerUpd v c.desc.id p.pos (fun x => { x with
         admitTotal := some pk.aux.toNat, admitGot := x.admitGot + n,
         admitList := keepBytes x.admitList pk.addr.toNat pk.payload })) pk.ctx)) ∧
     (pk.kind.toNat = kExchData → c.desc.op = 4 → streamOk pk c p = true →
       exec (.exchData pk) s = .next (collPump (peerUpd v c.desc.id p.pos (fun x => { x with
         got0 := x.got0 + n, stream := keepBytes x.stream pk.addr.toNat pk.payload })) pk.ctx)) ∧
     (pk.kind.toNat = kExchReturn → c.desc.op = 5 → streamOk pk c p = true →
       exec (.exchReturn pk) s = .next (collPump (peerUpd v c.desc.id p.pos (fun x => { x with
         got0 := x.got0 + n, stream := keepBytes x.stream pk.addr.toNat pk.payload })) pk.ctx))))

/-- A write of a mapped, served register is done; a read answers with its word; the mailbox rows are one write of MBX_SEL each. Writes and
reads of an operand-cache window and of bulk memory by a master that is no tile are served too. The scans and reports of a mapped page:
every triplicated word that stands to be voted is voted; Fethaum reads EVENT of a source that asserts, which clears it, and logs each bit
that it read; an access that a block does not answer in time ends in a bus error and raises ACCESS_TIMEOUT, one that its page's loss of
power cuts short ends in a bus error (R7, R8, R46, R50, R51, R55, R56, R60). -/
def Obligations.AccessesComplete : Prop :=
  ((∀ (s u : State) (m : Master) (addr : BitVec 44) (v : BitVec 32) (page off : Nat), regAddr addr.toNat 32 = some (page, off) →
    regPut s m page off v.toNat = (u, true) → exec (.registerWrite m addr 32 v) s = .next (accepted u)) ∧
  (∀ (s u : State) (m : Master) (addr : BitVec 44) (page off w : Nat), regAddr addr.toNat 32 = some (page, off) →
    regGet s m page off = (u, some w) → exec (.rcRead m addr 32) s = .next { u with resp := .data (BitVec.ofNat 32 w) }) ∧
  (∀ (s : State) (m : Master) (addr : BitVec 44) (v : BitVec 32) (n g o : Nat), isTile m = false → (n = 1 ∨ n = 2 ∨ n = 4) →
    ocAddr s addr.toNat n = some (g, o) →
    exec (.registerWrite m addr (8 * n) v) s = .next (accepted (setCore s g (ocWrite (coreOf s g) o (leBytes n v.toNat)))) ∧
    exec (.rcRead m addr (8 * n)) s = .next { meetOc s g o n with resp := .bytes (ocRead (coreOf s g) o n) }) ∧
  (∀ (s u : State) (m : Master) (addr : BitVec 44) (v : BitVec 32) (b : List Byte) (n : Nat), isTile m = false →
    (n = 1 ∨ n = 2 ∨ n = 4) → addr.toNat + n ≤ bulkEnd →
    (memWrite s addr.toNat (leBytes n v.toNat) = (u, true) → exec (.registerWrite m addr (8 * n) v) s = .next (accepted u)) ∧
    (memRead s addr.toNat n = (u, some b) → exec (.rcRead m addr (8 * n)) s = .next { u with resp := .bytes b })) ∧
  (∀ (s : State) (m : Master) (page : BitVec 12) (b : Block) (vid : BitVec 16) (part : Bool), pageBlock page.toNat = some b →
    Passes s m page.toNat .open →
    exec (.mailboxRead m page vid part) s = .next (accepted (mailboxOp s m b page.toNat vid.toNat part false)) ∧
    exec (.mailboxWrite m page vid) s = .next (accepted (mailboxOp s m b page.toNat vid.toNat false true)) ∧
    exec (.mailboxStage m page vid) s = .next (accepted (mailboxOp s m b page.toNat vid.toNat true true)))) ∧
  ((∀ (s : State) (page : BitVec 12), pageBlock page.toNat ≠ none → exec (.voteScan page) s =
    .next (((s.triple.filter (fun e => e.1 / 4096 == page.toNat)).map (·.1)).foldl voteKey s)) ∧
  (∀ (s : State) (page : BitVec 12), sourceBits s page.toNat ≠ 0 → pageServed s page.toNat = true → modState s ≠ msReset →
    (let bits := (regWord s page.toNat 0x24).toNat
     let details := (List.range 32).filterMap (fun i => if bits.testBit i then some (i, eventDetail s page.toNat i) else none)
     exec (.eventNotify page) s = .next (pumpSession (details.foldl (fun s e => logEntry s page.toNat e.1 0 e.2)
       (setRegWord (noteMismatch s page.toNat bits) page.toNat 0x24 0))))) ∧
  (∀ (s : State) (m : Master) (addr : BitVec 44) (wr : Option (BitVec 32)) (applied : Bool) (page off : Nat),
    regAddr addr.toNat 32 = some (page, off) → reaches m page = true → pageBlock page ≠ none → isTile m = false →
    (let late (u : State) : State :=
       pageTimeout (busError (raise u 0 evManagerAccessTimeout) m (regBase + 4096 * page + off) wr.isSome) page
     (pageServed s page = true → (wr = none ∨ applied = false) → exec (.accessTimeout m addr wr applied none) s = .next (late s)) ∧
     (∀ v, pageServed s page = true → wr = some v → applied = true →
       exec (.accessTimeout m addr wr applied none) s = .next (late (regPut s m page off v.toNat).1)) ∧
     (pageServed s page = false → (wr = none ∨ applied = false) →
       exec (.accessTimeout m addr wr applied none) s = .next (busError s m (regBase + 4096 * page + off) wr.isSome)))))

/-- The action rows of the update units, the checkpoint store, the transport and the die clocks: a master that passes the guard of a served
page starts the action, and it is done; an action of an array that still runs is ACTION_BUSY. The action rows of cores, dispatchers and
ports: ACC_INV acts on the arrays that it names, CODE_FLUSH forgets the resident image, FAIL_POP takes the oldest failure record off, a port
retrains, resets or starts its re-plan (R131, R159, R208, R262, R267, R274, R312, R356, R357, R371, R379, R382, R390, R391, R394, R418). -/
def Obligations.BlockActionsComplete : Prop :=
  ((∀ (s : State) (m : Master) (d : DieId), Passes s m (pgUpd d) .guarded →
    exec (.updAbort m d) s = .next (accepted (abortUpd (unvoted s (pgUpd d) 0x104) d)) ∧
    exec (.updResume m d) s = .next (accepted (resumeUpd (unvoted s (pgUpd d) 0x104) d)) ∧
    exec (.updDiscard m d) s = .next (accepted (discardUpd (unvoted s (pgUpd d) 0x104) d))) ∧
  (∀ (s : State) (m : Master), Passes s m 9 .guarded →
    (s.store.asked = false → exec (.trigger m) s = .next (accepted (triggerClutch (unvoted s 9 0x108)))) ∧
    exec (.captureAbort m) s = .next (accepted (abortClutch (unvoted s 9 0x108) 4))) ∧
  (∀ (s : State) (m : Master), Passes s m 0xA .guarded →
    (flag s 0xA stStore2Restoring = false → exec (.restore m) s = .next (accepted (startRestore (unvoted s 0xA 0x100)))) ∧
    exec (.restoreAbort m) s = .next (accepted (abortRestore (unvoted s 0xA 0x100)))) ∧
  (∀ (s : State) (m : Master), Passes s m 0xB .guarded →
    (s.store.xfer = none →
      (let v := wideVal s 0xB wXferSel
       exec (.exportClutch m) s = .next (accepted (startExport (unvoted s 0xB 0x100) (wideWord v 0) (wideWord v 1 % 2 ^ 15))) ∧
       exec (.importClutch m) s = .next (accepted (startImport (unvoted s 0xB 0x100) (wideWord v 0) (wideWord v 1 % 2 ^ 15))))) ∧
    exec (.xferAbort m) s = .next (accepted (abortXfer (unvoted s 0xB 0x100)))) ∧
  (∀ (s : State) (m : Master), Passes s m 0x30 .guarded →
    exec (.collAbort m) s = .next (accepted (abortColls (unvoted s 0x30 0x10C)))) ∧
  (∀ (s : State) (m : Master) (d : DieId), Passes s m (pgDie d) .guarded → replanTaken s d = false →
    exec (.replan m d) s = .next (accepted (requestReplan (unvoted s (pgDie d) 0x240) d)))) ∧
  ((∀ (s : State) (m : Master) (g : CoreId) (arrays : BitVec 4), Passes s m (pgCore g) .open →
    exec (.accInv m g arrays) s = .next (accepted ((List.range 4).foldl (fun u a =>
      if !(arrays.getLsbD a) then u
      else if (coreOf u g).invWait.any (fun e => e.1 == a) then raise u (pgCore g) evCommonActionBusy
      else invArray u g a) (unvoted s (pgCore g) 0x220)))) ∧
  (∀ (s : State) (m : Master) (g : CoreId), Passes s m (pgCore g) .guarded →
    exec (.codeFlush m g) s = .next (accepted (setCore (unvoted s (pgCore g) 0x118) g { coreOf s g with flush := true }))) ∧
  (∀ (s : State) (m : Master) (d : DieId), Passes s m (pgDisp d) .open →
    exec (.failPop m d) s = .next (accepted (setDisp (unvoted s (pgDisp d) 0x114) d
      { dispOf s d with failures := (dispOf s d).failures.tail }))) ∧
  (∀ (s : State) (m : Master) (p : PortId), Passes s m (pgPort p) .guarded →
    (portRetraining s p = false → exec (.retrain m p) s = .next (accepted (retrainEffect (unvoted s (pgPort p) 0x10C) p))) ∧
    exec (.portReset m p) s = .next (accepted (portResetEffect (unvoted s (pgPort p) 0x10C) p)) ∧
    ((portOf s p).replanLanes = [] →
      exec (.portReplan m p) s = .next (accepted (portReplanEffect (unvoted s (pgPort p) 0x10C) p)))))

/-- The action rows of the manager's page: dies sleep and wake, the module enters and leaves standby and resets, warm or whole. The action
rows of the security page: with the presence window open the security version is committed, a slot that does not run is erased and, from
any master, the window is closed. The rows that write an action beside settings keep the settings: a module joins, opens or closes
joining, trips are cleared, and a port is enabled or disabled (R261, R290, R291, R445, R491, R492, R493, R503, R504, R508). -/
def Obligations.ModuleActionsComplete : Prop :=
  ((∀ (s : State) (m : Master) (d : DieId) (lost : List (Nat × Nat)), Passes s m 0 .guarded →
    exec (.dieSleep m d) s = .next (accepted (sleepAction (unvoted s 0 0x100) d)) ∧
    exec (.dieWake m d lost) s = .next (accepted (wakeAction s d lost))) ∧
  (∀ (s : State) (m : Master), Passes s m 0 .guarded →
    exec (.standby m) s = .next (accepted (enterStandby (unvoted s 0 0x100) true)) ∧
    (∀ lost, exec (.wake m lost) s = .next (accepted (leaveStandby s lost))) ∧
    exec (.warmReset m) s = .next (accepted (warmReset (unvoted s 0 0x100))) ∧
    exec (.moduleReset m) s = .next (accepted (moduleReset (unvoted s 0 0x100) (liveStraps (unvoted s 0 0x100)) 4)))) ∧
  ((∀ (s : State) (m : Master), Passes s m 2 .presence →
    exec (.svnCommit m) s = .next (accepted (svnCommitEffect (unvoted s 2 0x104))) ∧
    (slotRuns s 0 = false → flag s 9 stStore1Capturing = false →
      exec (.eraseA m) s = .next (accepted (eraseSlot (unvoted s 2 0x104) 0))) ∧
    (slotRuns s 1 = false → flag s 9 stStore1Capturing = false →
      exec (.eraseB m) s = .next (accepted (eraseSlot (unvoted s 2 0x104) 1))) ∧
    (flag s 2 stSecurityJumper = false → exec (.presenceClose m) s =
      .next (accepted (notePresence (setSec (unvoted s 2 0x104) { s.sec with pressUntil := none }))))) ∧
  (∀ (s : State) (m : Master), Passes s m 2 .open → mayAccess s m .presence = false →
    exec (.presenceClose m) s = .next (accepted (guardDenied (guardDenied (guardDenied (closePresence (unvoted s 2 0x104)) 2) 2) 2)))) ∧
  ((∀ (s : State) (m : Master), Passes s m 0x31 .guarded →
    (let u := openJoins (unvoted s 0x31 0x118) (flag s 0x31 fMembershipJoinOpen)
     jstate u ≠ jsJoining → exec (.join m) s = .next (accepted (joinModule u)))) ∧
  (∀ (s : State) (m : Master) (on : Bool), Passes s m 0x31 .guarded →
    exec (.joinOpen m on) s = .next (accepted (openJoins (unvoted s 0x31 0x118) on))) ∧
  (∀ (s : State) (m : Master), Passes s m 5 .guarded →
    (let p := fld s 5 fThermalRotPeriod
     let d := fld s 5 fThermalRotDuty
     1 ≤ p → p ≤ 100 → 4 ≤ d → exec (.tripClear m) s =
       .next (accepted (tripClear (setFld (setFld (unvoted s 5 0x104) 5 fThermalRotPeriod p) 5 fThermalRotDuty d))))) ∧
  (∀ (s : State) (m : Master) (p : PortId) (on : Bool), Passes s m (pgPort p) .guarded →
    (let put (u : State) (f : FieldDef) : State := setFld u (pgPort p) f (fld s (pgPort p) f)
     let u := loopbackEffect (put (portEnableEffect (setFld (unvoted s (pgPort p) 0x100) (pgPort p) fPortEnable (bit01 on)) p on)
       fPortLoopback) p (flag s (pgPort p) fPortLoopback)
     let v := if flag s (pgPort p) fPortTimeUpstream = false ∧ flag u (pgPort p) fPortTimeUpstream = true then unfollow u else u
     (fld s (pgPort p) fPortTimeUpstream = 0 ∨ ∀ q, q < 16 → q ≠ p.val → flag u (pgPort q) fPortTimeUpstream = false) →
     1 ≤ fld s (pgPort p) fPortNarrowMin → fld s (pgPort p) fPortNarrowMin ≤ 8 → 1 ≤ fld s (pgPort p) fPortReplayLimit →
     exec (.portEnable m p on) s = .next (accepted (put (put (put (put v fPortTimeUpstream) fPortSwapEn) fPortNarrowMin) fPortReplayLimit)))))

/-- The rows that write a mailbox value: beside the registers of the mailbox itself, the block takes the value. ROUTE with bit 31 sets the
route of a module identifier and selects it, and without it selects it for reading; RANKSET defines a rank set through the list in memory;
FENCE fences a core in service, or asks for one that was fenced by command to come back (R192, R210, R248, R297, R313, R316, R327, R337,
R343, R467). -/
def Obligations.MailboxCommandsComplete : Prop :=
  ((∀ (s : State) (m : Master) (d : DieId) (a : BitVec 64), Passes s m (pgDisp d) .open →
    ∃ u, RegsOnly s u ∧ exec (.submit m d a) s =
      .next (accepted (submitRecord (setWide u (pgDisp d) wSubmit (wideOf (twoWords a))) d a.toNat))) ∧
  (∀ (s : State) (m : Master) (d : DieId) (c t a r : BitVec 64), Passes s m (pgDisp d) .open →
    ∃ u, RegsOnly s u ∧ exec (.watchArm m d c t a r) s = .next (accepted (armWatch
      (setWide u (pgDisp d) wWatchArm (wideOf (twoWords c ++ twoWords t ++ twoWords a ++ twoWords r))) d c.toNat t a.toNat r.toNat))) ∧
  (∀ (s : State) (m : Master) (a : BitVec 64), Passes s m 0x30 .open →
    ∃ u, RegsOnly s u ∧ exec (.collArm m a) s = .next (accepted (armColl (setWide u 0x30 wCollArm (wideOf (twoWords a))) a.toNat))) ∧
  (∀ (s : State) (m : Master) (d : DieId) (a : BitVec 64), Passes s m (pgDie d) .guarded →
    (∃ u, RegsOnly s u ∧ exec (.ledgerArm m d a) s =
      .next (accepted (armLedger (setWide u (pgDie d) wLedgerArm (wideOf (twoWords a))) d a.toNat))) ∧
    (∃ u, RegsOnly s u ∧ exec (.gateAdd m d a) s =
      .next (accepted (gateAdd (setWide u (pgDie d) wGateAdd (wideOf (twoWords a))) d a.toNat)))) ∧
  (∀ (s : State) (m : Master) (d : DieId) (a : BitVec 64), Passes s m (pgUpd d) .guarded →
    ∃ u, RegsOnly s u ∧ exec (.updArm m d a) s =
      .next (accepted (armUpd (setWide u (pgUpd d) wUpdArm (wideOf (twoWords a))) d a.toNat))) ∧
  (∀ (s : State) (m : Master) (a : BitVec 64), Passes s m 0x50 .open →
    ∃ u v, RegsOnly (setWide s 0x50 wAddrProbe (wideOf (twoWords a))) u ∧ RegsOnly u v ∧
      exec (.addrProbe m a) s = .next (accepted v) ∧
      ∀ i, i < 4 → mbxWord v 0x50 i = wideWord (presentWide u .interleave 0x50 wAddrProbe) i)) ∧
  ((∀ (s : State) (m : Master) (w0 w1 : BitVec 32), Passes s m 0x30 .guarded →
    ∃ u, RegsOnly s u ∧
      (w0.getLsbD 31 = true → bitsOf w1.toNat 10 6 = 0 →
        (let r := setRoute u (w0.setWidth 16) (w1.setWidth 16)
         exec (.route m w0 w1) s = .next (accepted (setNet r { r.net with routeSel := w0.toNat % 2 ^ 16 })))) ∧
      (w0.getLsbD 31 = false → exec (.route m w0 w1) s = .next (accepted (setNet u { s.net with routeSel := w0.toNat % 2 ^ 16 })))) ∧
  (∀ (s : State) (m : Master) (w0 w1 w2 w3 : BitVec 32), Passes s m 0x31 .guarded →
    ∃ u, RegsOnly s u ∧
      (let k := w0.toNat % 256
       let a := w1.toNat + w2.toNat * 2 ^ 32
       let n := w3.toNat % 2 ^ 15
       k ≠ 0 → a % 2 = 0 → n ≠ 0 → n ≤ 16384 → s.net.colls.any (fun c => c.desc.rankset == k) = false →
         (∀ v b, memRead u a (2 * n) = (v, some b) →
           exec (.rankset m w0 w1 w2 w3) s = .next (accepted (setWide (setNet v { v.net with
             ranksets := mapPut k ((List.range n).map (fun i => leNat ((b.drop (2 * i)).take 2) % 2 ^ 15)) v.net.ranksets })
             0x31 wRankset (wideOf [w0.toNat, w1.toNat, w2.toNat, w3.toNat])))) ∧
         (s.mem.flips = [] → s.mem.poison = [] → rangeReachable s a (2 * n) = true →
           memRead u a (2 * n) = (u, some ((List.range (2 * n)).map (fun i => memByte s.mem (a + i))))))) ∧
  (∀ (s : State) (m : Master) (w0 w1 : BitVec 32), Passes s m 6 .guarded →
    ∃ u, RegsOnly s u ∧
      (let g := w0.toNat % 2 ^ 11
       let v := setWide u 6 wFence (wideOf [w0.toNat % 2 ^ 17, 0])
       g < 1216 →
         (w0.getLsbD 16 = false → coreState s g = 0 → exec (.fence m w0 w1) s = .next (accepted (fenceCore v g 7))) ∧
         (w0.getLsbD 16 = true → coreState s g = 3 → coreCause s g = 7 →
           exec (.fence m w0 w1) s = .next (accepted (askCore v ⟨g, true⟩))))))

/-- Joining: a joining module asks again every 10 ms; the group manager answers a request; an answer of 0 or 1 makes the module a member or a
standby with its rank and epoch, another one leaves it unjoined with JOIN_REFUSED. The membership table: an update that is whole is taken,
a part of one is kept; the manager answers a member's request for the table; at its bell the first update in line comes into force with
its epoch. Heartbeats: a member hears its manager, the manager hears a member; at its period a module sends its own; a member that the
manager has not heard for its limit is lost and replaced, a manager that a member has not heard is lost (R291, R292, R293). -/
def Obligations.MembershipCompletes : Prop :=
  ((∀ (s : State) (t : Nat), s.net.joinSent = some t → jstate s = jsJoining → t + 10000000 ≤ now s →
    exec .joinRetry s = .next (sendJoin s)) ∧
  (∀ (s : State) (pk : Packet), Arrives s pk kJoinReq → joinReqOk pk = true →
    (let u := takeInbox s pk
     (jstate u = jsManager → exec (.joinReq pk) s = .next (answerJoin u pk)) ∧
     (jstate u ≠ jsManager → strapRole u = 0 → exec (.joinReq pk) s = .next (sendJoinResp u pk.src 2 0)) ∧
     (jstate u ≠ jsManager → strapRole u = 2 → exec (.joinReq pk) s = .next (sendJoinResp u pk.src 7 0)))) ∧
  (∀ (s : State) (pk : Packet), pk.kind.toNat = kJoinReq → forMe s pk = false → packetOk pk = true →
    exec (.joinReq pk) s = exec (.packetForward pk) s) ∧
  (∀ (s : State) (pk : Packet), Arrives s pk kJoinResp → pk.len = 0 → pk.ctx = 0 → pk.addr.toNat < 2 ^ 16 → bitsOf pk.aux.toNat 8 8 = 0 →
    pk.aux.toNat < 2 ^ 31 → jstate (takeInbox s pk) = jsJoining →
    (let code := bitsOf pk.aux.toNat 0 8
     let u := setFld (setNet (takeInbox s pk) { (takeInbox s pk).net with joinSent := none }) 0x31 fMembershipJoinResult code
     (code ≤ 1 →
       (let v := setFld (setFld u 0x31 fMembershipRank (bitsOf pk.aux.toNat 16 15)) 0x31 fMembershipEpoch pk.addr.toNat
        let w := setFld v 0x31 stMembershipJstate (if code = 0 then jsMember else jsStandby)
        exec (.joinResp pk) s = .next (raise (setFlag (setNet w { w.net with gmHeard := now w, hbSent := now w }) 0x31
          stMembershipGmReachable true) 0x31 evMembershipJoined))) ∧
     (2 ≤ code → exec (.joinResp pk) s =
       .next (raise (raiseIf (decide (8 ≤ code)) (setFld u 0x31 stMembershipJstate jsUnjoined) 0x31 evMembershipCtrlBad) 0x31
         evMembershipJoinRefused))))) ∧
  ((∀ (s : State) (pk : Packet), Arrives s pk kMemberUpdate → 1 ≤ pk.len.toNat → pk.ctx = 0 → pk.aux.toNat % 16 = 0 →
    24 ≤ pk.aux.toNat → pk.addr.toNat + pk.payload.length ≤ pk.aux.toNat →
    (let u := takeInbox s pk
     let v := noteApplied u pk.src pk.msgId
     let p := addPart u.net.partUpd pk.aux.toNat pk.addr.toNat pk.payload
     let have' := p.parts.foldl (fun n e => n + e.2) 0
     wasApplied u pk.src pk.msgId = false → holdsRankZero u = false →
     (have' < pk.aux.toNat → exec (.memberUpdate pk) s = .next (setNet v { v.net with partUpd := some p })) ∧
     (pk.aux.toNat ≤ have' → exec (.memberUpdate pk) s =
       .next (takeUpdate (setNet v { v.net with partUpd := none }) (sparseBytes p.bytes 0 pk.aux.toNat))))) ∧
  (∀ (s : State) (pk : Packet), Arrives s pk kMemberSync → pk.len = 0 → pk.ctx = 0 → pk.addr = 0 → pk.aux = 0 →
    (let u := takeInbox s pk
     jstate u = jsManager → (rankIn u (plannedMembers u) pk.src).isSome = true →
     exec (.memberSync pk) s = .next (answerSync u pk.src))) ∧
  (∀ (s : State) (x : MemberUpd) (rest : List MemberUpd), s.net.updates = x :: rest → x.bell ≤ now s →
    (let members := applyEntries s.net.members x
     let s1 := setNet s { s.net with
       members := members, updates := rest, early := [], barriers := [],
       heard := (x.entries.filter (fun e => entryState e.2 = 1 ∨ entryState e.2 = 2)).foldl
         (fun m e => if mapHas (entryId e.2).toNat m then m else mapPut (entryId e.2).toNat (now s) m) s.net.heard }
     let s2 := x.routes.foldl (fun s r => setRoute s r.1 r.2) (if x.full then setNet s1 { s1.net with routes := [] } else s1)
     let s3 := chooseUpstream (takeOwnEntry (setCounts (raise (setFld s2 0x31 fMembershipEpoch x.epoch.toNat) 0x31 evMembershipEpochChanged)))
     let s4 := abortChanged s3 (changedRanks x s.net.members members)
     let s5 := if s4.store.capture.isSome then abortClutch s4 (if x.entries.any (fun e => entryState e.2 = 3) then 1 else 2) else s4
     exec .epochApply s = .next (afterEpoch ((s5.net.waiting.map (·.1)).foldl sendArrival s5) x)))) ∧
  ((∀ (s : State) (pk : Packet), Arrives s pk kHeartbeat → (pk.len = 0 ∨ pk.len = 4 ∧ reportsOk (readReports pk.payload) = true) →
    pk.ctx = 0 → pk.addr = 0 → pk.aux.toNat < 16 →
    (let u := takeInbox s pk
     let v := setNet u { u.net with heard := mapPut pk.src.toNat (now u) u.net.heard }
     let l := readReports pk.payload
     (jstate u = jsManager → (rankIn u u.net.members pk.src).isSome = true →
       (pk.len = 0 ∨ reportsFor u.net.reportsOf pk.src.toNat = l → exec (.heartbeat pk) s = .next v) ∧
       (pk.len = 4 → reportsFor u.net.reportsOf pk.src.toNat ≠ l → exec (.heartbeat pk) s =
         .next (issueUpdate v [] (mapSet (fun _ => ([] : List (BitVec 32))) pk.src.toNat l v.net.reportsOf) none))) ∧
     (isMember u = true → pk.src = gmId u → exec (.heartbeat pk) s =
       .next (setFlag (setNet u { u.net with
         gmHeard := now u, gmLost := none, hops := fld u 0x30 fTransportTtlInit + 1 - pk.ttl.toNat }) 0x31
         stMembershipGmReachable true)))) ∧
  (∀ s : State, s.net.hbSent + hbTicks s ≤ now s → isMember s = true →
    (let body := if s.net.reportsDirty then ((portReports s).map (fun w => leBytes 4 w.toNat)).flatten else []
     let u := setNet s { s.net with hbSent := now s, reportsDirty := false }
     exec .heartbeatTx s = .next (sendControl u (gmId u) kHeartbeat 0 0 (jstate u) body))) ∧
  (∀ s : State, s.net.hbSent + hbTicks s ≤ now s → jstate s = jsManager →
    (let v := if s.net.reportsDirty then issueUpdate s [] s.net.reportsOf none else s
     let u := setNet v { v.net with hbSent := now v }
     exec .heartbeatTx s = .next ((otherMembers u u.net.members).foldl (fun w m => sendControl w m kHeartbeat 0 0 (jstate w) []) u))) ∧
  (∀ (s : State) (r : Fin 16640), jstate s = jsManager → r.val ≠ 0 →
    (let e := memberEntry s r
     let p := entryIn s (plannedMembers s) r
     (entryState e = 1 ∨ entryState e = 2) → mapGet (fun _ => now s) (entryId e).toNat s.net.heard + hbLimit s ≤ now s →
     (entryState p = 1 ∨ entryState p = 2) → entryId p = entryId e →
     (let u := raise s 0x31 evMembershipMemberLost
      let q := replaceHolder u r (entryId e)
      (16384 ≤ r.val →
        exec (.memberLost r) s = .next (issueUpdate u q.1 (mapErase (entryId e).toNat u.net.reportsOf) none)) ∧
      (r.val < 16384 →
        (let l : LostRank := ⟨r.val, q.2, max (latestClutch u) (previousClutch u), false, groupStripes u⟩
         let v := abortRestore (abortClutch (setStore u { u.store with lost := u.store.lost.filter (fun x => x.rank != r.val) ++ [l] }) 1)
         let w := if groupStripes u = true ∧ q.2 = 0 then setFlag v 0xA stStore2WaitStandby true else v
         exec (.memberLost r) s = .next (issueUpdate w q.1 (mapErase (entryId e).toNat w.net.reportsOf) none)))))) ∧
  (∀ s : State, isMember s = true → s.net.gmLost = none → s.net.gmHeard + hbLimit s ≤ now s →
    exec .gmLost s = .next (raise (setFlag (unfollow (setNet s { s.net with gmLost := some (now s) })) 0x31 stMembershipGmReachable false)
      0x31 evMembershipGmLost)))

/-- An awake die runs the first ledger whose counter has reached its target; its update unit prepares an armed update, commits its sub-shards
round by round, and looks again at what a stream is owed (R328, R347, R351, R353). -/
def Obligations.UpdateUnitsComplete : Prop :=
  (∀ (s : State) (d : DieId) (l : Ledger), dieAwake s d = true → (ledgersOf s d).find? (·.started) = some l →
    exec (.ledgerCheckRun d) s = .next (runLedger s d l)) ∧
  (∀ (s : State) (d : DieId) (a : UpdDesc), dieAwake s d = true → (updOf s d).run = none → flag s (pgUpd d) fUpdateEnable = true →
    (updOf s d).armed.find? (·.started) = some a →
    (let x : UpdRun := ⟨a, .prepare, false, dieStep s d, 0, 0, [], [], [], 0, 0, 0, none, none, dieKey s d, none⟩
     exec (.updatePrepare d) s = .next (prepareUpd (setUpd s d { updOf s d with armed := (updOf s d).armed.erase a, run := some x }) d x))) ∧
  (∀ (s : State) (d : DieId) (x : UpdRun), dieAwake s d = true → (updOf s d).run = some x → x.phase = .prepare → x.held = false →
    exec (.updatePrepare d) s = .next (prepareUpd s d x)) ∧
  (∀ (s : State) (d : DieId) (x : UpdRun), dieAwake s d = true → (updOf s d).run = some x → x.phase ≠ .prepare → x.held = false →
    x.waiting = none → exec (.subshardCommit d) s = .next (subshardRound s d x)) ∧
  (∀ (s : State) (d : DieId) (x : UpdRun) (t : Nat), dieAwake s d = true → (updOf s d).run = some x → x.waiting = some t →
    t + 10000 ≤ now s →
    (let n := (now s - t) / 1024
     let r := memReadNat (bumpBy s (pgUpd d) fUpdateOwedWaitCount n) x.desc.state 256
     (∀ v, r.2 = some v → exec (.owedRecheck d) s = .next (setUpd r.1 d { updOf r.1 d with run := some { x with
       waiting := if (readStateRec v).streamed < (readStateRec v).owed then some (t + 1024 * n) else none } })) ∧
     (r.2 = none → exec (.owedRecheck d) s = .next (failUpd r.1 d x))))

/-- The life of a clutch on a member: the period makes one due; RISK and CLUTCH_START are taken; at the capture bell the shards are marked
and counted, then streamed one by one, the one that an update waits for first, one that an update is committing only after that. Parity,
counts and the end of a clutch: contributions and counts are taken by the positions they go to, units are written when all is there, the
manager commits or aborts and every member follows (R371, R372, R375, R376, R377, R379). -/
def Obligations.ClutchesComplete : Prop :=
  ((∀ (s : State) (t : Nat), s.store.lastBell = some t → holdsRankZero s = true → flag s 9 fStore1AutoEn = true → s.store.capture = none →
    t + fld s 9 fStore1ClutchPeriod * 1000000000 ≤ now s → exec .clutchPeriodExpiry s = .next (setStore s { s.store with due := true })) ∧
  (∀ (s : State) (pk : Packet), Arrives s pk kCheckpoint → ckSub pk = 8 → pk.len = 0 → pk.addr = 0 → ckHi pk < 2 ^ 8 →
    exec (.risk pk) s = .next (takeRisk (takeInbox s pk) (ckHi pk))) ∧
  (∀ (s : State) (pk : Packet), Arrives s pk kCheckpoint → ckSub pk = 1 → pk.len = 1 → pk.addr = 0 → ckHi pk = 0 → payNat pk 5 1 = 0 →
    payNat pk 10 2 = 0 →
    (let u := takeInbox s pk
     (payNat pk 12 4 = 0 → u.store.capture = none → exec (.clutchStart pk) s =
       .next (takeStart u (payNat pk 0 4) (payNat pk 4 1) (payNat pk 6 2) (BitVec.ofNat 16 (payNat pk 8 2)))) ∧
     (∀ c, payNat pk 12 4 ≠ 0 → u.store.capture = some c → c.num = payNat pk 0 4 →
       exec (.clutchStart pk) s = .next (takeU u (payNat pk 12 4))))) ∧
  (∀ (s : State) (c : Capture) (t : Nat), s.store.capture = some c → c.bell = some t → t ≤ now s → c.begun = false →
    (let h := setHealth s { s.health with jobCores := serviceable s }
     let u := setClutch h c.num { clutchOf h c.num with bell := t, step := fld h (pgDie 0) fWorkerDieStep - 1 }
     let states := (catalogue u).map (·.state)
     let v := states.foldl (fun x a => if committing x a then x else (memWrite x (a + 0x84) (leBytes 4 c.num)).1) u
     let p := plainRecords v { c with begun := true, todo := List.range states.length, later := states.filter (committing v) }
     let own := unitsOf ((catalogue p.1).foldl (fun n e => n + shardLen p.1 e) p.2.len)
     let held := (myPos p.1).map (fun pos => ((List.range own).map (fun r => (parityOf c.n c.k c.g r pos).length)).sum)
     let noRoom := !(readOnly p.1) && decide (freeSlots p.1 < own + (if hasParity c.n then held.getD 0 else 0))
     (capturesHere u = false → exec .captureBell s = .next (setCapture u { c with begun := true })) ∧
     (capturesHere u = true → exec .captureBell s =
       .next (toGm (setFlag (setCapture p.1 p.2) 9 stStore1Streaming (decide (p.2.todo ≠ []))) c.num 4 own (if noRoom then 1 else 0)
         (fun x => takeCount x 0 own noRoom))))) ∧
  (∀ (s : State) (c : Capture) (i : Nat) (e : CatEntry), s.store.capture = some c → c.begun = true → (catalogue s)[i]? = some e →
    (let due := c.todo.filter (fun i => !((catalogue s)[i]?.any (fun e => c.later.contains e.state)))
     let p := streamShard s c e
     let u := (memWrite (memWrite p.1 (e.state + 0x88) (leBytes 4 c.num)).1 (e.state + 0x8C) (leBytes 4 0)).1
     let todo := c.todo.filter (· != i)
     let v := setCapture u { p.2 with todo := todo }
     (due.find? (streamAsked s) = some i ∨ due.find? (streamAsked s) = none ∧ due.head? = some i) →
       exec .shardStream s = .next (trySend (if todo = [] then setFlag v 9 stStore1Streaming false else v))))) ∧
  ((∀ (s : State) (pk : Packet), Arrives s pk kCheckpoint → contributionOk pk = true →
    (ckSub pk = 2 → exec (.unitP pk) s = .next (takeContribution (takeInbox s pk) pk false)) ∧
    (ckSub pk = 3 → exec (.unitQ pk) s = .next (takeContribution (takeInbox s pk) pk true))) ∧
  (∀ (s : State) (pk : Packet) (c : Capture) (r : Nat), Arrives s pk kCheckpoint → pk.len = 0 →
    (let u := takeInbox s pk
     captureOf u pk.ctx = some c → rankOf u pk.src = some r → holdsRankZero u = true →
     (ckSub pk = 4 → ckHi pk < 2 → exec (.unitCount pk) s = .next (takeCount u r pk.addr.toNat (decide (ckHi pk = 1)))) ∧
     (ckSub pk = 5 → ckHi pk = 0 → exec (.secured pk) s =
       .next (takeSecured u r (bitsOf pk.addr.toNat 0 32) (bitsOf pk.addr.toNat 32 32))))) ∧
  (∀ (s : State) (pk : Packet) (c : Capture), Arrives s pk kCheckpoint → pk.len = 0 → pk.addr = 0 →
    (let u := takeInbox s pk
     captureOf u pk.ctx = some c →
     (ckSub pk = 6 → ckHi pk = 0 → exec (.clutchCommit pk) s = .next (commitHere u c.num)) ∧
     (ckSub pk = 7 → ckHi pk < 2 ^ 8 → exec (.clutchAbort pk) s = .next (failHere u (ckHi pk))))) ∧
  (∀ (s : State) (lost : List (Nat × Nat)) (c : Capture) (pos : Nat), s.store.capture = some c → myPos s = some pos →
    readyToWrite s c = true → readOnly s = true →
    (let u := setCapture (setClutch s c.num { clutchOf s c.num with own := 0, parity := 0 }) { c with written := true }
     exec (.unitWritten lost) s = .next (toGm u c.num 5 0 0 (fun s => takeSecured s 0 0 0)))) ∧
  (∀ (s : State) (lost : List (Nat × Nat)) (c : Capture) (pos : Nat), s.store.capture = some c → myPos s = some pos →
    readyToWrite s c = true → readOnly s = false →
    (let own := unitsOf c.len
     let parity := if hasParity c.n then (heldParity c (c.u.getD 0) pos).filter (fun a =>
       decide (a.zero.length < stripeData c.n c.k a.stripe)) else []
     let v := (List.range own).foldl (fun x r =>
       writeUnit x c.num 0 r 0 (unitOf c.stream r) (c.bad.contains r || lost.contains (0, r))) s
     let w := parity.foldl (fun x a => writeUnit x c.num (if a.q then 2 else 1) a.round a.stripe a.data
       (lost.contains ((if a.q then 2 else 1), a.round))) v
     let u := setCapture (setClutch w c.num { clutchOf w c.num with own := own, parity := parity.length }) { c with written := true }
     exec (.unitWritten lost) s =
       .next (toGm u c.num 5 (own + parity.length * 2 ^ 32) 0 (fun x => takeSecured x 0 own parity.length)))))

/-- Restores: a start is taken with its lost ranks; at its bell the machine is quiet and the units are read, or the import finished; a rebuild
request at the head of its chain sends its unit and one further down waits; a part and a result are taken; protection is restored unit by
unit; a member whose manager stays lost leaves the group (R382, R385, R386, R388). -/
def Obligations.RestoreCompletes : Prop :=
  (∀ (s : State) (pk : Packet), Arrives s pk kCheckpoint → ckSub pk = 9 → pk.len.toNat = 1 + (payNat pk 4 2 + 3) / 4 → pk.addr = 0 →
    ckHi pk < 2 → payNat pk 6 2 = 0 →
    exec (.restoreStart pk) s = .next (takeRestore (takeInbox s pk) (payNat pk 0 4) (payNat pk 8 8) (ckHi pk)
      ((List.range (payNat pk 4 2)).map (fun i => (payNat pk (16 + 4 * i) 2, BitVec.ofNat 16 (payNat pk (18 + 4 * i) 2)))) false)) ∧
  (∀ (s : State) (r : Restore), s.store.restore = some r → r.begun = false → r.ended = false → r.bell ≤ now s →
    (let u := setStore (quiesce s) { (quiesce s).store with restore := some { r with begun := true } }
     (r.source = 0 → exec .restoreBell s = .next (readOwnUnits u)) ∧
     (r.source ≠ 0 → exec .restoreBell s = .next (finishImport u)))) ∧
  (∀ (s : State) (pk : Packet), Arrives s pk kCheckpoint → ckSub pk = 12 → ckHi pk < 2 ^ 8 → pk.len.toNat = 1 + (ckHi pk + 3) / 4 →
    ckOff pk = 0 → pk.addr.toNat < 2 ^ 44 →
    (let u := takeInbox s pk
     let chain := (List.range (ckHi pk)).map (fun i => (payNat pk (16 + 4 * i) 2, payNat pk (18 + 4 * i) 1, payNat pk (19 + 4 * i) 1))
     let q : ChainReq := { holder := pk.src, clutch := pk.ctx, rank := payNat pk 0 2, round := ckRound pk, chain := chain }
     chain.all (fun e => decide (e.2.2 ≤ 2)) = true →
     (∀ m, chainPlace u q = some 0 → contributedUnit u q (chain.getD 0 (0, 0, 0)).2.2 = some m →
       exec (.rebuildReq pk) s = .next ((List.range unitPackets).foldl
         (fun s i => sendPart s q 0 i (scaleUnit (chain.getD 0 (0, 0, 0)).2.1 (unitPart m (4096 * i)))) u)) ∧
     (∀ k, chainPlace u q = some (k + 1) → exec (.rebuildReq pk) s = .next (u.store.early.foldl takePart
       (setStore u { u.store with requests := u.store.requests ++ [q], early := [] }))))) ∧
  (∀ (s : State) (pk : Packet), Arrives s pk kCheckpoint → ckSub pk = 10 → pk.len = 256 → pk.addr.toNat < 2 ^ 44 → ckOff pk % 4096 = 0 →
    ckHi pk < 2 ^ 8 → exec (.rebuildPart pk) s = .next (takePart (takeInbox s pk) pk)) ∧
  (∀ (s : State) (pk : Packet) (r : Restore) (rank : Nat), Arrives s pk kCheckpoint → ckSub pk = 11 → pk.len = 0 → pk.addr = 0 →
    ckHi pk < 2 ^ 8 →
    (let u := takeInbox s pk
     u.store.restore = some r → rankOf u pk.src = some rank → holdsRankZero u = true → BitVec.ofNat 16 r.clutch = pk.ctx →
     exec (.restoreDone pk) s = .next (takeRestoreResult u rank (ckHi pk)))) ∧
  (∀ (s u : State) (x : Nat × Nat × Nat × Nat × Nat) (rest : List (Nat × Nat × Nat × Nat × Nat)),
    flag s 0xA stStore2Reprotecting = true → s.store.rebuild = none → flag s 0xA stStore2Restoring = false → s.store.reprotect = x :: rest →
    (startRebuild s x.1 x.2.1 x.2.2.1 x.2.2.2.1 x.2.2.2.2 = (u, true) → exec .reprotect s = .next u) ∧
    (startRebuild s x.1 x.2.1 x.2.2.1 x.2.2.2.1 x.2.2.2.2 = (u, false) →
      exec .reprotect s = .next (setStore s { s.store with reprotect := rest }))) ∧
  (∀ (s : State) (t : Nat), s.net.gmLost = some t → t + fld s 0xA fStore2GmWait * 1000000000 ≤ now s →
    (let u := setFld (endJob s) 0x31 stMembershipJstate jsUnjoined
     exec .gmWaitExpiry s = .next (setNet u { u.net with gmLost := none })))

/-- The flash array: a block that is due is refreshed, moved to a fresh block or, in the system area, written anew in place and counted; wear
levelling moves the least worn block in use; a block that failed is retired; a die fails (R366, R367, R368, R369). -/
def Obligations.FlashMaintenanceCompletes : Prop :=
  (∀ (s : State) (die : FlashDie) (b : Fin 9936) (why : RefreshCause), flag s 8 fStore0RefreshEn = true → (flashOf s die).failed = false →
    holdsData s die b = true →
    ((∃ n, why = .age n ∧ fld s 8 fStore0RefreshDays < n) ∨ (∃ n, why = .corrected n ∧ 60 < n)) →
    (8944 ≤ b.val → b.val < 9240 →
      (let u := eraseBlock s die b
       exec (.flashRefresh die b why) s = .next (bump (setFlash u die { flashOf u die with
         programmed := mapPut b (now u) (flashOf u die).programmed }) 8 fStore0RefreshCount))) ∧
    (∀ c, (b.val < 8944 ∨ 9240 ≤ b.val) → readOnly s = false → newBlock s die = some c →
      exec (.flashRefresh die b why) s = .next (bump (moveBlock s die b c) 8 fStore0RefreshCount))) ∧
  (∀ (s : State) (die : FlashDie) (b c low : Nat),
    (let f := flashOf s die
     let blocks := usableBlocks f
     let top := blocks.foldl (fun m b => max m (erasesOf f b)) 0
     leastBy (erasesOf f) (blocks.filter (fun b => !(blockUnits s die b).isEmpty)) = some b →
     leastBy (fun b => top - erasesOf f b) (freeBlocks s die) = some c → leastBy (erasesOf f) blocks = some low →
     f.failed = false → readOnly s = false → erasesOf f low + 1000 < top → exec (.wearLevel die) s = .next (moveBlock s die b c))) ∧
  (∀ (s : State) (die : FlashDie) (b : Fin 9936) (why : RetireCause) (ok : Bool), (flashOf s die).failed = false →
    mapHas b.val (flashOf s die).retired = false →
    (why = .programOrErase → exec (.blockRetire die b why ok) s = .next (retireBlock s die b ok false)) ∧
    (∀ n, why = .corrected n → 90 < n → exec (.blockRetire die b why ok) s = .next (retireBlock s die b ok false)) ∧
    (why = .eraseCount → 40000 ≤ erasesOf (flashOf s die) b → exec (.blockRetire die b why ok) s = .next (retireBlock s die b ok true))) ∧
  (∀ (s : State) (die : FlashDie), (flashOf s die).failed = false → exec (.flashDieFail die) s = .next (failFlash s die))

/-- At its bell a pending code is stepped to; a droop stretches the ward's clock, is counted, and the eighth trip asks for a request, which a
release takes back; margin readings are judged; a lost PLL fails its domain. A die that is due is put in line for a margin re-plan, ten
seconds after its start or when its interval is over; the run takes its readings one by one (R398, R399, R400, R405, R409). -/
def Obligations.ClocksComplete : Prop :=
  ((∀ s : State, (∀ p, s.power.pend = some p → p.bell ≤ now s → exec .freqStep s = .next (stepFreq s p.code))) ∧
  (∀ (s : State) (w : WardId), wardRuns s w = true →
    (let u := setFlag s (pgWard w) stWardStretching true
     (flag u (pgWard w) fWardStretchEn = true → exec (.droopTrip w) s =
       .next (bump (setWardClk u w { wardClk u w with trips := (wardClk u w).trips + 1 }) (pgWard w) fWardStretchCount)) ∧
     (flag u (pgWard w) fWardStretchEn = false → exec (.droopTrip w) s = .next (droopTaken u w)))) ∧
  (∀ (s : State) (w : WardId), wardRuns s w = true → 8 ≤ (wardClk s w).trips → exec (.droopRequest w) s = .next (droopTaken s w)) ∧
  (∀ (s : State) (w : WardId), exec (.droopRelease w) s =
    .next (setFlag (setWardClk s w { wardClk s w with trips := 0, droop := false }) (pgWard w) stWardStretching false)) ∧
  (∀ (s : State) (w : WardId) (l : List (Option (BitVec 8))), dieAwake s (w / 8) = true →
    (let f := (List.range 8).foldl (fun f r =>
       if !((domFaulty s (.ward w)).getLsbD r) && pathBad l (domFaulty s (.ward w)) r then f ||| BitVec.ofNat 8 (2 ^ r) else f)
         (domFaulty s (.ward w))
     let u := if f = domFaulty s (.ward w) then s else raise (setFaulty s (.ward w) f) (pgWard w) evWardSensorFault
     ∀ g rest, goodReadings l f = g :: rest → bitCount f < 4 →
       (let best := rest.foldl (fun a b => if b.1 < a.1 then b else a) g
        let v := showMargin u w l f best
        exec (.marginWindow (.ward w) l) s =
          .next (if best.1 < fld v (pgWard w) fWardMarginAlarm then lowMargin v (.ward w) best.1 else v)))) ∧
  (∀ (s : State) (k : Fin 74),
    (k.val < 32 → dieAwake s (k.val / 8) = true →
      exec (.pllLockLoss k) s = .next (failWardDomain (setWardClk s k { wardClk s k with stopped := true }) k)) ∧
    (32 ≤ k.val → k.val < 36 → dieAwake s (k.val - 32) = true →
      exec (.pllLockLoss k) s = .next (raise (resetDie s (k.val - 32)) 6 evHealthDomainFailed)) ∧
    (52 ≤ k.val → k.val < 68 → dieAwake s ((k.val - 52) / 4) = true → portState s (k.val - 52) ≠ psOff →
      exec (.pllLockLoss k) s = .next (raise (portDown s (k.val - 52)) 6 evHealthDomainFailed)))) ∧
  ((∀ (s : State) (d : DieId) (t : Nat), mapFind d.val s.clk.started = some t → t + 10 * 1000000000 ≤ now s →
    exec (.replanTimer d) s = .next (requestReplan (setClk s { s.clk with started := mapErase d.val s.clk.started }) d)) ∧
  (∀ (s : State) (d : DieId), mapFind d.val s.clk.started = none → fld s (pgDie d) fWorkerDieReplanDays ≠ 0 →
    mapGet (fun _ => 0) d.val s.clk.lastReplan + fld s (pgDie d) fWorkerDieReplanDays * dayTicks ≤ now s →
    exec (.replanTimer d) s = .next (requestReplan s d)) ∧
  (∀ (s : State) (d : DieId) (x : Replan) (r : ReplanReading), s.clk.run = some x → x.die = d.val → dieAwake s d = true →
    exec (.replanStepDone d r) s = .next (stepReplan s x r)))

/-- Power: a poll of a rail keeps its telemetry; a spare phase is brought in; a measurement of the input power adds energy and moves the cap;
the cap is raised after 100 us below the limit; POWER_LIMIT_L caps the module at once while it is low. The supply: a dip below 42.0 V is
warned of, counted and shown; below the reset level the module goes into reset; after 1 ms of good supply it is over and the module starts
again; above 60.0 V it is reported. The frequency of the group: a module works out what it allows; the manager takes what a member allows;
rank 0 raises the group's code after its hold time; a member keeps a newer code with its bell, and one that is late steps at once with
FREQ_LATE; rails that slew late are reported and confirmed (R420, R421, R423, R424, R425, R426, R427, R430, R431). -/
def Obligations.PowerCompletes : Prop :=
  ((∀ (s : State) (r : Fin 38) (t : RailTelemetry), t.phaseFault = false → t.railFault = false →
    exec (.pmbusPoll r t) s =
      .next (railCap (setRail s r { railOf s r with mv := t.millivolts, deciamps := t.deciamps, temp := t.deciCelsius }) r)) ∧
  (∀ (s : State) (r : Nat) (l : List Nat), s.power.phaseQ = r :: l → (railOf s r).spares ≠ 0 →
    (let u := setPower s { s.power with phaseQ := l }
     let x := railOf u r
     exec .phaseBringIn s = .next (raiseIf (decide (x.spares = 1))
       (spareIn (setRail u r { x with phases := x.phases + 1, spares := x.spares - 1 }) 8 r) 6 evHealthSpareExhausted))) ∧
  (∀ (s : State) (w : Nat), exec (.powerMeasure w) s = .next (capStep (updateLimit (setFld (addEnergy s w) 4 fPowerPIn (min 2047 w))))) ∧
  (∀ (s : State) (t : Nat), s.power.below = some t → s.power.cap < 16 → t + 100000 ≤ now s →
    exec .capRaise s = .next (setCap (setPower s { s.power with below := some (now s) }) (s.power.cap + 1))) ∧
  (∀ s : State, s.sys.resetLow = false → flag s 4 stPowerPlAsserted = false →
    (let u := raise (setFlag s 4 stPowerPlAsserted true) 4 evPowerCapLocal
     exec .powerLimitAssert s = .next (updateLimit (setPower u { u.power with fromCap := true })))) ∧
  (∀ s : State, flag s 4 stPowerPlAsserted = true → exec .powerLimitRelease s = .next (updateLimit (setFlag s 4 stPowerPlAsserted false)))) ∧
  ((∀ (s : State) (v : Nat), v < 420 → flag s 4 stPowerWarnActive = false →
    (let u := setPower s { s.power with dipStart := some (now s), dipLow := v }
     exec (.supplyDip v) s = .next (noteInput (raise (bump (showDip (setFld (setFlag u 4 stPowerWarnActive true) 4 fPowerVIn v) (now u) v
       ((now u - now s) / 1000)) 4 fPowerSupplyWarnCount) 4 evPowerSupplyWarn) 9 1))) ∧
  (∀ s : State,
    (let u := moduleReset { s with sys := { s.sys with supplyLow := true } } (liveStraps s) 3
     exec .supplyReset s = .next (setFlag (setPower u { u.power with
       dipStart := some (s.power.dipStart.getD (now u)), dipLow := s.power.dipLow }) 4 stPowerWarnActive true))) ∧
  (∀ s : State, flag s 4 stPowerWarnActive = true →
    (let v := wideVal s 4 wLastDip
     let crossed := wideWord v 0 + 2 ^ 32 * wideWord v 1
     let w := showDip s crossed (wideWord v 2) ((now s - s.power.dipStart.getD crossed) / 1000)
     let u := raise (setFlag (setPower w { w.power with dipStart := none }) 4 stPowerWarnActive false) 4 evPowerSupplyOk
     crossed + 1000000 ≤ now s →
     (u.sys.supplyLow = false → exec .supplyRecover s = .next u) ∧
     (u.sys.supplyLow = true → u.sys.resetLow = false →
       exec .supplyRecover s = .next (startModule { u with sys := { u.sys with supplyLow := false } }
         (liveStraps { u with sys := { u.sys with supplyLow := false } }))))) ∧
  (∀ (s : State) (v : Nat), 600 < v → exec (.supplyHigh v) s = .next (raise (setFld s 4 fPowerVIn (min 1023 v)) 4 evPowerSupplyHigh))) ∧
  ((∀ s : State, exec .fAllowUpdate s = .next (updateAllow s)) ∧
  (∀ (s : State) (pk : Packet), Arrives s pk kPower → pk.len = 0 → pk.aux.toNat < 2 ^ 15 →
    (pk.aux.toNat % 256 = 1 → exec (.allow pk) s = .next (takeAllow (takeInbox s pk) pk)) ∧
    (pk.aux.toNat % 256 = 2 → exec (.cap pk) s = .next (takeAllow (takeInbox s pk) pk)) ∧
    (pk.aux.toNat % 256 = 3 →
      (let u := takeInbox s pk
       isMember u = true → pk.src = gmId u → freqNewer u pk.ctx = true →
       (let v := keepFreq u ⟨packetCode pk, pk.addr.toNat, pk.ctx⟩
        (now v ≤ pk.addr.toNat → exec (.freqSet pk) s = .next v) ∧
        (pk.addr.toNat < now v → exec (.freqSet pk) s = .next (raise (stepFreq v (packetCode pk)) 4 evPowerFreqLate)))))) ∧
  (∀ (s : State) (t : Nat), s.power.holdSince = some t → holdsRankZero s = true → s.power.set = true → freqTarget s < groupLeast s →
    t + 10000000 * fld s 4 fPowerFreqHold ≤ now s → exec .freqRaiseHold s = .next (setGroupFreq s (groupLeast s))) ∧
  (∀ (s : State) (d : DieId) (p : FreqSet), s.power.pend = some p → s.power.slewing.contains d.val = true →
    s.power.late.contains d.val = false → p.bell ≤ now s + 100000 →
    exec (.voltLate d) s = .next (raise (setPower s { s.power with late := s.power.late ++ [d.val] }) 4 evPowerVoltLate)) ∧
  (∀ (s : State) (d : DieId), s.power.slewing.contains d.val = true →
    (let u := setPower s { s.power with
       slewing := s.power.slewing.filter (· != d.val), late := s.power.late.filter (· != d.val) }
     (s.power.late.contains d.val = false → exec (.railConfirmed d) s = .next u) ∧
     (s.power.late.contains d.val = true → s.power.pend = none →
       exec (.railConfirmed d) s = .next (setDiesFreq u (fld u 4 fPowerFGroup) [d.val])))))

/-- Coolant: both thermistors are shown and judged; the flow is taken from the meter or read as none; lost flow is reported after 5 s and over
after 10 s of good flow; a hot inlet, or a manager die at 105 °C, puts the module in standby; the heat balance is checked. Temperatures: a
ward's hottest sensor is judged, and trips its die at 105 °C; while it is hot its request falls every 100 us and while it is cool rises
every millisecond; a tripped die sleeps and wakes after a second; the backstop cuts a die that stays hot; rotation and the group's share
of the frequency go on at their periods (R432, R433, R434, R435, R436, R437, R438, R439). -/
def Obligations.CoolingCompletes : Prop :=
  ((∀ (s : State) (i o : Int), 150 ≤ i → i ≤ 450 → o ≤ 650 →
    (let u := setFld (setFld s 5 fThermalTIn (thermWord (some i))) 5 fThermalTOut (thermWord (some o))
     exec (.thermistorRead (.tenths i) (.tenths o)) s = .next (updateLimit (setTherm u { s.therm with
       inlet := some i, outlet := some o, inletHigh := false, inletLow := false, outletHigh := false, sensorFault := false,
       hotInlet := none })))) ∧
  (∀ (s : State) (m : Nat), pulsesPerLitre s ≠ 0 → exec (.flowAverage m) s = .next (takeFlow s (60 * m / pulsesPerLitre s)) ∧
    exec .flowPulseTimeout s = .next (takeFlow s 0)) ∧
  (∀ (s : State) (t : Nat), s.therm.lowFlow = some t → t + 5000000000 ≤ now s → s.therm.flowLow = false →
    exec .flowLowTimeout s = .next (raise (setTherm s { s.therm with flowLow := true }) 5 evThermalFlowLow)) ∧
  (∀ (s : State) (t : Nat), s.therm.goodFlow = some t → s.therm.flowLost = true → t + 10000000000 ≤ now s →
    exec .flowRestored s = .next (updateLimit (setTherm s { s.therm with flowLost := false }))) ∧
  (∀ (s : State) (t : Nat), s.therm.hotInlet = some t → t + 10000000000 ≤ now s → exec .inletHotTimeout s = .next (autoStandby s)) ∧
  (∀ (s : State) (c : Int), 105 ≤ c → exec (.managerDieTrip c) s = .next (autoStandby s)) ∧
  (∀ (s : State) (w : Nat) (i o : Int), s.therm.inlet = some i → s.therm.outlet = some o → flag s 5 fThermalHbEn = true →
    pulsesPerLitre s ≠ 0 → fld s 5 fThermalFlow ≠ 0xFFF →
    (let q := (if flag s 5 fThermalCoolant then 398 else 418) * (fld s 5 fThermalFlow : Int) * (o - i)
     let u := setFld s 5 fThermalQCool (min 2047 (q / 60000).toNat)
     let off := 900000 * (w : Int) + 180000000 < ((100 * q - 5520000 * w).natAbs : Int)
     (¬ off → exec (.heatBalanceCheck w) s = .next (setTherm u { u.therm with imbalance := 0 })) ∧
     (off → u.therm.imbalance < 2 → exec (.heatBalanceCheck w) s = .next (setTherm u { u.therm with imbalance := u.therm.imbalance + 1 })) ∧
     (off → 2 ≤ u.therm.imbalance → exec (.heatBalanceCheck w) s =
       .next (noteInput (raise (bump (setTherm u { u.therm with imbalance := 0 }) 5 fThermalImbalanceCount) 5 evThermalHeatImbalance) 13 1))))) ∧
  ((∀ (s : State) (w : WardId) (l : List Int) (t : Int), hottest l = some t → dieAwake s (w / 8) = true →
    (let u := setTherm s { s.therm with temps := mapPut w t s.therm.temps }
     let v := if mapHas (w.val / 8) s.therm.tripAt then u else if rotationMode u then judgeRotation u w t else judgeNative u w t
     (105 ≤ t → exec (.sensorPass w l) s = .next (tripDie v (w / 8))) ∧
     (t < 105 → exec (.sensorPass w l) s = .next (noteDeep v)))) ∧
  (∀ (s : State) (w : WardId) (t : Nat), mapFind w.val s.therm.hotSince = some t → t + 100000 ≤ now s → rotationMode s = false →
    exec (.thermalLower w) s = .next (lowerReq (setTherm s { s.therm with hotSince := mapPut w (t + 100000) s.therm.hotSince }) w)) ∧
  (∀ (s : State) (w : WardId) (t : Nat), mapFind w.val s.therm.coolSince = some t → t + 1000000 ≤ now s →
    mapHas (w.val / 8) s.therm.tripAt = false → exec (.thermalRaise w) s = .next (raiseReq (setTherm s { s.therm with coolSince := mapPut w (t + 1000000) s.therm.coolSince }) w)) ∧
  (∀ (s : State) (d : DieId), mapHas d.val s.therm.tripAt = true → dieAwake s d = true →
    exec (.tripSleep d) s = .next (tripAsleep (sleepDie s d false) d)) ∧
  (∀ (s : State) (d : DieId) (lost : List (Nat × Nat)) (t : Nat), mapFind d.val s.therm.sleptAt = some t → t + 1000000000 ≤ now s →
    s.therm.held.contains d.val = false → modState s ≠ msStandby → exec (.tripWake d lost) s = .next (tripWakes lost s d)) ∧
  (∀ (s : State) (d : DieId), dieAwake s d = true → exec (.backstopCut d true) s =
    .next (noteCores (tripAsleep (setPowerBits (abortReplan (clearDie (tripDie s d) d) d) d false true) d) false)) ∧
  (∀ (s : State) (d : DieId) (r : Rotation), mapFind d.val s.therm.rot = some r →
    r.since + 1000000 * fld s 5 fThermalRotPeriod ≤ now s →
    exec (.rotationAdvance d) s = .next (changeReq s (fun t => { t with rot := match nextPeriod s r with
      | some r => mapPut d r t.rot
      | none => mapErase d t.rot }))) ∧
  (∀ (s : State) (t : Nat), s.power.deepSince = some t → t + 100000000 ≤ now s →
    exec .thermalFLower s = .next (updateAllow (setPower s { s.power with
      deepSince := some (t + 100000000), lowered := s.power.lowered + (if fld s 4 fPowerFAllow = 0 then 0 else 1) }))) ∧
  (∀ (s : State) (t : Nat), s.power.clearSince = some t → t + 1000000000 ≤ now s → 0 < s.power.lowered →
    exec .thermalFReturn s = .next (updateAllow (setPower s { s.power with
      clearSince := some (t + 1000000000), lowered := s.power.lowered - 1 }))))

/-- Spare resources: the core at the head of its line is brought in, and its self-test passes or fences it; a core whose tiles are gone has a
row replaced while its spares last; a manager core that fails is fenced and a spare starts; a core that hangs is fenced. Every second the
risk is worked out from the seventeen scores and shown with its peak; every minute down-time and powered time are kept, and the system
area keeps what a power loss must not take (R365, R451, R452, R454, R455, R458, R464, R535). -/
def Obligations.HealthCompletes : Prop :=
  ((∀ (s : State) (r : CoreReq) (rest : List CoreReq), s.health.coreRun = none → s.health.coreQ = r :: rest →
    coresReleased s (coreDie r.core) = true → exec .coreBringIn s = .next (beginCore (setHealth s { s.health with coreQ := rest }) r)) ∧
  (∀ (s : State) (g : CoreId) (r : CoreReq), s.health.coreRun = some (r, g.val) →
    (let u := setHealth s { s.health with coreRun := none }
     (r.back = false → exec (.selfTestDone g true) s = .next (noteCores (spareIn (setCoreState u g 0) 0 r.core) false)) ∧
     (r.back = true →
       (let v := setCoreState u g 1
        exec (.selfTestDone g true) s =
          .next (noteCores (setHealth v { v.health with coreCause := mapErase g.val v.health.coreCause }) false))) ∧
     (r.back = true → exec (.selfTestDone g false) s = .next (fenceCore u g 3)) ∧
     (r.back = false → exec (.selfTestDone g false) s = .next (beginCore (fenceCore u g 3) r)))) ∧
  (∀ (s : State) (g : CoreId) (r : RowReq) (limit cls : Nat), (coreOf s g).tile = none → dieAwake s (coreDie g) = true →
    r.core = g.val →
    (r.oc = true ∧ limit = 4 ∧ cls = 2 ∧ s.health.rowQ.find? (fun r => r.oc == true) = some r ∨
      r.oc = false ∧ limit = 8 ∧ cls = 3 ∧ s.health.rowQ.find? (fun r => r.oc == true) = none ∧
        s.health.rowQ.find? (fun r => r.oc == false) = some r) →
    (let used := mapGet (fun _ => 0) (partUse r) s.health.rowUsed
     let t := if r.zero then s else meet s g.val (fun e => flipLives (coreOf s g.val) e && inRow r e)
     let u := setHealth t { t.health with rowQ := t.health.rowQ.erase r }
     (limit ≤ used → exec (.rowSpareReplace g) s = .next (fenceCore (logSpare u cls g 2) g 2)) ∧
     (used < limit →
       (let v := setHealth u { u.health with rowUsed := mapPut (partUse r) (used + 1) u.health.rowUsed }
        exec (.rowSpareReplace g) s = .next (spareIn (raiseIf (decide (used + 1 = limit)) (if r.zero then zeroRow v r else v) 6
          evHealthSpareExhausted) cls g))))) ∧
  (∀ (s : State) (mc : MgrCore), exec (.mgrWatchdog mc) s = .next (mgrFails s mc) ∧ exec (.mgrCacheUe mc) s = .next (mgrFails s mc)) ∧
  (∀ (s : State) (m k : Nat) (rest more : List Nat), s.health.mgrQ = m :: rest →
    (List.range 18).filter (fun k => s.health.mgrSpare.getLsbD k && !(s.health.mgrFenced.getLsbD k)) = k :: more →
    (let u := setHealth s { s.health with mgrQ := rest, mgrSpare := s.health.mgrSpare &&& ~~~(BitVec.ofNat 18 (2 ^ k)) }
     exec .mgrSpareStart s = .next (noteMgr (spareIn (raiseIf more.isEmpty u 6 evHealthSpareExhausted) 1 m)))) ∧
  (∀ (s : State) (g : CoreId) (t : Nat), (coreOf s g).abandonedAt = some t → (coreOf s g).tile = none →
    ((coreOf s g).asyncs.any (fun a => !a.suspended) = true ∨ (coreOf s g).passes.any (fun p => !p.suspended) = true) →
    t + 1000000 ≤ now s →
    exec (.coreHang g) s = .next (fenceCore s g 5))) ∧
  ((∀ s : State,
    (let l := (List.range 17).map (nextScore s)
     let risk := min 255 (l.foldl (· + ·) 0 / 256)
     let scores : SMap Nat := (l.zipIdx.map (fun e => (e.2, e.1))).filter (fun e => decide (e.2 ≠ 0))
     let v := setHealth s { s.health with scores := scores, lastSecond := s.health.cur, cur := [] }
     let w := setFld v 6 fHealthRisk risk
     let u := setFld w 6 fHealthRiskPeak (max risk (fld w 6 fHealthRiskPeak))
     let level := fld u 9 fStore1RiskLevel
     (level ≤ risk → s.health.riskArmed = false → exec .healthTick s =
       .next (pumpSession (setHealth (setFlag u 6 stHealthRiskHigh true)
         { (setFlag u 6 stHealthRiskHigh true).health with riskArmed := false }))) ∧
     (risk + 32 < level → exec .healthTick s =
       .next (pumpSession (setHealth (setFlag u 6 stHealthRiskHigh false)
         { (setFlag u 6 stHealthRiskHigh false).health with riskArmed := true }))) ∧
     (level ≤ risk → s.health.riskArmed = true → exec .healthTick s =
       .next (pumpSession (reportRisk (setHealth (setFlag u 6 stHealthRiskHigh true)
         { (setFlag u 6 stHealthRiskHigh true).health with riskArmed := false }) risk))) ∧
     (risk < level → level ≤ risk + 32 → exec .healthTick s =
       .next (pumpSession (setHealth u { u.health with riskArmed := s.health.riskArmed }))))) ∧
  (∀ s : State, ∃ t, exec .downtimePersist s = .next t ∧ t.regs = s.regs ∧ t.mem = s.mem ∧ t.health = s.health ∧
    t.sys.saved.health.poweredTicks = s.health.poweredTicks + (now s - s.health.poweredSince) ∧
    (s.health.downSince = none → t.sys.saved.health.downTicks = s.health.downTicks)) ∧
  (∀ s : State, ∃ t, exec .systemAreaPersist s = .next t ∧ t.regs = s.regs ∧ t.mem = s.mem ∧ t.health = s.health ∧
    t.sys.saved.chans = s.mem.chans ∧ t.sys.saved.rails = s.power.rails ∧
    t.sys.saved.health.downTicks = s.sys.saved.health.downTicks))

/-- Sessions: OPEN binds a session to a peer, again for the bound peer, and is refused for another one with OPEN_RESP BUSY; CLOSE ends it;
KEEPALIVE is heard; DATA goes to its channel; a datagram that breaks a rule is counted; an unknown opcode is answered UNKNOWN. The
session's timers: an acknowledgement that is owed 10 ms goes out in a KEEPALIVE, and a KEEPALIVE follows a second of silence of this side;
a peer not heard for SESSION_IDLE seconds is closed with reason 1, a message resent 20 times in vain with reason 2; telemetry goes out at
its interval (R474, R475, R476, R477, R479, R485). -/
def Obligations.SessionCompletes : Prop :=
  ((∀ (s : State) (o : OpenMsg), acceptsPeer s o.peer = true → o.chan = 0 → o.len = 8 →
    (let u := countFrame s
     (u.mgmt.session = none → exec (.openSession o) s = .next (bindSession u o.peer o.firstEvent.toNat)) ∧
     (∀ x, u.mgmt.session = some x → x.peer = o.peer → exec (.openSession o) s = .next (bindSession u o.peer o.firstEvent.toNat)) ∧
     (∀ x, u.mgmt.session = some x → x.peer ≠ o.peer →
       exec (.openSession o) s = .next (raise (sendOpenResp u o.peer 0 true) 0x11 evMgmtSessionSessionRefused)))) ∧
  (∀ (s : State) (h : MsgHdr) (payload : List Byte) (x : Session), acceptsPeer s h.peer = true → h.chan = 0 →
    sessionFor (countFrame s) h = some x →
    (payload.length = 4 → exec (.closeSession h payload) s = .next (endSession (hearPeer (countFrame s) h))) ∧
    exec (.keepalive h) s = .next (hearPeer (countFrame s) h)) ∧
  (∀ (s u : State) (h : MsgHdr) (payload : List Byte), Delivered s h u → (h.chan = 1 ∨ h.chan = 2 ∨ h.chan = 4) →
    ingestWaits s h payload = false → exec (.dataMsg h payload) s = .next (takeData u h.chan.toNat payload)) ∧
  (∀ s : State, portServes s = true → exec (.datagramBad .fcs) s = .next (bump s 0x10 fMgmtLinkFcsErrCount)) ∧
  (∀ (s : State) (b : BadDatagram), portServes s = true → b ≠ .fcs → (∀ h, b ≠ .channelSequenced h) →
    exec (.datagramBad b) s = .next (msgBad (countFrame s))) ∧
  (∀ (s u : State) (h : MsgHdr), Delivered s h u → exec (.datagramBad (.channelSequenced h)) s = .next (msgBad u)) ∧
  (∀ (s u : State) (c : CmdMsg) (op : BitVec 16), Delivered s c.hdr u → c.hdr.chan = 0 →
    exec (.commandUnknown c op) s = .next (answerCmd u (op.toNat % 2 ^ (8 * min 2 c.payloadLen)) (cmdTag c) rcUnknown []))) ∧
  ((∀ (s : State) (x : Session) (t : Nat), s.mgmt.session = some x → x.ackOwed = some t → t + 10000000 ≤ now s →
    exec .ackKeepalive s = .next (sendKeepalive s)) ∧
  (∀ (s : State) (x : Session), s.mgmt.session = some x → x.sentAt + 1000000000 ≤ now s → exec .keepaliveTx s = .next (sendKeepalive s)) ∧
  (∀ (s : State) (x : Session), s.mgmt.session = some x → x.heard + fld s 0x11 fMgmtSessionSessionIdle * 1000000000 ≤ now s →
    exec .sessionIdleTimeout s = .next (closeSession s 1)) ∧
  (∀ (s : State) (x : Session) (y : Unacked), s.mgmt.session = some x →
    (y ∈ x.unacked → y.last + 50000000 ≤ now s → 20 ≤ y.resends → exec .sessionResend s = .next (closeSession s 2)) ∧
    (x.unacked = [y] → y.last + 50000000 ≤ now s → y.resends < 20 →
      (let r := resendOne s x y
       exec .sessionResend s = .next (setSession r.1 (some { x with
         unacked := [r.2], ackOwed := none, sentAt := now s }))))) ∧
  (∀ (s : State) (x : Session), s.mgmt.session = some x → s.mgmt.telemetry ≠ 0 → s.mgmt.telemetryAt + s.mgmt.telemetry * 1000000 ≤ now s →
    (let u := sendOut s 0x30 6 (telemetryBytes s)
     exec .telemetryTx s = .next (setMgmt u { u.mgmt with telemetryAt := now u }))))

/-- GET_INFO answers state, straps, identifier, status and running slot; the register and mailbox commands make the access in class X, or, as
the guarded ones, in class K, and answer its result (R470, R478, R532). -/
def Obligations.AccessCommandsComplete : Prop :=
  (∀ (s u : State) (c : CmdMsg), Served s c 1 0 u → exec (.getInfo c) s = .next (answersOk u c 1
    (leBytes 1 (modState u) ++ leBytes 4 (regWord u 1 0x100).toNat ++ leBytes 2 (moduleId u).toNat ++
      leBytes 4 (presentWord u .manager 0 4) ++ leBytes 1 (fld u 2 stSecuritySlotRunning)))) ∧
  (∀ (s u v : State) (c : CmdMsg) (w : Nat), regArgsOk c = true →
    (Served s c 2 4 u → regGet u .x (argNat c 0 2) (argNat c 2 2) = (v, some w) →
      exec (.regRead c) s = .next (answersOk v c 2 (leBytes 4 w))) ∧
    (Served s c 3 8 u → regPut u .x (argNat c 0 2) (argNat c 2 2) (argNat c 4 4) = (v, true) →
      exec (.regWrite c) s = .next (answersOk v c 3 [])) ∧
    (Served s c 6 4 u → hostOnlyPage (argNat c 0 2) = false → regGet u (.k 0) (argNat c 0 2) (argNat c 2 2) = (v, some w) →
      exec (.regReadK c) s = .next (answersOk v c 6 (leBytes 4 w))) ∧
    (Served s c 7 8 u → hostOnlyPage (argNat c 0 2) = false →
      (presenceField (argNat c 0 2) (argNat c 2 2) = false ∨ presenceOpen u = true) →
      regPut u (.k 0) (argNat c 0 2) (argNat c 2 2) (argNat c 4 4) = (v, true) → exec (.regWriteK c) s = .next (answersOk v c 7 []))) ∧
  (∀ (s u : State) (c : CmdMsg) (b : Block), pageBlock (argNat c 0 2) = some b → pageServed u (argNat c 0 2) = true →
    (let page := argNat c 0 2
     let vid := argNat c 2 2
     let ws := (List.range 8).map (fun i => argNat c (4 + 4 * i) 4)
     (Served s c 4 4 u →
       (let v := mailboxOp u .x b page vid false false
        flag v page fCommonErr = true → exec (.mbxRead c) s = .next (answersOk v c 4 (leBytes 4 (mbxStat v b page))))) ∧
     (Served s c 4 4 u →
       (let v := mailboxOp u .x b page vid false false
        flag v page fCommonErr = false → fld v page fCommonWords ≤ 6 → exec (.mbxRead c) s = .next (answersOk v c 4
          (leBytes 4 (mbxStat v b page) ++
            ((List.range (min 6 (fld v page fCommonWords))).map (fun i => leBytes 4 (mbxWord v page i))).flatten)))) ∧
     (Served s c 5 36 u →
       (let v := mailboxPut u .x b page vid ws
        exec (.mbxWrite c) s = .next (answersOk v c 5 (leBytes 4 (mbxStat v b page))))) ∧
     (Served s c 8 4 u → hostOnlyPage page = false →
       (let v := mailboxOp u (.k 0) b page vid false false
        flag v page fCommonErr = false → fld v page fCommonWords ≤ 6 → exec (.mbxReadK c) s = .next (answersOk v c 8
          (leBytes 4 (mbxStat v b page) ++
            ((List.range (min 6 (fld v page fCommonWords))).map (fun i => leBytes 4 (mbxWord v page i))).flatten)))) ∧
     (Served s c 9 36 u → hostOnlyPage page = false → (presenceWide page vid = false ∨ presenceOpen u = true) →
       (let v := mailboxPut u (.k 0) b page vid ws
        exec (.mbxWriteK c) s = .next (answersOk v c 9 (leBytes 4 (mbxStat v b page)))))))

/-- Jobs: JOB_LOAD opens an upload, a whole bundle that is sound whose sections can be copied is loaded and answered; JOB_START starts the
loaded job in READY with every die awake, JOB_STOP ends it; a step plan goes on at its steps and ends at its last. The commands of the
host's services are answered OK with their effect: network settings after the response, telemetry, ingest and where event notifications
start (R478, R480, R483, R484, R486, R532). -/
def Obligations.JobAndServiceCommandsComplete : Prop :=
  ((∀ (s u : State) (c : CmdMsg), Served s c 0x10 12 u → jobRuns u = false → u.mgmt.upload = none → modState u ≠ msStandby →
    exec (.jobLoad c) s = .next (setMgmt u { u.mgmt with
      upload := some (Upload.mk none (argNat c 0 8) (BitVec.ofNat 32 (argNat c 8 4)) [] (BitVec.ofNat 32 (cmdTag c))) })) ∧
  (∀ (s : State) (x : Upload), s.mgmt.upload = some x → x.slot = none → x.len ≤ x.data.length →
    (let u := setMgmt s { s.mgmt with upload := none }
     (bundleOk u x.data x.len x.crc = true → (copyBundle u x.data).2 = true →
       exec .bundleComplete s = .next (answerCmd (loadBundle (copyBundle u x.data).1 x.data x.len) 0x10 x.tag.toNat rcOk [])) ∧
     (bundleOk u x.data x.len x.crc = false →
       exec .bundleComplete s = .next (answerCmd u 0x10 x.tag.toNat rcBadArg [])))) ∧
  (∀ (s u : State) (c : CmdMsg), Served s c 0x11 4 u → argNat c 0 4 ≤ 1 → u.job ≠ none → modState u = msReady →
    (∀ d < 4, dieAwake u d = true) → (putJobRegs u).2 = true →
    exec (.jobStart c) s = .next (answersOk (startJob (putJobRegs u).1 (decide (argNat c 0 4 = 1))) c 0x11 [])) ∧
  (∀ (s u : State) (c : CmdMsg), Served s c 0x12 0 u → u.job ≠ none → exec (.jobStop c) s = .next (answersOk (endJob u) c 0x12 [])) ∧
  (∀ (s : State) (n : Nat) (j : Job) (p : Plan), s.planNext = some n → s.job = some j → j.plan = some p → jobRuns s = true →
    stepReached s p n = true →
    (p.steps ≠ 0 → p.first + p.steps ≤ n → exec .planStep s = .next (endPlan s)) ∧
    ((p.steps = 0 ∨ n < p.first + p.steps) → exec .planStep s = .next (planStep s p n)))) ∧
  ((∀ (s u : State) (c : CmdMsg), Served s c 0x13 12 u → netArgsOk c = true →
    exec (.netConfig c) s = .next (netConfig (answersOk u c 0x13 []) c)) ∧
  (∀ (s u : State) (c : CmdMsg), Served s c 0x14 4 u → (argNat c 0 4 = 0 ∨ (100 ≤ argNat c 0 4 ∧ argNat c 0 4 ≤ 60000)) →
    exec (.telemetrySet c) s = .next (answersOk (setMgmt u { u.mgmt with telemetry := argNat c 0 4, telemetryAt := now u }) c 0x14 [])) ∧
  (∀ (s u : State) (c : CmdMsg), Served s c 0x15 36 u → u.job ≠ none → argNat c 8 8 ≠ 0 → argNat c 8 8 % 4096 = 0 → argNat c 16 4 ≠ 0 →
    argNat c 8 8 % argNat c 16 4 = 0 → argNat c 0 8 + argNat c 8 8 ≤ bulkEnd → ctrOk (argNat c 20 8) = true → ctrOk (argNat c 28 8) = true →
    exec (.ingestOpen c) s = .next (answersOk { u with
      ingest := some ⟨argNat c 0 8, argNat c 8 8, argNat c 16 4, argNat c 20 8, argNat c 28 8, 0⟩ } c 0x15 [])) ∧
  (∀ (s u : State) (c : CmdMsg) (x : Session), Served s c 0x16 8 u → u.mgmt.session = some x →
    exec (.eventsFrom c) s = .next (pumpSession (answersOk (setSession u (some { x with
      nextEvent := firstEvent u (argNat c 0 8) })) c 0x16 []))))

/-- Power and state commands: dies sleep and wake, the module enters and leaves standby, or resets after its response; a clutch action of the
rank-0 holder; exports and imports start (R390, R391, R478, R491). -/
def Obligations.StateCommandsComplete : Prop :=
  (∀ (s u : State) (c : CmdMsg) (lost : List (Nat × Nat)), argNat c 0 4 ≤ 15 → atWork u = true →
    (Served s c 0x20 4 u → jobRuns u = false →
      exec (.dieSleepCmd c) s = .next (answersOk ((maskDies (argNat c 0 4)).foldl sleepAction u) c 0x20 [])) ∧
    (Served s c 0x21 4 u →
      exec (.dieWakeCmd c lost) s = .next (answersOk ((maskDies (argNat c 0 4)).foldl (fun s d => wakeAction s d lost) u) c 0x21 []))) ∧
  (∀ (s u : State) (c : CmdMsg), Served s c 0x22 0 u → jobRuns u = false →
    exec (.standbyCmd c) s = .next (answersOk (enterStandby u true) c 0x22 [])) ∧
  (∀ (s u : State) (c : CmdMsg) (lost : List (Nat × Nat)), Served s c 0x23 0 u →
    exec (.wakeCmd c lost) s = .next (answersOk (leaveStandby u lost) c 0x23 [])) ∧
  (∀ (s u : State) (c : CmdMsg), Served s c 0x24 4 u →
    (argNat c 0 4 = 0 → exec (.reset c) s = .next (warmReset (answersOk u c 0x24 []))) ∧
    (argNat c 0 4 = 1 → exec (.reset c) s = .next (moduleReset (answersOk u c 0x24 []) (liveStraps (answersOk u c 0x24 [])) 4))) ∧
  (∀ (s u : State) (c : CmdMsg), argNat c 4 2 < 2 ^ 15 → u.store.xfer = none →
    (Served s c 0x30 6 u → exec (.exportCmd c) s =
      .next (startExport (answersOk (selectXfer u c) c 0x30 []) (argNat c 0 4) (argNat c 4 2))) ∧
    (Served s c 0x31 6 u → jobRuns u = false → exec (.importCmd c) s =
      .next (answersOk (startImport (selectXfer u c) (argNat c 0 4) (argNat c 4 2)) c 0x31 []))) ∧
  (∀ (s u : State) (c : CmdMsg), Served s c 0x32 4 u → argNat c 0 4 ≤ 3 → holdsRankZero u = true →
    exec (.clutch c) s = .next (answersOk (clutchAction u (argNat c 0 4)) c 0x32 []))

/-- Attestation: ATTEST uses one signature index and starts a quote, which is read in pieces of 1,024 bytes once it is built; certificates are
read too. Images, with the presence window open: an upload begins into a slot that does not run, its commit checks it whole, a slot is
erased; the security version is committed; PRESENCE_STATUS answers the window and the jumper; debug accesses halt and resume a manager
core (R501, R503, R504, R506, R509, R510). -/
def Obligations.SecurityCommandsComplete : Prop :=
  ((∀ (s u : State) (c : CmdMsg), Served s c 0x40 32 u → otsLeft u ≠ 0 →
    (let i := (otsUse u).1
     let v := (otsUse u).2
     exec (.attest c) s = .next (answersOk (setSec v { v.sec with
       quote := [], building := some (quoteBody v c.args i, i) }) c 0x40 (leBytes 4 5332)))) ∧
  (∀ (s : State) (body : List Byte) (i : Nat), s.sec.building = some (body, i) →
    exec .quoteReady s = .next (setSec s { s.sec with
      building := none, quote := body ++ (List.range 5076).map (Config.signatureByte i body) })) ∧
  (∀ (s u : State) (c : CmdMsg), Served s c 0x41 4 u → argNat c 0 4 % 1024 = 0 → argNat c 0 4 < u.sec.quote.length →
    exec (.quoteRead c) s = .next (answersOk u c 0x41 ((u.sec.quote.drop (argNat c 0 4)).take 1024))) ∧
  (∀ (s u : State) (c : CmdMsg), Served s c 0x42 8 u → argNat c 0 4 ≤ 1 → argNat c 4 4 < 3220 →
    exec (.certRead c) s = .next (answersOk u c 0x42 ((List.range (min 1024 (3220 - argNat c 4 4))).map
      (fun k => certAt u (argNat c 0 4) (argNat c 4 4 + k)))))) ∧
  ((∀ (s u : State) (c : CmdMsg), Served s c 0x43 8 u → argNat c 0 4 ≤ 1 → imageFront < argNat c 4 4 →
    argNat c 4 4 ≤ imageFront + 8388608 → presenceOpen u = true → slotServed u (argNat c 0 4) = true → slotRuns u (argNat c 0 4) = false →
    flag u 9 stStore1Capturing = false → u.mgmt.upload = none →
    exec (.imageBegin c) s = .next (answersOk (beginImage u (argNat c 0 4) (argNat c 4 4)) c 0x43 [])) ∧
  (∀ (s u : State) (c : CmdMsg) (x : Upload), Served s c 0x44 8 u → uploadOf u (argNat c 0 4) = some x →
    (argNat c 0 4 < 2 → presenceOpen u = true) → x.len ≤ x.data.length → (crc32 (sparseBytes x.data 0 x.len)).toNat = argNat c 4 4 →
    (let r := closeImage u (argNat c 0 4) ⟨x.data, x.len⟩ (verifyImage u (some ⟨x.data, x.len⟩))
     r.status = rcOk → r.after = none → exec (.imageCommit c) s = .next (answersOk r.s c 0x44 r.results))) ∧
  (∀ (s u : State) (c : CmdMsg), Served s c 0x45 4 u → argNat c 0 4 ≤ 1 → presenceOpen u = true → slotServed u (argNat c 0 4) = true →
    slotRuns u (argNat c 0 4) = false → flag u 9 stStore1Capturing = false → uploadOf u (argNat c 0 4) = none →
    exec (.imageErase c) s = .next (answersOk (eraseSlot u (argNat c 0 4)) c 0x45 [])) ∧
  (∀ (s u : State) (c : CmdMsg), Served s c 0x46 0 u → presenceOpen u = true → svnRefused u = false →
    exec (.svnCommitCmd c) s = .next (answersOk (svnCommitEffect u) c 0x46 [])) ∧
  (∀ (s u : State) (c : CmdMsg), Served s c 0x47 0 u → exec (.presenceStatus c) s =
    .next (answersOk u c 0x47 (leBytes 2 (presenceLeft u) ++ leBytes 1 (fld u 2 stSecurityJumper)))) ∧
  (∀ (s u : State) (c : CmdMsg), Served s c 0x48 24 u → argNat c 0 4 ≤ 17 → presenceOpen u = true →
    flag u 2 stSecurityDebugEn = true →
    (argNat c 4 4 = 0 → exec (.debugAccess c) s = .next (answersOk (setSec u { u.sec with
      halted := u.sec.halted.filter (· != argNat c 0 4) ++ [argNat c 0 4] }) c 0x48 [])) ∧
    (argNat c 4 4 = 1 → exec (.debugAccess c) s = .next (answersOk (setSec u { u.sec with
      halted := u.sec.halted.filter (· != argNat c 0 4) }) c 0x48 []))))

/-- Presence and the seal: a press opens the window for 300 s, its end closes it; the pins are sampled; a seal that was open for 10 ms, or at
power-on, is broken for good. The side services: SMBus answers a read of a defined code and no write; the link comes up with block lock
and goes down with it or with the light; ARP, neighbour and echo requests are answered; a DHCP lease is taken where DHCP is on. A ward
enters ward nap only while no array of its cores holds a running or queued pass, and only while none of its cores runs or holds a tile
(R122, R472, R487, R492, R497, R508, R509, R518, R529). -/
def Obligations.PresenceAndSideServicesComplete : Prop :=
  ((∀ s : State, s.sys.resetLow = false → exec .presencePress s =
    .next (notePresence (setSec s { s.sec with pressUntil := some (now s + 300 * 1000000000) }))) ∧
  (∀ (s : State) (t : Nat), s.sec.pressUntil = some t → t ≤ now s →
    exec .presenceExpiry s = .next (notePresence (setSec s { s.sec with pressUntil := none }))) ∧
  (∀ (s : State) (p : PinLevels), ∃ u v, exec (.pinSample p) s = .next (notePresence (setFlag v 2 stSecurityJumper p.jumper)) ∧
    v = sampleSeal u p.sealOhms ∧ RegsOnly s u ∧ fld u 1 fStrapsStrapsLive = p.straps.toNat) ∧
  (∀ (s : State) (t : Nat), s.sec.sealOpenSince = some t → flag s 2 stSecuritySealBroken = false →
    (t + 10000000 ≤ now s ∨ s.sec.sealAtPower = true) →
    exec .sealBreak s = .next (raise (fuseFld (fuseFld s 2 stSecuritySealBroken 1) 2 stSecurityDebugEn 1) 2 evSecuritySealOpened))) ∧
  ((∀ s : State, exec .smbusRefresh s = .next (setMgmt s { s.mgmt with smbus := smbusValues s })) ∧
  (∀ (s : State) (code : BitVec 8) (n : Nat) (block : Bool), smbusSize code.toNat = some (n, block) →
    (let body := (if block then [BitVec.ofNat 8 n] else []) ++ leBytes n (mapGet (fun _ => 0) code.toNat s.mgmt.smbus)
     exec (.smbusRead code false false) s = .next (setMgmt s { s.mgmt with smbusReply := some body }))) ∧
  (∀ (s : State) (code : BitVec 8) (pec : Bool), exec (.smbusRead code true pec) s = .next (setMgmt s { s.mgmt with smbusReply := none })) ∧
  (∀ s : State, flag s 0x10 stMgmtLinkLinkUp = false → exec (.pcsBlockLock true) s =
    .next (raise (setFlag (setFlag s 0x10 stMgmtLinkLinkUp true) 0x10 stMgmtLinkFecOn
      (flag s 0x10 fMgmtLinkFecEn && !(flag s 1 fStrapsMgmtMode))) 0x10 evMgmtLinkLinkUp)) ∧
  (∀ s : State, exec (.pcsBlockLock false) s = .next (linkDown s) ∧ exec .mgmtLos s = .next (linkDown s)) ∧
  (∀ (s : State) (q : EchoReq) (b : List Byte), portServes s = true → echoAnswer (countFrame s) q = some b →
    exec (.icmpEcho q) s = .next (bump (setMgmt (countFrame s)
      { (countFrame s).mgmt with replies := (countFrame s).mgmt.replies ++ [b] }) 0x10 fMgmtLinkTxFrames)) ∧
  (∀ (s : State) (l : BitVec 32) (n : BitVec 6), portServes s = true → flag (countFrame s) 0x11 fMgmtSessionIp4Dhcp = true →
    exec (.dhcpv4 l n) s = .next (setMgmt (countFrame s) { (countFrame s).mgmt with lease := some (l, n) }))) ∧
  (∀ (s t : State) (w : WardId), exec (.wardNap w) s = .next t → flag s (pgWard w) stWardNap = false → flag t (pgWard w) stWardNap = true →
    ∀ g, g ∈ wardCores w → (coreOf s g).passes = [] ∧ (coreOf s g).tile = none ∧ (coreOf s g).shadow = none)

/-- Power and reset: power-on resets every class and samples the seal anew; RESET_L low for 1 us holds the module in reset, a pulse below 100
ns does nothing; its release starts the module; cores are released once the channels are trained and memory is filled; a ward naps while
it is idle and wakes for work (R490, R491, R492). -/
def Obligations.ResetEventsComplete : Prop :=
  (∀ (s : State) (straps : BitVec 12), exec (.powerOn straps) s =
    .next (powerOnReset (setSec s { s.sec with sealAtPower := true }) straps)) ∧
  (∀ (s : State) (ns : Nat), (1000 ≤ ns → exec (.resetLLow ns) s =
      .next (moduleReset { s with sys := { s.sys with resetLow := true } } (liveStraps s) 2)) ∧
    (ns < 100 → exec (.resetLLow ns) s = .next s)) ∧
  (∀ (s : State) (straps : BitVec 12), s.sys.resetLow = true → s.sys.supplyLow = false → exec (.resetLRelease straps) s =
    .next (startModule { s with sys := { s.sys with resetLow := false } } straps)) ∧
  (∀ (s : State) (failed : List (Fin 1216)), modState s = msBooting → channelsUp s = true → s.mem.filled = true →
    (let u := startRole (setFlag (failed.foldl (fun s g => releaseCore s g) s) 3 stTimeBaseLocked true)
     let v := if u.sys.warm then (List.range 4).foldl journalRestart u else u
     let w := { v with sys := { v.sys with warm := false } }
     exec (.coreRelease failed) s = .next (noteCores (setFld w 0 stManagerModuleState (workState v)) true))) ∧
  (∀ (s : State) (w : WardId), dieAwake s (w.val / 8) = true → flag s (pgWard w.val) stWardNap = false → wardIdle s w.val = true →
    wardWanted s w.val = false → coresReleased s (w.val / 8) = true →
    exec (.wardNap w) s = .next (replanNap (setFlag s (pgWard w.val) stWardNap true) w.val)) ∧
  (∀ (s : State) (w : WardId), flag s (pgWard w.val) stWardNap = true → wardWanted s w.val = true →
    exec (.wardWake w) s = .next (setFlag s (pgWard w.val) stWardNap false))
end

