-- ==== Sys2Proof/Laws/Frames.lean ====
section
/-!
SUPPORT. What stands on a lane: bytes and their number, a codeword without errors, the message of a frame, and a codeword on one lane.
The witnesses and the proofs about links cite these instead of unfolding the code.
-/

namespace Sys2Proof.Machine

/-! ### Bytes -/

@[simp] theorem length_leBytes (n v : Nat) : (leBytes n v).length = n := by
  induction n generalizing v with
  | zero => rfl
  | succ n ih => simp [leBytes, ih]

theorem leNat_append (a b : List Byte) : leNat (a ++ b) = leNat a + 256 ^ a.length * leNat b := by
  induction a with
  | nil => simp [leNat]
  | cons x a ih => simp only [List.cons_append, leNat, ih, List.length_cons, pow_succ]; ring

theorem leNat_lt (b : List Byte) : leNat b < 256 ^ b.length := by
  induction b with
  | nil => simp [leNat]
  | cons x b ih =>
    have := x.isLt
    simp only [leNat, List.length_cons, pow_succ]
    omega

theorem leNat_leBytes (n v : Nat) : leNat (leBytes n v) = v % 256 ^ n := by
  induction n generalizing v with
  | zero => simp [leBytes, leNat, Nat.mod_one]
  | succ n ih => rw [leBytes, leNat, ih, pow_succ, Nat.mul_comm (256 ^ n), Nat.mod_mul]; simp

theorem leBytes_leNat (b : List Byte) : leBytes b.length (leNat b) = b := by
  induction b with
  | nil => rfl
  | cons x b ih =>
    have hx : x.toNat < 256 := x.isLt
    have h1 : (x.toNat + 256 * leNat b) / 256 = leNat b := by omega
    have h2 : BitVec.ofNat 8 (x.toNat + 256 * leNat b) = x := by
      apply BitVec.eq_of_toNat_eq; simp only [BitVec.toNat_ofNat]; omega
    simp only [List.length_cons, leBytes, leNat, h1, h2, ih]

/-! ### The code -/

theorem symTwice_lt {a : Nat} (h : a < 1024) : symTwice a < 1024 :=
  (by decide +kernel : ∀ a, a < 1024 → symTwice a < 1024) a h

theorem symMulBits_lt (n : Nat) {a : Nat} (b : Nat) (h : a < 1024) : symMulBits n a b < 1024 := by
  induction n generalizing a b with
  | zero => simp [symMulBits]
  | succ n ih =>
    simp only [symMulBits]
    refine Nat.xor_lt_two_pow (n := 10) ?_ (ih _ (symTwice_lt h))
    split <;> omega

/-- Every entry of a list is a field element. -/
def symbols (l : List Nat) : Prop := ∀ x, x ∈ l → x < 1024

theorem symbols_polyAdd {p q : List Nat} (hp : symbols p) (hq : symbols q) : symbols (polyAdd p q) := by
  induction p generalizing q with
  | nil => simpa [polyAdd] using hq
  | cons a p ih =>
    cases q with
    | nil => simpa [polyAdd] using hp
    | cons b q =>
      intro x hx
      simp only [polyAdd, List.mem_cons] at hx
      rcases hx with rfl | hx
      · exact Nat.xor_lt_two_pow (n := 10) (hp _ (by simp)) (hq _ (by simp))
      · exact ih (fun y hy => hp y (by simp [hy])) (fun y hy => hq y (by simp [hy])) x hx

theorem symbols_polyScale {c : Nat} (hc : c < 1024) (p : List Nat) : symbols (polyScale c p) := by
  intro x hx
  obtain ⟨y, -, rfl⟩ := List.mem_map.mp hx
  exact symMulBits_lt 10 y hc

/-- The parity symbols of a message are field elements. -/
theorem symbols_rsParity {m : List Nat} (hm : symbols m) : symbols (rsParity m) := by
  unfold rsParity
  generalize rsGenerator.reverse = g
  suffices ∀ r, symbols r → symbols (m.foldl (fun r a => let f := r.headD 0 ^^^ a; polyAdd (r.tail ++ [0]) (polyScale f g)) r) from
    this _ (by intro x hx; rw [List.mem_replicate] at hx; omega)
  induction m with
  | nil => intro r hr; exact hr
  | cons a m ih =>
    intro r hr
    simp only [List.foldl_cons]
    refine ih (fun y hy => hm y (by simp [hy])) _ (symbols_polyAdd ?_ (symbols_polyScale ?_ g))
    · intro x hx
      simp only [List.mem_append, List.mem_singleton] at hx
      rcases hx with hx | rfl
      · exact hr x (List.mem_of_mem_tail hx)
      · omega
    · refine Nat.xor_lt_two_pow (n := 10) ?_ (hm _ (by simp))
      cases r with
      | nil => simp
      | cons x r => exact hr x (by simp)

theorem length_polyAdd (p q : List Nat) : (polyAdd p q).length = max p.length q.length := by
  induction p generalizing q with
  | nil => simp [polyAdd]
  | cons a p ih => cases q with
    | nil => simp [polyAdd]
    | cons b q => simp [polyAdd, ih]

/-- A codeword has thirty parity symbols. -/
theorem length_rsParity (m : List Nat) : (rsParity m).length = 30 := by
  have hg : rsGenerator.reverse.length ≤ 30 := by rw [List.length_reverse, rsGenerator, List.length_take]; omega
  unfold rsParity
  revert hg
  generalize rsGenerator.reverse = g
  intro hg
  suffices ∀ r : List Nat, r.length = 30 →
      (m.foldl (fun r a => let f := r.headD 0 ^^^ a; polyAdd (r.tail ++ [0]) (polyScale f g)) r).length = 30 from this _ (by simp)
  induction m with
  | nil => intro r hr; exact hr
  | cons a m ih =>
    intro r hr
    exact ih _ (by simp [length_polyAdd, polyScale, hr]; omega)

/-- A codeword as it was sent gives its message. -/
theorem rsDecode_rsEncode {m : List Nat} (h : m.length = 514) : rsDecode (rsEncode m) = some m := by
  simp [rsDecode, rsEncode, ← h]

/-! ### The message of a frame -/

theorem length_payloadField (f : Frame) : (payloadField f).length = 624 := by
  simp only [payloadField, List.length_append, List.length_take, List.length_map, List.length_range]; omega

theorem length_frameBody (f : Frame) : (frameBody f).length = 638 := by
  simp [frameBody, length_payloadField]

theorem length_frameBytes (f : Frame) : (frameBytes f).length = 642 := by
  simp [frameBytes, length_frameBody]

@[simp] theorem length_frameSymbols (f : Frame) : (frameSymbols f).length = 514 := by simp [frameSymbols]

theorem symbols_frameSymbols (f : Frame) : symbols (frameSymbols f) := by
  intro x hx
  simp only [frameSymbols, List.mem_map] at hx
  obtain ⟨i, -, rfl⟩ := hx
  exact Nat.mod_lt _ (by omega)

/-- The digits of a number give it back. -/
theorem foldr_digits (n m : Nat) :
    ((List.range n).map (fun i => m / 1024 ^ i % 1024)).foldr (fun a v => a % 1024 + 1024 * v) 0 = m % 1024 ^ n := by
  induction n generalizing m with
  | zero => simp [Nat.mod_one]
  | succ n ih =>
    rw [List.range_succ_eq_map]
    simp only [List.map_cons, List.map_map, List.foldr_cons, pow_zero, Nat.div_one, Nat.mod_mod]
    have h : ((fun i => m / 1024 ^ i % 1024) ∘ Nat.succ) = fun i => m / 1024 / 1024 ^ i % 1024 := by
      funext i; simp [pow_succ, Nat.div_div_eq_div_mul, Nat.mul_comm]
    rw [h, ih, pow_succ, Nat.mul_comm (1024 ^ n), Nat.mod_mul]

/-- The bytes of a frame read as the frame that fills all its units. -/
theorem readFrame_frameBytes {f : Frame} (h : f.payload.length = 624) : readFrame (frameBytes f) = f := by
  have hp : payloadField f = f.payload := by
    simp [payloadField, ← h]
  have hh : headerBits f < 256 ^ 8 := by
    have := f.typ.isLt; have := f.vc.isLt; have := f.fill.isLt; have := f.seq.isLt; have := f.ack.isLt; have := f.nak.toNat_lt
    have := f.crVc.isLt; have := f.crCount.isLt; have := f.laneCmd.isLt; have := f.laneArg.isLt; have := f.rsvd.isLt
    unfold headerBits; omega
  have h8 : leNat ((frameBytes f).take 8) = headerBits f := by
    rw [frameBytes, frameBody, List.append_assoc, List.append_assoc, List.take_left' (by simp), leNat_leBytes, Nat.mod_eq_of_lt hh]
  have hpay : ((frameBytes f).drop 8).take 624 = f.payload := by
    rw [frameBytes, frameBody, List.append_assoc, List.append_assoc, List.drop_left' (by simp), hp, List.take_left' h]
  have hts : leNat (((frameBytes f).drop 632).take 6) = f.txTs.toNat := by
    have e : frameBytes f = (leBytes 8 (headerBits f) ++ payloadField f) ++ (leBytes 6 f.txTs.toNat ++ leBytes 4 (crc32 (frameBody f)).toNat) := by
      simp [frameBytes, frameBody]
    rw [e, List.drop_left' (by simp [length_payloadField]), List.take_left' (by simp), leNat_leBytes, Nat.mod_eq_of_lt]
    exact f.txTs.isLt
  unfold readFrame
  rw [h8, hpay, hts]
  obtain ⟨typ, vc, fill, seq, ack, nak, crVc, crCount, laneCmd, laneArg, rsvd, payload, txTs⟩ := f
  have := typ.isLt; have := vc.isLt; have := fill.isLt; have := seq.isLt; have := ack.isLt; have := nak.toNat_lt
  have := crVc.isLt; have := crCount.isLt; have := laneCmd.isLt; have := laneArg.isLt; have := rsvd.isLt
  simp only [headerBits, Frame.mk.injEq]
  refine ⟨?_, ?_, ?_, ?_, ?_, ?_, ?_, ?_, ?_, ?_, ?_, trivial, ?_⟩
  all_goals try (apply BitVec.eq_of_toNat_eq; simp only [BitVec.toNat_ofNat]; omega)
  cases nak <;> simp <;> omega

/-- What a receiver reads of the message of a frame that fills all its units (R253, R255). -/
theorem readMessage_frameSymbols {f : Frame} (h : f.payload.length = 624) :
    readMessage (frameSymbols f) = if frameFieldsOk f then .ok f else .error .fields := by
  have hlt : 10 + 16 * leNat (frameBytes f) < 1024 ^ 514 := by
    have := leNat_lt (frameBytes f)
    rw [length_frameBytes] at this
    have e : (1024 : Nat) ^ 514 = 16 * 256 ^ 642 := by
      rw [show (1024 : Nat) = 2 ^ 10 from rfl, show (256 : Nat) = 2 ^ 8 from rfl, show (16 : Nat) = 2 ^ 4 from rfl, ← pow_mul, ← pow_mul,
        ← pow_add]
    omega
  have hn : (frameSymbols f).foldr (fun a v => a % 1024 + 1024 * v) 0 = 10 + 16 * leNat (frameBytes f) := by
    rw [frameSymbols, foldr_digits, Nat.mod_eq_of_lt hlt]
  have h1 : (10 + 16 * leNat (frameBytes f)) % 16 = 10 := by omega
  have h2 : (10 + 16 * leNat (frameBytes f)) / 16 = leNat (frameBytes f) := by omega
  have hb : leBytes 642 (leNat (frameBytes f)) = frameBytes f := by
    rw [← length_frameBytes f]; exact leBytes_leNat _
  have ht : (frameBytes f).take 638 = frameBody f := by rw [frameBytes, List.take_left' (length_frameBody f)]
  have hd : leNat ((frameBytes f).drop 638) = (crc32 (frameBody f)).toNat := by
    rw [frameBytes, List.drop_left' (length_frameBody f), leNat_leBytes, Nat.mod_eq_of_lt]
    exact (crc32 (frameBody f)).isLt
  simp only [readMessage, hn, h1, h2, hb, ht, hd, readFrame_frameBytes h]
  simp

end Sys2Proof.Machine
end

