-- ==== Sys2Proof/Laws/Map.lean ====
section
/-!
SUPPORT. The laws of sparse data: a key reads what was put there, every other key reads as before, and every operation keeps
the canonical form.
-/

namespace Sys2Proof.Machine

variable {α : Type}

@[simp] theorem mapFind_mapPut_same (k : Nat) (v : α) (m : SMap α) : mapFind k (mapPut k v m) = some v := by
  induction m with
  | nil => simp [mapPut, mapFind]
  | cons e r ih =>
    simp only [mapPut]
    split
    · simp [mapFind]
    · split
      · simp [mapFind]
      · next h _ => simp [mapFind, h, ih]

theorem mapFind_mapPut_other {k j : Nat} (h : j ≠ k) (v : α) (m : SMap α) : mapFind j (mapPut k v m) = mapFind j m := by
  induction m with
  | nil => simp [mapPut, mapFind, Ne.symm h]
  | cons e r ih =>
    simp only [mapPut]
    split
    · next he => subst he; simp [mapFind, Ne.symm h]
    · split
      · simp [mapFind, Ne.symm h]
      · simp [mapFind, ih]

@[simp] theorem mapFind_mapErase_same (k : Nat) (m : SMap α) : mapFind k (mapErase k m) = none := by
  induction m with
  | nil => simp [mapErase, mapFind]
  | cons e r ih =>
    simp only [mapErase]
    split
    · exact ih
    · next he => simp [mapFind, he, ih]

theorem mapFind_mapErase_other {k j : Nat} (h : j ≠ k) (m : SMap α) : mapFind j (mapErase k m) = mapFind j m := by
  induction m with
  | nil => simp [mapErase]
  | cons e r ih =>
    simp only [mapErase]
    split
    · next he => subst he; simp [mapFind, Ne.symm h, ih]
    · simp [mapFind, ih]

@[simp] theorem mapGet_mapPut_same (d : Nat → α) (k : Nat) (v : α) (m : SMap α) : mapGet d k (mapPut k v m) = v := by
  simp [mapGet]

theorem mapGet_mapPut_other {k j : Nat} (h : j ≠ k) (d : Nat → α) (v : α) (m : SMap α) :
    mapGet d j (mapPut k v m) = mapGet d j m := by
  simp [mapGet, mapFind_mapPut_other h]

@[simp] theorem mapGet_mapErase_same (d : Nat → α) (k : Nat) (m : SMap α) : mapGet d k (mapErase k m) = d k := by
  simp [mapGet]

theorem mapGet_mapErase_other {k j : Nat} (h : j ≠ k) (d : Nat → α) (m : SMap α) : mapGet d j (mapErase k m) = mapGet d j m := by
  simp [mapGet, mapFind_mapErase_other h]

@[simp] theorem mapGet_mapSet_same [DecidableEq α] (d : Nat → α) (k : Nat) (v : α) (m : SMap α) : mapGet d k (mapSet d k v m) = v := by
  unfold mapSet
  split
  · next h => simp [h]
  · simp

theorem mapGet_mapSet_other [DecidableEq α] {k j : Nat} (h : j ≠ k) (d : Nat → α) (v : α) (m : SMap α) :
    mapGet d j (mapSet d k v m) = mapGet d j m := by
  unfold mapSet
  split
  · exact mapGet_mapErase_other h d m
  · exact mapGet_mapPut_other h d v m

@[simp] theorem mapPut_mapPut (k : Nat) (v w : α) (m : SMap α) : mapPut k v (mapPut k w m) = mapPut k v m := by
  induction m with
  | nil => simp [mapPut]
  | cons e r ih =>
    simp only [mapPut]
    split
    · simp [mapPut]
    · split
      · simp [mapPut]
      · next h h2 => simp [mapPut, h, h2, ih]

/-- Setting a key to a value that is listed forgets what was set there before. -/
theorem mapSet_mapSet_listed [DecidableEq α] (d : Nat → α) (k : Nat) (v w : α) (m : SMap α) (hv : v ≠ d k) (hw : w ≠ d k) :
    mapSet d k v (mapSet d k w m) = mapSet d k v m := by
  simp [mapSet, hv, hw]

/-! ### The canonical form -/

section wf
variable [DecidableEq α] (d : Nat → α)

theorem mapWfFrom_mono {lo lo' : Nat} (h : lo' ≤ lo) (m : SMap α) (hm : mapWfFrom d lo m = true) : mapWfFrom d lo' m = true := by
  cases m with
  | nil => rfl
  | cons e r => simp [mapWfFrom] at *; exact ⟨⟨h.trans hm.1.1, hm.1.2⟩, hm.2⟩

theorem mapWfFrom_mapPut (k : Nat) (v : α) (hv : v ≠ d k) (m : SMap α) (lo : Nat) (hlo : lo ≤ k) (hm : mapWfFrom d lo m = true) :
    mapWfFrom d lo (mapPut k v m) = true := by
  induction m generalizing lo with
  | nil => simp [mapPut, mapWfFrom, hlo, hv]
  | cons e r ih =>
    simp only [mapWfFrom, Bool.and_eq_true, decide_eq_true_eq] at hm
    simp only [mapPut]
    split
    · next he => subst he; simp [mapWfFrom, hlo, hv, hm.2]
    · split
      · next he hk => simp [mapWfFrom, hlo, hv, hm.1.2, hm.2]; omega
      · next he hk => simpa [mapWfFrom, hm.1.1, ih (e.1 + 1) (by omega) hm.2] using hm.1.2

theorem mapWfFrom_mapErase (k : Nat) (m : SMap α) (lo : Nat) (hm : mapWfFrom d lo m = true) : mapWfFrom d lo (mapErase k m) = true := by
  induction m generalizing lo with
  | nil => rfl
  | cons e r ih =>
    simp only [mapWfFrom, Bool.and_eq_true, decide_eq_true_eq] at hm
    simp only [mapErase]
    split
    · exact ih _ (mapWfFrom_mono d (by omega) r hm.2)
    · simpa [mapWfFrom, hm.1.1, ih _ hm.2] using hm.1.2

/-- Putting a value that an unlisted key does not read as keeps the form. -/
theorem mapWf_mapPut (k : Nat) (v : α) (hv : v ≠ d k) (m : SMap α) (hm : mapWf d m = true) : mapWf d (mapPut k v m) = true :=
  mapWfFrom_mapPut d k v hv m 0 (Nat.zero_le k) hm

/-- Unlisting a key keeps the form. -/
theorem mapWf_mapErase (k : Nat) (m : SMap α) (hm : mapWf d m = true) : mapWf d (mapErase k m) = true :=
  mapWfFrom_mapErase d k m 0 hm

/-- Setting a key keeps the form. -/
theorem mapWf_mapSet (k : Nat) (v : α) (m : SMap α) (hm : mapWf d m = true) : mapWf d (mapSet d k v m) = true := by
  unfold mapSet
  split
  · exact mapWf_mapErase d k m hm
  · next h => exact mapWf_mapPut d k v h m hm

theorem mapWfFrom_filter (p : Nat × α → Bool) (m : SMap α) (lo : Nat) (hm : mapWfFrom d lo m = true) :
    mapWfFrom d lo (m.filter p) = true := by
  induction m generalizing lo with
  | nil => rfl
  | cons e r ih =>
    simp only [mapWfFrom, Bool.and_eq_true, decide_eq_true_eq] at hm
    by_cases h : p e = true
    · rw [List.filter_cons_of_pos h]
      simpa [mapWfFrom, hm.1.1, ih _ hm.2] using hm.1.2
    · rw [List.filter_cons_of_neg h]
      exact ih _ (mapWfFrom_mono d (by omega) r hm.2)

/-- Dropping entries keeps the form. -/
theorem mapWf_filter (p : Nat × α → Bool) (m : SMap α) (hm : mapWf d m = true) : mapWf d (m.filter p) = true :=
  mapWfFrom_filter d p m 0 hm

end wf

end Sys2Proof.Machine
end

