-- ==== Sys2Proof/Laws/State.lean ====
section
/-!
SUPPORT. What each update of the state leaves in each field: one lemma per field and update.
-/

namespace Sys2Proof.Machine

variable (s : State)

/-! ### setRegWord -/

@[simp] theorem setRegWord_time (page off : Nat) (w : Word) : (setRegWord s page off w).time = s.time := rfl
@[simp] theorem setRegWord_wardOff (page off : Nat) (w : Word) : (setRegWord s page off w).wardOff = s.wardOff := rfl
@[simp] theorem setRegWord_regs (page off : Nat) (w : Word) : (setRegWord s page off w).regs = mapSet regDefault (regKey page off) w s.regs := rfl
@[simp] theorem setRegWord_wide (page off : Nat) (w : Word) : (setRegWord s page off w).wide = s.wide := rfl
@[simp] theorem setRegWord_mailbox (page off : Nat) (w : Word) : (setRegWord s page off w).mailbox = s.mailbox := rfl
@[simp] theorem setRegWord_triple (page off : Nat) (w : Word) : (setRegWord s page off w).triple = s.triple := rfl
@[simp] theorem setRegWord_resp (page off : Nat) (w : Word) : (setRegWord s page off w).resp = s.resp := rfl
@[simp] theorem setRegWord_cores (page off : Nat) (w : Word) : (setRegWord s page off w).cores = s.cores := rfl
@[simp] theorem setRegWord_disps (page off : Nat) (w : Word) : (setRegWord s page off w).disps = s.disps := rfl
@[simp] theorem setRegWord_mem (page off : Nat) (w : Word) : (setRegWord s page off w).mem = s.mem := rfl
@[simp] theorem setRegWord_ports (page off : Nat) (w : Word) : (setRegWord s page off w).ports = s.ports := rfl
@[simp] theorem setRegWord_net (page off : Nat) (w : Word) : (setRegWord s page off w).net = s.net := rfl
@[simp] theorem setRegWord_ledgers (page off : Nat) (w : Word) : (setRegWord s page off w).ledgers = s.ledgers := rfl
@[simp] theorem setRegWord_upds (page off : Nat) (w : Word) : (setRegWord s page off w).upds = s.upds := rfl
@[simp] theorem setRegWord_store (page off : Nat) (w : Word) : (setRegWord s page off w).store = s.store := rfl
@[simp] theorem setRegWord_job (page off : Nat) (w : Word) : (setRegWord s page off w).job = s.job := rfl
@[simp] theorem setRegWord_planNext (page off : Nat) (w : Word) : (setRegWord s page off w).planNext = s.planNext := rfl
@[simp] theorem setRegWord_ingest (page off : Nat) (w : Word) : (setRegWord s page off w).ingest = s.ingest := rfl
@[simp] theorem setRegWord_health (page off : Nat) (w : Word) : (setRegWord s page off w).health = s.health := rfl
@[simp] theorem setRegWord_clk (page off : Nat) (w : Word) : (setRegWord s page off w).clk = s.clk := rfl
@[simp] theorem setRegWord_power (page off : Nat) (w : Word) : (setRegWord s page off w).power = s.power := rfl
@[simp] theorem setRegWord_therm (page off : Nat) (w : Word) : (setRegWord s page off w).therm = s.therm := rfl
@[simp] theorem setRegWord_mgmt (page off : Nat) (w : Word) : (setRegWord s page off w).mgmt = s.mgmt := rfl
@[simp] theorem setRegWord_sec (page off : Nat) (w : Word) : (setRegWord s page off w).sec = s.sec := rfl
@[simp] theorem setRegWord_sys (page off : Nat) (w : Word) : (setRegWord s page off w).sys = s.sys := rfl
@[simp] theorem setRegWord_freeCount (page off : Nat) (w : Word) : (setRegWord s page off w).freeCount = s.freeCount := rfl
@[simp] theorem setRegWord_pending (page off : Nat) (w : Word) : (setRegWord s page off w).pending = s.pending := rfl

/-! ### setFld -/

@[simp] theorem setFld_time (page : Nat) (f : FieldDef) (v : Nat) : (setFld s page f v).time = s.time := rfl
@[simp] theorem setFld_wardOff (page : Nat) (f : FieldDef) (v : Nat) : (setFld s page f v).wardOff = s.wardOff := rfl
@[simp] theorem setFld_wide (page : Nat) (f : FieldDef) (v : Nat) : (setFld s page f v).wide = s.wide := rfl
@[simp] theorem setFld_mailbox (page : Nat) (f : FieldDef) (v : Nat) : (setFld s page f v).mailbox = s.mailbox := rfl
@[simp] theorem setFld_triple (page : Nat) (f : FieldDef) (v : Nat) : (setFld s page f v).triple = s.triple := rfl
@[simp] theorem setFld_resp (page : Nat) (f : FieldDef) (v : Nat) : (setFld s page f v).resp = s.resp := rfl
@[simp] theorem setFld_cores (page : Nat) (f : FieldDef) (v : Nat) : (setFld s page f v).cores = s.cores := rfl
@[simp] theorem setFld_disps (page : Nat) (f : FieldDef) (v : Nat) : (setFld s page f v).disps = s.disps := rfl
@[simp] theorem setFld_mem (page : Nat) (f : FieldDef) (v : Nat) : (setFld s page f v).mem = s.mem := rfl
@[simp] theorem setFld_ports (page : Nat) (f : FieldDef) (v : Nat) : (setFld s page f v).ports = s.ports := rfl
@[simp] theorem setFld_net (page : Nat) (f : FieldDef) (v : Nat) : (setFld s page f v).net = s.net := rfl
@[simp] theorem setFld_ledgers (page : Nat) (f : FieldDef) (v : Nat) : (setFld s page f v).ledgers = s.ledgers := rfl
@[simp] theorem setFld_upds (page : Nat) (f : FieldDef) (v : Nat) : (setFld s page f v).upds = s.upds := rfl
@[simp] theorem setFld_store (page : Nat) (f : FieldDef) (v : Nat) : (setFld s page f v).store = s.store := rfl
@[simp] theorem setFld_job (page : Nat) (f : FieldDef) (v : Nat) : (setFld s page f v).job = s.job := rfl
@[simp] theorem setFld_planNext (page : Nat) (f : FieldDef) (v : Nat) : (setFld s page f v).planNext = s.planNext := rfl
@[simp] theorem setFld_ingest (page : Nat) (f : FieldDef) (v : Nat) : (setFld s page f v).ingest = s.ingest := rfl
@[simp] theorem setFld_health (page : Nat) (f : FieldDef) (v : Nat) : (setFld s page f v).health = s.health := rfl
@[simp] theorem setFld_clk (page : Nat) (f : FieldDef) (v : Nat) : (setFld s page f v).clk = s.clk := rfl
@[simp] theorem setFld_power (page : Nat) (f : FieldDef) (v : Nat) : (setFld s page f v).power = s.power := rfl
@[simp] theorem setFld_therm (page : Nat) (f : FieldDef) (v : Nat) : (setFld s page f v).therm = s.therm := rfl
@[simp] theorem setFld_mgmt (page : Nat) (f : FieldDef) (v : Nat) : (setFld s page f v).mgmt = s.mgmt := rfl
@[simp] theorem setFld_sec (page : Nat) (f : FieldDef) (v : Nat) : (setFld s page f v).sec = s.sec := rfl
@[simp] theorem setFld_sys (page : Nat) (f : FieldDef) (v : Nat) : (setFld s page f v).sys = s.sys := rfl
@[simp] theorem setFld_freeCount (page : Nat) (f : FieldDef) (v : Nat) : (setFld s page f v).freeCount = s.freeCount := rfl
@[simp] theorem setFld_pending (page : Nat) (f : FieldDef) (v : Nat) : (setFld s page f v).pending = s.pending := rfl

/-! ### setFlag -/

@[simp] theorem setFlag_time (page : Nat) (f : FieldDef) (b : Bool) : (setFlag s page f b).time = s.time := rfl
@[simp] theorem setFlag_wardOff (page : Nat) (f : FieldDef) (b : Bool) : (setFlag s page f b).wardOff = s.wardOff := rfl
@[simp] theorem setFlag_wide (page : Nat) (f : FieldDef) (b : Bool) : (setFlag s page f b).wide = s.wide := rfl
@[simp] theorem setFlag_mailbox (page : Nat) (f : FieldDef) (b : Bool) : (setFlag s page f b).mailbox = s.mailbox := rfl
@[simp] theorem setFlag_triple (page : Nat) (f : FieldDef) (b : Bool) : (setFlag s page f b).triple = s.triple := rfl
@[simp] theorem setFlag_resp (page : Nat) (f : FieldDef) (b : Bool) : (setFlag s page f b).resp = s.resp := rfl
@[simp] theorem setFlag_cores (page : Nat) (f : FieldDef) (b : Bool) : (setFlag s page f b).cores = s.cores := rfl
@[simp] theorem setFlag_disps (page : Nat) (f : FieldDef) (b : Bool) : (setFlag s page f b).disps = s.disps := rfl
@[simp] theorem setFlag_mem (page : Nat) (f : FieldDef) (b : Bool) : (setFlag s page f b).mem = s.mem := rfl
@[simp] theorem setFlag_ports (page : Nat) (f : FieldDef) (b : Bool) : (setFlag s page f b).ports = s.ports := rfl
@[simp] theorem setFlag_net (page : Nat) (f : FieldDef) (b : Bool) : (setFlag s page f b).net = s.net := rfl
@[simp] theorem setFlag_ledgers (page : Nat) (f : FieldDef) (b : Bool) : (setFlag s page f b).ledgers = s.ledgers := rfl
@[simp] theorem setFlag_upds (page : Nat) (f : FieldDef) (b : Bool) : (setFlag s page f b).upds = s.upds := rfl
@[simp] theorem setFlag_store (page : Nat) (f : FieldDef) (b : Bool) : (setFlag s page f b).store = s.store := rfl
@[simp] theorem setFlag_job (page : Nat) (f : FieldDef) (b : Bool) : (setFlag s page f b).job = s.job := rfl
@[simp] theorem setFlag_planNext (page : Nat) (f : FieldDef) (b : Bool) : (setFlag s page f b).planNext = s.planNext := rfl
@[simp] theorem setFlag_ingest (page : Nat) (f : FieldDef) (b : Bool) : (setFlag s page f b).ingest = s.ingest := rfl
@[simp] theorem setFlag_health (page : Nat) (f : FieldDef) (b : Bool) : (setFlag s page f b).health = s.health := rfl
@[simp] theorem setFlag_clk (page : Nat) (f : FieldDef) (b : Bool) : (setFlag s page f b).clk = s.clk := rfl
@[simp] theorem setFlag_power (page : Nat) (f : FieldDef) (b : Bool) : (setFlag s page f b).power = s.power := rfl
@[simp] theorem setFlag_therm (page : Nat) (f : FieldDef) (b : Bool) : (setFlag s page f b).therm = s.therm := rfl
@[simp] theorem setFlag_mgmt (page : Nat) (f : FieldDef) (b : Bool) : (setFlag s page f b).mgmt = s.mgmt := rfl
@[simp] theorem setFlag_sec (page : Nat) (f : FieldDef) (b : Bool) : (setFlag s page f b).sec = s.sec := rfl
@[simp] theorem setFlag_sys (page : Nat) (f : FieldDef) (b : Bool) : (setFlag s page f b).sys = s.sys := rfl
@[simp] theorem setFlag_freeCount (page : Nat) (f : FieldDef) (b : Bool) : (setFlag s page f b).freeCount = s.freeCount := rfl
@[simp] theorem setFlag_pending (page : Nat) (f : FieldDef) (b : Bool) : (setFlag s page f b).pending = s.pending := rfl

/-! ### raise -/

@[simp] theorem raise_time (page bit : Nat) : (raise s page bit).time = s.time := rfl
@[simp] theorem raise_wardOff (page bit : Nat) : (raise s page bit).wardOff = s.wardOff := rfl
@[simp] theorem raise_wide (page bit : Nat) : (raise s page bit).wide = s.wide := rfl
@[simp] theorem raise_mailbox (page bit : Nat) : (raise s page bit).mailbox = s.mailbox := rfl
@[simp] theorem raise_triple (page bit : Nat) : (raise s page bit).triple = s.triple := rfl
@[simp] theorem raise_resp (page bit : Nat) : (raise s page bit).resp = s.resp := rfl
@[simp] theorem raise_cores (page bit : Nat) : (raise s page bit).cores = s.cores := rfl
@[simp] theorem raise_disps (page bit : Nat) : (raise s page bit).disps = s.disps := rfl
@[simp] theorem raise_mem (page bit : Nat) : (raise s page bit).mem = s.mem := rfl
@[simp] theorem raise_ports (page bit : Nat) : (raise s page bit).ports = s.ports := rfl
@[simp] theorem raise_net (page bit : Nat) : (raise s page bit).net = s.net := rfl
@[simp] theorem raise_ledgers (page bit : Nat) : (raise s page bit).ledgers = s.ledgers := rfl
@[simp] theorem raise_upds (page bit : Nat) : (raise s page bit).upds = s.upds := rfl
@[simp] theorem raise_store (page bit : Nat) : (raise s page bit).store = s.store := rfl
@[simp] theorem raise_job (page bit : Nat) : (raise s page bit).job = s.job := rfl
@[simp] theorem raise_planNext (page bit : Nat) : (raise s page bit).planNext = s.planNext := rfl
@[simp] theorem raise_ingest (page bit : Nat) : (raise s page bit).ingest = s.ingest := rfl
@[simp] theorem raise_health (page bit : Nat) : (raise s page bit).health = s.health := rfl
@[simp] theorem raise_clk (page bit : Nat) : (raise s page bit).clk = s.clk := rfl
@[simp] theorem raise_power (page bit : Nat) : (raise s page bit).power = s.power := rfl
@[simp] theorem raise_therm (page bit : Nat) : (raise s page bit).therm = s.therm := rfl
@[simp] theorem raise_mgmt (page bit : Nat) : (raise s page bit).mgmt = s.mgmt := rfl
@[simp] theorem raise_sec (page bit : Nat) : (raise s page bit).sec = s.sec := rfl
@[simp] theorem raise_sys (page bit : Nat) : (raise s page bit).sys = s.sys := rfl
@[simp] theorem raise_freeCount (page bit : Nat) : (raise s page bit).freeCount = s.freeCount := rfl
@[simp] theorem raise_pending (page bit : Nat) : (raise s page bit).pending = s.pending := rfl

/-! ### raiseIf -/

@[simp] theorem raiseIf_time (c : Bool) (page bit : Nat) : (raiseIf c s page bit).time = s.time := by cases c <;> rfl
@[simp] theorem raiseIf_wardOff (c : Bool) (page bit : Nat) : (raiseIf c s page bit).wardOff = s.wardOff := by cases c <;> rfl
@[simp] theorem raiseIf_wide (c : Bool) (page bit : Nat) : (raiseIf c s page bit).wide = s.wide := by cases c <;> rfl
@[simp] theorem raiseIf_mailbox (c : Bool) (page bit : Nat) : (raiseIf c s page bit).mailbox = s.mailbox := by cases c <;> rfl
@[simp] theorem raiseIf_triple (c : Bool) (page bit : Nat) : (raiseIf c s page bit).triple = s.triple := by cases c <;> rfl
@[simp] theorem raiseIf_resp (c : Bool) (page bit : Nat) : (raiseIf c s page bit).resp = s.resp := by cases c <;> rfl
@[simp] theorem raiseIf_cores (c : Bool) (page bit : Nat) : (raiseIf c s page bit).cores = s.cores := by cases c <;> rfl
@[simp] theorem raiseIf_disps (c : Bool) (page bit : Nat) : (raiseIf c s page bit).disps = s.disps := by cases c <;> rfl
@[simp] theorem raiseIf_mem (c : Bool) (page bit : Nat) : (raiseIf c s page bit).mem = s.mem := by cases c <;> rfl
@[simp] theorem raiseIf_ports (c : Bool) (page bit : Nat) : (raiseIf c s page bit).ports = s.ports := by cases c <;> rfl
@[simp] theorem raiseIf_net (c : Bool) (page bit : Nat) : (raiseIf c s page bit).net = s.net := by cases c <;> rfl
@[simp] theorem raiseIf_ledgers (c : Bool) (page bit : Nat) : (raiseIf c s page bit).ledgers = s.ledgers := by cases c <;> rfl
@[simp] theorem raiseIf_upds (c : Bool) (page bit : Nat) : (raiseIf c s page bit).upds = s.upds := by cases c <;> rfl
@[simp] theorem raiseIf_store (c : Bool) (page bit : Nat) : (raiseIf c s page bit).store = s.store := by cases c <;> rfl
@[simp] theorem raiseIf_job (c : Bool) (page bit : Nat) : (raiseIf c s page bit).job = s.job := by cases c <;> rfl
@[simp] theorem raiseIf_planNext (c : Bool) (page bit : Nat) : (raiseIf c s page bit).planNext = s.planNext := by cases c <;> rfl
@[simp] theorem raiseIf_ingest (c : Bool) (page bit : Nat) : (raiseIf c s page bit).ingest = s.ingest := by cases c <;> rfl
@[simp] theorem raiseIf_health (c : Bool) (page bit : Nat) : (raiseIf c s page bit).health = s.health := by cases c <;> rfl
@[simp] theorem raiseIf_clk (c : Bool) (page bit : Nat) : (raiseIf c s page bit).clk = s.clk := by cases c <;> rfl
@[simp] theorem raiseIf_power (c : Bool) (page bit : Nat) : (raiseIf c s page bit).power = s.power := by cases c <;> rfl
@[simp] theorem raiseIf_therm (c : Bool) (page bit : Nat) : (raiseIf c s page bit).therm = s.therm := by cases c <;> rfl
@[simp] theorem raiseIf_mgmt (c : Bool) (page bit : Nat) : (raiseIf c s page bit).mgmt = s.mgmt := by cases c <;> rfl
@[simp] theorem raiseIf_sec (c : Bool) (page bit : Nat) : (raiseIf c s page bit).sec = s.sec := by cases c <;> rfl
@[simp] theorem raiseIf_sys (c : Bool) (page bit : Nat) : (raiseIf c s page bit).sys = s.sys := by cases c <;> rfl
@[simp] theorem raiseIf_freeCount (c : Bool) (page bit : Nat) : (raiseIf c s page bit).freeCount = s.freeCount := by cases c <;> rfl
@[simp] theorem raiseIf_pending (c : Bool) (page bit : Nat) : (raiseIf c s page bit).pending = s.pending := by cases c <;> rfl
@[simp] theorem raiseIf_false (page bit : Nat) : raiseIf false s page bit = s := rfl
@[simp] theorem raiseIf_true (page bit : Nat) : raiseIf true s page bit = raise s page bit := rfl

/-! ### bumpBy -/

@[simp] theorem bumpBy_time (page : Nat) (f : FieldDef) (n : Nat) : (bumpBy s page f n).time = s.time := by unfold bumpBy; split <;> rfl
@[simp] theorem bumpBy_wardOff (page : Nat) (f : FieldDef) (n : Nat) : (bumpBy s page f n).wardOff = s.wardOff := by unfold bumpBy; split <;> rfl
@[simp] theorem bumpBy_wide (page : Nat) (f : FieldDef) (n : Nat) : (bumpBy s page f n).wide = s.wide := by unfold bumpBy; split <;> rfl
@[simp] theorem bumpBy_mailbox (page : Nat) (f : FieldDef) (n : Nat) : (bumpBy s page f n).mailbox = s.mailbox := by unfold bumpBy; split <;> rfl
@[simp] theorem bumpBy_triple (page : Nat) (f : FieldDef) (n : Nat) : (bumpBy s page f n).triple = s.triple := by unfold bumpBy; split <;> rfl
@[simp] theorem bumpBy_resp (page : Nat) (f : FieldDef) (n : Nat) : (bumpBy s page f n).resp = s.resp := by unfold bumpBy; split <;> rfl
@[simp] theorem bumpBy_cores (page : Nat) (f : FieldDef) (n : Nat) : (bumpBy s page f n).cores = s.cores := by unfold bumpBy; split <;> rfl
@[simp] theorem bumpBy_disps (page : Nat) (f : FieldDef) (n : Nat) : (bumpBy s page f n).disps = s.disps := by unfold bumpBy; split <;> rfl
@[simp] theorem bumpBy_mem (page : Nat) (f : FieldDef) (n : Nat) : (bumpBy s page f n).mem = s.mem := by unfold bumpBy; split <;> rfl
@[simp] theorem bumpBy_ports (page : Nat) (f : FieldDef) (n : Nat) : (bumpBy s page f n).ports = s.ports := by unfold bumpBy; split <;> rfl
@[simp] theorem bumpBy_net (page : Nat) (f : FieldDef) (n : Nat) : (bumpBy s page f n).net = s.net := by unfold bumpBy; split <;> rfl
@[simp] theorem bumpBy_ledgers (page : Nat) (f : FieldDef) (n : Nat) : (bumpBy s page f n).ledgers = s.ledgers := by unfold bumpBy; split <;> rfl
@[simp] theorem bumpBy_upds (page : Nat) (f : FieldDef) (n : Nat) : (bumpBy s page f n).upds = s.upds := by unfold bumpBy; split <;> rfl
@[simp] theorem bumpBy_store (page : Nat) (f : FieldDef) (n : Nat) : (bumpBy s page f n).store = s.store := by unfold bumpBy; split <;> rfl
@[simp] theorem bumpBy_job (page : Nat) (f : FieldDef) (n : Nat) : (bumpBy s page f n).job = s.job := by unfold bumpBy; split <;> rfl
@[simp] theorem bumpBy_planNext (page : Nat) (f : FieldDef) (n : Nat) : (bumpBy s page f n).planNext = s.planNext := by unfold bumpBy; split <;> rfl
@[simp] theorem bumpBy_ingest (page : Nat) (f : FieldDef) (n : Nat) : (bumpBy s page f n).ingest = s.ingest := by unfold bumpBy; split <;> rfl
@[simp] theorem bumpBy_health (page : Nat) (f : FieldDef) (n : Nat) : (bumpBy s page f n).health = s.health := by unfold bumpBy; split <;> rfl
@[simp] theorem bumpBy_clk (page : Nat) (f : FieldDef) (n : Nat) : (bumpBy s page f n).clk = s.clk := by unfold bumpBy; split <;> rfl
@[simp] theorem bumpBy_power (page : Nat) (f : FieldDef) (n : Nat) : (bumpBy s page f n).power = s.power := by unfold bumpBy; split <;> rfl
@[simp] theorem bumpBy_therm (page : Nat) (f : FieldDef) (n : Nat) : (bumpBy s page f n).therm = s.therm := by unfold bumpBy; split <;> rfl
@[simp] theorem bumpBy_mgmt (page : Nat) (f : FieldDef) (n : Nat) : (bumpBy s page f n).mgmt = s.mgmt := by unfold bumpBy; split <;> rfl
@[simp] theorem bumpBy_sec (page : Nat) (f : FieldDef) (n : Nat) : (bumpBy s page f n).sec = s.sec := by unfold bumpBy; split <;> rfl
@[simp] theorem bumpBy_sys (page : Nat) (f : FieldDef) (n : Nat) : (bumpBy s page f n).sys = s.sys := by unfold bumpBy; split <;> rfl
@[simp] theorem bumpBy_freeCount (page : Nat) (f : FieldDef) (n : Nat) : (bumpBy s page f n).freeCount = s.freeCount := by unfold bumpBy; split <;> rfl
@[simp] theorem bumpBy_pending (page : Nat) (f : FieldDef) (n : Nat) : (bumpBy s page f n).pending = s.pending := by unfold bumpBy; split <;> rfl

/-! ### bump -/

@[simp] theorem bump_time (page : Nat) (f : FieldDef) : (bump s page f).time = s.time := bumpBy_time s page f 1
@[simp] theorem bump_wardOff (page : Nat) (f : FieldDef) : (bump s page f).wardOff = s.wardOff := bumpBy_wardOff s page f 1
@[simp] theorem bump_wide (page : Nat) (f : FieldDef) : (bump s page f).wide = s.wide := bumpBy_wide s page f 1
@[simp] theorem bump_mailbox (page : Nat) (f : FieldDef) : (bump s page f).mailbox = s.mailbox := bumpBy_mailbox s page f 1
@[simp] theorem bump_triple (page : Nat) (f : FieldDef) : (bump s page f).triple = s.triple := bumpBy_triple s page f 1
@[simp] theorem bump_resp (page : Nat) (f : FieldDef) : (bump s page f).resp = s.resp := bumpBy_resp s page f 1
@[simp] theorem bump_cores (page : Nat) (f : FieldDef) : (bump s page f).cores = s.cores := bumpBy_cores s page f 1
@[simp] theorem bump_disps (page : Nat) (f : FieldDef) : (bump s page f).disps = s.disps := bumpBy_disps s page f 1
@[simp] theorem bump_mem (page : Nat) (f : FieldDef) : (bump s page f).mem = s.mem := bumpBy_mem s page f 1
@[simp] theorem bump_ports (page : Nat) (f : FieldDef) : (bump s page f).ports = s.ports := bumpBy_ports s page f 1
@[simp] theorem bump_net (page : Nat) (f : FieldDef) : (bump s page f).net = s.net := bumpBy_net s page f 1
@[simp] theorem bump_ledgers (page : Nat) (f : FieldDef) : (bump s page f).ledgers = s.ledgers := bumpBy_ledgers s page f 1
@[simp] theorem bump_upds (page : Nat) (f : FieldDef) : (bump s page f).upds = s.upds := bumpBy_upds s page f 1
@[simp] theorem bump_store (page : Nat) (f : FieldDef) : (bump s page f).store = s.store := bumpBy_store s page f 1
@[simp] theorem bump_job (page : Nat) (f : FieldDef) : (bump s page f).job = s.job := bumpBy_job s page f 1
@[simp] theorem bump_planNext (page : Nat) (f : FieldDef) : (bump s page f).planNext = s.planNext := bumpBy_planNext s page f 1
@[simp] theorem bump_ingest (page : Nat) (f : FieldDef) : (bump s page f).ingest = s.ingest := bumpBy_ingest s page f 1
@[simp] theorem bump_health (page : Nat) (f : FieldDef) : (bump s page f).health = s.health := bumpBy_health s page f 1
@[simp] theorem bump_clk (page : Nat) (f : FieldDef) : (bump s page f).clk = s.clk := bumpBy_clk s page f 1
@[simp] theorem bump_power (page : Nat) (f : FieldDef) : (bump s page f).power = s.power := bumpBy_power s page f 1
@[simp] theorem bump_therm (page : Nat) (f : FieldDef) : (bump s page f).therm = s.therm := bumpBy_therm s page f 1
@[simp] theorem bump_mgmt (page : Nat) (f : FieldDef) : (bump s page f).mgmt = s.mgmt := bumpBy_mgmt s page f 1
@[simp] theorem bump_sec (page : Nat) (f : FieldDef) : (bump s page f).sec = s.sec := bumpBy_sec s page f 1
@[simp] theorem bump_sys (page : Nat) (f : FieldDef) : (bump s page f).sys = s.sys := bumpBy_sys s page f 1
@[simp] theorem bump_freeCount (page : Nat) (f : FieldDef) : (bump s page f).freeCount = s.freeCount := bumpBy_freeCount s page f 1
@[simp] theorem bump_pending (page : Nat) (f : FieldDef) : (bump s page f).pending = s.pending := bumpBy_pending s page f 1

/-! ### setWide -/

@[simp] theorem setWide_time (page : Nat) (d : WideDef) (v : Wide) : (setWide s page d v).time = s.time := by unfold setWide; rfl
@[simp] theorem setWide_wardOff (page : Nat) (d : WideDef) (v : Wide) : (setWide s page d v).wardOff = s.wardOff := by unfold setWide; rfl
@[simp] theorem setWide_regs (page : Nat) (d : WideDef) (v : Wide) : (setWide s page d v).regs = s.regs := by unfold setWide; rfl
@[simp] theorem setWide_wide (page : Nat) (d : WideDef) (v : Wide) : (setWide s page d v).wide = mapSet wideDefault (wideKey page d.vid) v s.wide := rfl
@[simp] theorem setWide_mailbox (page : Nat) (d : WideDef) (v : Wide) : (setWide s page d v).mailbox = s.mailbox := by unfold setWide; rfl
@[simp] theorem setWide_triple (page : Nat) (d : WideDef) (v : Wide) : (setWide s page d v).triple = s.triple := by unfold setWide; rfl
@[simp] theorem setWide_resp (page : Nat) (d : WideDef) (v : Wide) : (setWide s page d v).resp = s.resp := by unfold setWide; rfl
@[simp] theorem setWide_cores (page : Nat) (d : WideDef) (v : Wide) : (setWide s page d v).cores = s.cores := by unfold setWide; rfl
@[simp] theorem setWide_disps (page : Nat) (d : WideDef) (v : Wide) : (setWide s page d v).disps = s.disps := by unfold setWide; rfl
@[simp] theorem setWide_mem (page : Nat) (d : WideDef) (v : Wide) : (setWide s page d v).mem = s.mem := by unfold setWide; rfl
@[simp] theorem setWide_ports (page : Nat) (d : WideDef) (v : Wide) : (setWide s page d v).ports = s.ports := by unfold setWide; rfl
@[simp] theorem setWide_net (page : Nat) (d : WideDef) (v : Wide) : (setWide s page d v).net = s.net := by unfold setWide; rfl
@[simp] theorem setWide_ledgers (page : Nat) (d : WideDef) (v : Wide) : (setWide s page d v).ledgers = s.ledgers := by unfold setWide; rfl
@[simp] theorem setWide_upds (page : Nat) (d : WideDef) (v : Wide) : (setWide s page d v).upds = s.upds := by unfold setWide; rfl
@[simp] theorem setWide_store (page : Nat) (d : WideDef) (v : Wide) : (setWide s page d v).store = s.store := by unfold setWide; rfl
@[simp] theorem setWide_job (page : Nat) (d : WideDef) (v : Wide) : (setWide s page d v).job = s.job := by unfold setWide; rfl
@[simp] theorem setWide_planNext (page : Nat) (d : WideDef) (v : Wide) : (setWide s page d v).planNext = s.planNext := by unfold setWide; rfl
@[simp] theorem setWide_ingest (page : Nat) (d : WideDef) (v : Wide) : (setWide s page d v).ingest = s.ingest := by unfold setWide; rfl
@[simp] theorem setWide_health (page : Nat) (d : WideDef) (v : Wide) : (setWide s page d v).health = s.health := by unfold setWide; rfl
@[simp] theorem setWide_clk (page : Nat) (d : WideDef) (v : Wide) : (setWide s page d v).clk = s.clk := by unfold setWide; rfl
@[simp] theorem setWide_power (page : Nat) (d : WideDef) (v : Wide) : (setWide s page d v).power = s.power := by unfold setWide; rfl
@[simp] theorem setWide_therm (page : Nat) (d : WideDef) (v : Wide) : (setWide s page d v).therm = s.therm := by unfold setWide; rfl
@[simp] theorem setWide_mgmt (page : Nat) (d : WideDef) (v : Wide) : (setWide s page d v).mgmt = s.mgmt := by unfold setWide; rfl
@[simp] theorem setWide_sec (page : Nat) (d : WideDef) (v : Wide) : (setWide s page d v).sec = s.sec := by unfold setWide; rfl
@[simp] theorem setWide_sys (page : Nat) (d : WideDef) (v : Wide) : (setWide s page d v).sys = s.sys := by unfold setWide; rfl
@[simp] theorem setWide_freeCount (page : Nat) (d : WideDef) (v : Wide) : (setWide s page d v).freeCount = s.freeCount := by unfold setWide; rfl
@[simp] theorem setWide_pending (page : Nat) (d : WideDef) (v : Wide) : (setWide s page d v).pending = s.pending := by unfold setWide; rfl

/-! ### setMem -/

@[simp] theorem setMem_time (x : Mem) : (setMem s x).time = s.time := rfl
@[simp] theorem setMem_wardOff (x : Mem) : (setMem s x).wardOff = s.wardOff := rfl
@[simp] theorem setMem_regs (x : Mem) : (setMem s x).regs = s.regs := rfl
@[simp] theorem setMem_wide (x : Mem) : (setMem s x).wide = s.wide := rfl
@[simp] theorem setMem_mailbox (x : Mem) : (setMem s x).mailbox = s.mailbox := rfl
@[simp] theorem setMem_triple (x : Mem) : (setMem s x).triple = s.triple := rfl
@[simp] theorem setMem_resp (x : Mem) : (setMem s x).resp = s.resp := rfl
@[simp] theorem setMem_cores (x : Mem) : (setMem s x).cores = s.cores := rfl
@[simp] theorem setMem_disps (x : Mem) : (setMem s x).disps = s.disps := rfl
@[simp] theorem setMem_mem (x : Mem) : (setMem s x).mem = x := rfl
@[simp] theorem setMem_ports (x : Mem) : (setMem s x).ports = s.ports := rfl
@[simp] theorem setMem_net (x : Mem) : (setMem s x).net = s.net := rfl
@[simp] theorem setMem_ledgers (x : Mem) : (setMem s x).ledgers = s.ledgers := rfl
@[simp] theorem setMem_upds (x : Mem) : (setMem s x).upds = s.upds := rfl
@[simp] theorem setMem_store (x : Mem) : (setMem s x).store = s.store := rfl
@[simp] theorem setMem_job (x : Mem) : (setMem s x).job = s.job := rfl
@[simp] theorem setMem_planNext (x : Mem) : (setMem s x).planNext = s.planNext := rfl
@[simp] theorem setMem_ingest (x : Mem) : (setMem s x).ingest = s.ingest := rfl
@[simp] theorem setMem_health (x : Mem) : (setMem s x).health = s.health := rfl
@[simp] theorem setMem_clk (x : Mem) : (setMem s x).clk = s.clk := rfl
@[simp] theorem setMem_power (x : Mem) : (setMem s x).power = s.power := rfl
@[simp] theorem setMem_therm (x : Mem) : (setMem s x).therm = s.therm := rfl
@[simp] theorem setMem_mgmt (x : Mem) : (setMem s x).mgmt = s.mgmt := rfl
@[simp] theorem setMem_sec (x : Mem) : (setMem s x).sec = s.sec := rfl
@[simp] theorem setMem_sys (x : Mem) : (setMem s x).sys = s.sys := rfl
@[simp] theorem setMem_freeCount (x : Mem) : (setMem s x).freeCount = s.freeCount := rfl
@[simp] theorem setMem_pending (x : Mem) : (setMem s x).pending = s.pending := rfl

/-! ### setChan -/

@[simp] theorem setChan_time (c : Nat) (x : Chan) : (setChan s c x).time = s.time := rfl
@[simp] theorem setChan_wardOff (c : Nat) (x : Chan) : (setChan s c x).wardOff = s.wardOff := rfl
@[simp] theorem setChan_regs (c : Nat) (x : Chan) : (setChan s c x).regs = s.regs := rfl
@[simp] theorem setChan_wide (c : Nat) (x : Chan) : (setChan s c x).wide = s.wide := rfl
@[simp] theorem setChan_mailbox (c : Nat) (x : Chan) : (setChan s c x).mailbox = s.mailbox := rfl
@[simp] theorem setChan_triple (c : Nat) (x : Chan) : (setChan s c x).triple = s.triple := rfl
@[simp] theorem setChan_resp (c : Nat) (x : Chan) : (setChan s c x).resp = s.resp := rfl
@[simp] theorem setChan_cores (c : Nat) (x : Chan) : (setChan s c x).cores = s.cores := rfl
@[simp] theorem setChan_disps (c : Nat) (x : Chan) : (setChan s c x).disps = s.disps := rfl
@[simp] theorem setChan_mem (c : Nat) (x : Chan) : (setChan s c x).mem = { s.mem with chans := mapSet (fun _ => ({} : Chan)) c x s.mem.chans } := rfl
@[simp] theorem setChan_ports (c : Nat) (x : Chan) : (setChan s c x).ports = s.ports := rfl
@[simp] theorem setChan_net (c : Nat) (x : Chan) : (setChan s c x).net = s.net := rfl
@[simp] theorem setChan_ledgers (c : Nat) (x : Chan) : (setChan s c x).ledgers = s.ledgers := rfl
@[simp] theorem setChan_upds (c : Nat) (x : Chan) : (setChan s c x).upds = s.upds := rfl
@[simp] theorem setChan_store (c : Nat) (x : Chan) : (setChan s c x).store = s.store := rfl
@[simp] theorem setChan_job (c : Nat) (x : Chan) : (setChan s c x).job = s.job := rfl
@[simp] theorem setChan_planNext (c : Nat) (x : Chan) : (setChan s c x).planNext = s.planNext := rfl
@[simp] theorem setChan_ingest (c : Nat) (x : Chan) : (setChan s c x).ingest = s.ingest := rfl
@[simp] theorem setChan_health (c : Nat) (x : Chan) : (setChan s c x).health = s.health := rfl
@[simp] theorem setChan_clk (c : Nat) (x : Chan) : (setChan s c x).clk = s.clk := rfl
@[simp] theorem setChan_power (c : Nat) (x : Chan) : (setChan s c x).power = s.power := rfl
@[simp] theorem setChan_therm (c : Nat) (x : Chan) : (setChan s c x).therm = s.therm := rfl
@[simp] theorem setChan_mgmt (c : Nat) (x : Chan) : (setChan s c x).mgmt = s.mgmt := rfl
@[simp] theorem setChan_sec (c : Nat) (x : Chan) : (setChan s c x).sec = s.sec := rfl
@[simp] theorem setChan_sys (c : Nat) (x : Chan) : (setChan s c x).sys = s.sys := rfl
@[simp] theorem setChan_freeCount (c : Nat) (x : Chan) : (setChan s c x).freeCount = s.freeCount := rfl
@[simp] theorem setChan_pending (c : Nat) (x : Chan) : (setChan s c x).pending = s.pending := rfl

/-! ### setCore -/

@[simp] theorem setCore_time (g : Nat) (c : Core) : (setCore s g c).time = s.time := rfl
@[simp] theorem setCore_wardOff (g : Nat) (c : Core) : (setCore s g c).wardOff = s.wardOff := rfl
@[simp] theorem setCore_regs (g : Nat) (c : Core) : (setCore s g c).regs = s.regs := rfl
@[simp] theorem setCore_wide (g : Nat) (c : Core) : (setCore s g c).wide = s.wide := rfl
@[simp] theorem setCore_mailbox (g : Nat) (c : Core) : (setCore s g c).mailbox = s.mailbox := rfl
@[simp] theorem setCore_triple (g : Nat) (c : Core) : (setCore s g c).triple = s.triple := rfl
@[simp] theorem setCore_resp (g : Nat) (c : Core) : (setCore s g c).resp = s.resp := rfl
@[simp] theorem setCore_cores (g : Nat) (c : Core) : (setCore s g c).cores = mapSet (fun _ => ({} : Core)) g c s.cores := rfl
@[simp] theorem setCore_disps (g : Nat) (c : Core) : (setCore s g c).disps = s.disps := rfl
@[simp] theorem setCore_mem (g : Nat) (c : Core) : (setCore s g c).mem = s.mem := rfl
@[simp] theorem setCore_ports (g : Nat) (c : Core) : (setCore s g c).ports = s.ports := rfl
@[simp] theorem setCore_net (g : Nat) (c : Core) : (setCore s g c).net = s.net := rfl
@[simp] theorem setCore_ledgers (g : Nat) (c : Core) : (setCore s g c).ledgers = s.ledgers := rfl
@[simp] theorem setCore_upds (g : Nat) (c : Core) : (setCore s g c).upds = s.upds := rfl
@[simp] theorem setCore_store (g : Nat) (c : Core) : (setCore s g c).store = s.store := rfl
@[simp] theorem setCore_job (g : Nat) (c : Core) : (setCore s g c).job = s.job := rfl
@[simp] theorem setCore_planNext (g : Nat) (c : Core) : (setCore s g c).planNext = s.planNext := rfl
@[simp] theorem setCore_ingest (g : Nat) (c : Core) : (setCore s g c).ingest = s.ingest := rfl
@[simp] theorem setCore_health (g : Nat) (c : Core) : (setCore s g c).health = s.health := rfl
@[simp] theorem setCore_clk (g : Nat) (c : Core) : (setCore s g c).clk = s.clk := rfl
@[simp] theorem setCore_power (g : Nat) (c : Core) : (setCore s g c).power = s.power := rfl
@[simp] theorem setCore_therm (g : Nat) (c : Core) : (setCore s g c).therm = s.therm := rfl
@[simp] theorem setCore_mgmt (g : Nat) (c : Core) : (setCore s g c).mgmt = s.mgmt := rfl
@[simp] theorem setCore_sec (g : Nat) (c : Core) : (setCore s g c).sec = s.sec := rfl
@[simp] theorem setCore_sys (g : Nat) (c : Core) : (setCore s g c).sys = s.sys := rfl
@[simp] theorem setCore_freeCount (g : Nat) (c : Core) : (setCore s g c).freeCount = s.freeCount := rfl
@[simp] theorem setCore_pending (g : Nat) (c : Core) : (setCore s g c).pending = s.pending := rfl

/-! ### setTile -/

@[simp] theorem setTile_time (g : Nat) (t : Tile) : (setTile s g t).time = s.time := rfl
@[simp] theorem setTile_wardOff (g : Nat) (t : Tile) : (setTile s g t).wardOff = s.wardOff := rfl
@[simp] theorem setTile_regs (g : Nat) (t : Tile) : (setTile s g t).regs = s.regs := rfl
@[simp] theorem setTile_wide (g : Nat) (t : Tile) : (setTile s g t).wide = s.wide := rfl
@[simp] theorem setTile_mailbox (g : Nat) (t : Tile) : (setTile s g t).mailbox = s.mailbox := rfl
@[simp] theorem setTile_triple (g : Nat) (t : Tile) : (setTile s g t).triple = s.triple := rfl
@[simp] theorem setTile_resp (g : Nat) (t : Tile) : (setTile s g t).resp = s.resp := rfl
@[simp] theorem setTile_disps (g : Nat) (t : Tile) : (setTile s g t).disps = s.disps := rfl
@[simp] theorem setTile_mem (g : Nat) (t : Tile) : (setTile s g t).mem = s.mem := rfl
@[simp] theorem setTile_ports (g : Nat) (t : Tile) : (setTile s g t).ports = s.ports := rfl
@[simp] theorem setTile_net (g : Nat) (t : Tile) : (setTile s g t).net = s.net := rfl
@[simp] theorem setTile_ledgers (g : Nat) (t : Tile) : (setTile s g t).ledgers = s.ledgers := rfl
@[simp] theorem setTile_upds (g : Nat) (t : Tile) : (setTile s g t).upds = s.upds := rfl
@[simp] theorem setTile_store (g : Nat) (t : Tile) : (setTile s g t).store = s.store := rfl
@[simp] theorem setTile_job (g : Nat) (t : Tile) : (setTile s g t).job = s.job := rfl
@[simp] theorem setTile_planNext (g : Nat) (t : Tile) : (setTile s g t).planNext = s.planNext := rfl
@[simp] theorem setTile_ingest (g : Nat) (t : Tile) : (setTile s g t).ingest = s.ingest := rfl
@[simp] theorem setTile_health (g : Nat) (t : Tile) : (setTile s g t).health = s.health := rfl
@[simp] theorem setTile_clk (g : Nat) (t : Tile) : (setTile s g t).clk = s.clk := rfl
@[simp] theorem setTile_power (g : Nat) (t : Tile) : (setTile s g t).power = s.power := rfl
@[simp] theorem setTile_therm (g : Nat) (t : Tile) : (setTile s g t).therm = s.therm := rfl
@[simp] theorem setTile_mgmt (g : Nat) (t : Tile) : (setTile s g t).mgmt = s.mgmt := rfl
@[simp] theorem setTile_sec (g : Nat) (t : Tile) : (setTile s g t).sec = s.sec := rfl
@[simp] theorem setTile_sys (g : Nat) (t : Tile) : (setTile s g t).sys = s.sys := rfl
@[simp] theorem setTile_freeCount (g : Nat) (t : Tile) : (setTile s g t).freeCount = s.freeCount := rfl
@[simp] theorem setTile_pending (g : Nat) (t : Tile) : (setTile s g t).pending = s.pending := rfl

/-! ### setDisp -/

@[simp] theorem setDisp_time (d : Nat) (x : Disp) : (setDisp s d x).time = s.time := rfl
@[simp] theorem setDisp_wardOff (d : Nat) (x : Disp) : (setDisp s d x).wardOff = s.wardOff := rfl
@[simp] theorem setDisp_regs (d : Nat) (x : Disp) : (setDisp s d x).regs = s.regs := rfl
@[simp] theorem setDisp_wide (d : Nat) (x : Disp) : (setDisp s d x).wide = s.wide := rfl
@[simp] theorem setDisp_mailbox (d : Nat) (x : Disp) : (setDisp s d x).mailbox = s.mailbox := rfl
@[simp] theorem setDisp_triple (d : Nat) (x : Disp) : (setDisp s d x).triple = s.triple := rfl
@[simp] theorem setDisp_resp (d : Nat) (x : Disp) : (setDisp s d x).resp = s.resp := rfl
@[simp] theorem setDisp_cores (d : Nat) (x : Disp) : (setDisp s d x).cores = s.cores := rfl
@[simp] theorem setDisp_disps (d : Nat) (x : Disp) : (setDisp s d x).disps = mapSet (fun _ => ({} : Disp)) d x s.disps := rfl
@[simp] theorem setDisp_mem (d : Nat) (x : Disp) : (setDisp s d x).mem = s.mem := rfl
@[simp] theorem setDisp_ports (d : Nat) (x : Disp) : (setDisp s d x).ports = s.ports := rfl
@[simp] theorem setDisp_net (d : Nat) (x : Disp) : (setDisp s d x).net = s.net := rfl
@[simp] theorem setDisp_ledgers (d : Nat) (x : Disp) : (setDisp s d x).ledgers = s.ledgers := rfl
@[simp] theorem setDisp_upds (d : Nat) (x : Disp) : (setDisp s d x).upds = s.upds := rfl
@[simp] theorem setDisp_store (d : Nat) (x : Disp) : (setDisp s d x).store = s.store := rfl
@[simp] theorem setDisp_job (d : Nat) (x : Disp) : (setDisp s d x).job = s.job := rfl
@[simp] theorem setDisp_planNext (d : Nat) (x : Disp) : (setDisp s d x).planNext = s.planNext := rfl
@[simp] theorem setDisp_ingest (d : Nat) (x : Disp) : (setDisp s d x).ingest = s.ingest := rfl
@[simp] theorem setDisp_health (d : Nat) (x : Disp) : (setDisp s d x).health = s.health := rfl
@[simp] theorem setDisp_clk (d : Nat) (x : Disp) : (setDisp s d x).clk = s.clk := rfl
@[simp] theorem setDisp_power (d : Nat) (x : Disp) : (setDisp s d x).power = s.power := rfl
@[simp] theorem setDisp_therm (d : Nat) (x : Disp) : (setDisp s d x).therm = s.therm := rfl
@[simp] theorem setDisp_mgmt (d : Nat) (x : Disp) : (setDisp s d x).mgmt = s.mgmt := rfl
@[simp] theorem setDisp_sec (d : Nat) (x : Disp) : (setDisp s d x).sec = s.sec := rfl
@[simp] theorem setDisp_sys (d : Nat) (x : Disp) : (setDisp s d x).sys = s.sys := rfl
@[simp] theorem setDisp_freeCount (d : Nat) (x : Disp) : (setDisp s d x).freeCount = s.freeCount := rfl
@[simp] theorem setDisp_pending (d : Nat) (x : Disp) : (setDisp s d x).pending = s.pending := rfl

/-! ### setPort -/

@[simp] theorem setPort_time (p : Nat) (x : Port) : (setPort s p x).time = s.time := rfl
@[simp] theorem setPort_wardOff (p : Nat) (x : Port) : (setPort s p x).wardOff = s.wardOff := rfl
@[simp] theorem setPort_regs (p : Nat) (x : Port) : (setPort s p x).regs = s.regs := rfl
@[simp] theorem setPort_wide (p : Nat) (x : Port) : (setPort s p x).wide = s.wide := rfl
@[simp] theorem setPort_mailbox (p : Nat) (x : Port) : (setPort s p x).mailbox = s.mailbox := rfl
@[simp] theorem setPort_triple (p : Nat) (x : Port) : (setPort s p x).triple = s.triple := rfl
@[simp] theorem setPort_resp (p : Nat) (x : Port) : (setPort s p x).resp = s.resp := rfl
@[simp] theorem setPort_cores (p : Nat) (x : Port) : (setPort s p x).cores = s.cores := rfl
@[simp] theorem setPort_disps (p : Nat) (x : Port) : (setPort s p x).disps = s.disps := rfl
@[simp] theorem setPort_mem (p : Nat) (x : Port) : (setPort s p x).mem = s.mem := rfl
@[simp] theorem setPort_ports (p : Nat) (x : Port) : (setPort s p x).ports = mapSet (fun _ => ({} : Port)) p x s.ports := rfl
@[simp] theorem setPort_net (p : Nat) (x : Port) : (setPort s p x).net = s.net := rfl
@[simp] theorem setPort_ledgers (p : Nat) (x : Port) : (setPort s p x).ledgers = s.ledgers := rfl
@[simp] theorem setPort_upds (p : Nat) (x : Port) : (setPort s p x).upds = s.upds := rfl
@[simp] theorem setPort_store (p : Nat) (x : Port) : (setPort s p x).store = s.store := rfl
@[simp] theorem setPort_job (p : Nat) (x : Port) : (setPort s p x).job = s.job := rfl
@[simp] theorem setPort_planNext (p : Nat) (x : Port) : (setPort s p x).planNext = s.planNext := rfl
@[simp] theorem setPort_ingest (p : Nat) (x : Port) : (setPort s p x).ingest = s.ingest := rfl
@[simp] theorem setPort_health (p : Nat) (x : Port) : (setPort s p x).health = s.health := rfl
@[simp] theorem setPort_clk (p : Nat) (x : Port) : (setPort s p x).clk = s.clk := rfl
@[simp] theorem setPort_power (p : Nat) (x : Port) : (setPort s p x).power = s.power := rfl
@[simp] theorem setPort_therm (p : Nat) (x : Port) : (setPort s p x).therm = s.therm := rfl
@[simp] theorem setPort_mgmt (p : Nat) (x : Port) : (setPort s p x).mgmt = s.mgmt := rfl
@[simp] theorem setPort_sec (p : Nat) (x : Port) : (setPort s p x).sec = s.sec := rfl
@[simp] theorem setPort_sys (p : Nat) (x : Port) : (setPort s p x).sys = s.sys := rfl
@[simp] theorem setPort_freeCount (p : Nat) (x : Port) : (setPort s p x).freeCount = s.freeCount := rfl
@[simp] theorem setPort_pending (p : Nat) (x : Port) : (setPort s p x).pending = s.pending := rfl

/-! ### setNet -/

@[simp] theorem setNet_time (x : Net) : (setNet s x).time = s.time := rfl
@[simp] theorem setNet_wardOff (x : Net) : (setNet s x).wardOff = s.wardOff := rfl
@[simp] theorem setNet_regs (x : Net) : (setNet s x).regs = s.regs := rfl
@[simp] theorem setNet_wide (x : Net) : (setNet s x).wide = s.wide := rfl
@[simp] theorem setNet_mailbox (x : Net) : (setNet s x).mailbox = s.mailbox := rfl
@[simp] theorem setNet_triple (x : Net) : (setNet s x).triple = s.triple := rfl
@[simp] theorem setNet_resp (x : Net) : (setNet s x).resp = s.resp := rfl
@[simp] theorem setNet_cores (x : Net) : (setNet s x).cores = s.cores := rfl
@[simp] theorem setNet_disps (x : Net) : (setNet s x).disps = s.disps := rfl
@[simp] theorem setNet_mem (x : Net) : (setNet s x).mem = s.mem := rfl
@[simp] theorem setNet_ports (x : Net) : (setNet s x).ports = s.ports := rfl
@[simp] theorem setNet_net (x : Net) : (setNet s x).net = x := rfl
@[simp] theorem setNet_ledgers (x : Net) : (setNet s x).ledgers = s.ledgers := rfl
@[simp] theorem setNet_upds (x : Net) : (setNet s x).upds = s.upds := rfl
@[simp] theorem setNet_store (x : Net) : (setNet s x).store = s.store := rfl
@[simp] theorem setNet_job (x : Net) : (setNet s x).job = s.job := rfl
@[simp] theorem setNet_planNext (x : Net) : (setNet s x).planNext = s.planNext := rfl
@[simp] theorem setNet_ingest (x : Net) : (setNet s x).ingest = s.ingest := rfl
@[simp] theorem setNet_health (x : Net) : (setNet s x).health = s.health := rfl
@[simp] theorem setNet_clk (x : Net) : (setNet s x).clk = s.clk := rfl
@[simp] theorem setNet_power (x : Net) : (setNet s x).power = s.power := rfl
@[simp] theorem setNet_therm (x : Net) : (setNet s x).therm = s.therm := rfl
@[simp] theorem setNet_mgmt (x : Net) : (setNet s x).mgmt = s.mgmt := rfl
@[simp] theorem setNet_sec (x : Net) : (setNet s x).sec = s.sec := rfl
@[simp] theorem setNet_sys (x : Net) : (setNet s x).sys = s.sys := rfl
@[simp] theorem setNet_freeCount (x : Net) : (setNet s x).freeCount = s.freeCount := rfl
@[simp] theorem setNet_pending (x : Net) : (setNet s x).pending = s.pending := rfl

/-! ### setLedgers -/

@[simp] theorem setLedgers_time (d : Nat) (l : List Ledger) : (setLedgers s d l).time = s.time := rfl
@[simp] theorem setLedgers_wardOff (d : Nat) (l : List Ledger) : (setLedgers s d l).wardOff = s.wardOff := rfl
@[simp] theorem setLedgers_regs (d : Nat) (l : List Ledger) : (setLedgers s d l).regs = s.regs := rfl
@[simp] theorem setLedgers_wide (d : Nat) (l : List Ledger) : (setLedgers s d l).wide = s.wide := rfl
@[simp] theorem setLedgers_mailbox (d : Nat) (l : List Ledger) : (setLedgers s d l).mailbox = s.mailbox := rfl
@[simp] theorem setLedgers_triple (d : Nat) (l : List Ledger) : (setLedgers s d l).triple = s.triple := rfl
@[simp] theorem setLedgers_resp (d : Nat) (l : List Ledger) : (setLedgers s d l).resp = s.resp := rfl
@[simp] theorem setLedgers_cores (d : Nat) (l : List Ledger) : (setLedgers s d l).cores = s.cores := rfl
@[simp] theorem setLedgers_disps (d : Nat) (l : List Ledger) : (setLedgers s d l).disps = s.disps := rfl
@[simp] theorem setLedgers_mem (d : Nat) (l : List Ledger) : (setLedgers s d l).mem = s.mem := rfl
@[simp] theorem setLedgers_ports (d : Nat) (l : List Ledger) : (setLedgers s d l).ports = s.ports := rfl
@[simp] theorem setLedgers_net (d : Nat) (l : List Ledger) : (setLedgers s d l).net = s.net := rfl
@[simp] theorem setLedgers_ledgers (d : Nat) (l : List Ledger) : (setLedgers s d l).ledgers = mapSet (fun _ => ([] : List Ledger)) d l s.ledgers := rfl
@[simp] theorem setLedgers_upds (d : Nat) (l : List Ledger) : (setLedgers s d l).upds = s.upds := rfl
@[simp] theorem setLedgers_store (d : Nat) (l : List Ledger) : (setLedgers s d l).store = s.store := rfl
@[simp] theorem setLedgers_job (d : Nat) (l : List Ledger) : (setLedgers s d l).job = s.job := rfl
@[simp] theorem setLedgers_planNext (d : Nat) (l : List Ledger) : (setLedgers s d l).planNext = s.planNext := rfl
@[simp] theorem setLedgers_ingest (d : Nat) (l : List Ledger) : (setLedgers s d l).ingest = s.ingest := rfl
@[simp] theorem setLedgers_health (d : Nat) (l : List Ledger) : (setLedgers s d l).health = s.health := rfl
@[simp] theorem setLedgers_clk (d : Nat) (l : List Ledger) : (setLedgers s d l).clk = s.clk := rfl
@[simp] theorem setLedgers_power (d : Nat) (l : List Ledger) : (setLedgers s d l).power = s.power := rfl
@[simp] theorem setLedgers_therm (d : Nat) (l : List Ledger) : (setLedgers s d l).therm = s.therm := rfl
@[simp] theorem setLedgers_mgmt (d : Nat) (l : List Ledger) : (setLedgers s d l).mgmt = s.mgmt := rfl
@[simp] theorem setLedgers_sec (d : Nat) (l : List Ledger) : (setLedgers s d l).sec = s.sec := rfl
@[simp] theorem setLedgers_sys (d : Nat) (l : List Ledger) : (setLedgers s d l).sys = s.sys := rfl
@[simp] theorem setLedgers_freeCount (d : Nat) (l : List Ledger) : (setLedgers s d l).freeCount = s.freeCount := rfl
@[simp] theorem setLedgers_pending (d : Nat) (l : List Ledger) : (setLedgers s d l).pending = s.pending := rfl

/-! ### setUpd -/

@[simp] theorem setUpd_time (d : Nat) (u : Upd) : (setUpd s d u).time = s.time := rfl
@[simp] theorem setUpd_wardOff (d : Nat) (u : Upd) : (setUpd s d u).wardOff = s.wardOff := rfl
@[simp] theorem setUpd_regs (d : Nat) (u : Upd) : (setUpd s d u).regs = s.regs := rfl
@[simp] theorem setUpd_wide (d : Nat) (u : Upd) : (setUpd s d u).wide = s.wide := rfl
@[simp] theorem setUpd_mailbox (d : Nat) (u : Upd) : (setUpd s d u).mailbox = s.mailbox := rfl
@[simp] theorem setUpd_triple (d : Nat) (u : Upd) : (setUpd s d u).triple = s.triple := rfl
@[simp] theorem setUpd_resp (d : Nat) (u : Upd) : (setUpd s d u).resp = s.resp := rfl
@[simp] theorem setUpd_cores (d : Nat) (u : Upd) : (setUpd s d u).cores = s.cores := rfl
@[simp] theorem setUpd_disps (d : Nat) (u : Upd) : (setUpd s d u).disps = s.disps := rfl
@[simp] theorem setUpd_mem (d : Nat) (u : Upd) : (setUpd s d u).mem = s.mem := rfl
@[simp] theorem setUpd_ports (d : Nat) (u : Upd) : (setUpd s d u).ports = s.ports := rfl
@[simp] theorem setUpd_net (d : Nat) (u : Upd) : (setUpd s d u).net = s.net := rfl
@[simp] theorem setUpd_ledgers (d : Nat) (u : Upd) : (setUpd s d u).ledgers = s.ledgers := rfl
@[simp] theorem setUpd_upds (d : Nat) (u : Upd) : (setUpd s d u).upds = mapSet (fun _ => ({} : Upd)) d u s.upds := rfl
@[simp] theorem setUpd_store (d : Nat) (u : Upd) : (setUpd s d u).store = s.store := rfl
@[simp] theorem setUpd_job (d : Nat) (u : Upd) : (setUpd s d u).job = s.job := rfl
@[simp] theorem setUpd_planNext (d : Nat) (u : Upd) : (setUpd s d u).planNext = s.planNext := rfl
@[simp] theorem setUpd_ingest (d : Nat) (u : Upd) : (setUpd s d u).ingest = s.ingest := rfl
@[simp] theorem setUpd_health (d : Nat) (u : Upd) : (setUpd s d u).health = s.health := rfl
@[simp] theorem setUpd_clk (d : Nat) (u : Upd) : (setUpd s d u).clk = s.clk := rfl
@[simp] theorem setUpd_power (d : Nat) (u : Upd) : (setUpd s d u).power = s.power := rfl
@[simp] theorem setUpd_therm (d : Nat) (u : Upd) : (setUpd s d u).therm = s.therm := rfl
@[simp] theorem setUpd_mgmt (d : Nat) (u : Upd) : (setUpd s d u).mgmt = s.mgmt := rfl
@[simp] theorem setUpd_sec (d : Nat) (u : Upd) : (setUpd s d u).sec = s.sec := rfl
@[simp] theorem setUpd_sys (d : Nat) (u : Upd) : (setUpd s d u).sys = s.sys := rfl
@[simp] theorem setUpd_freeCount (d : Nat) (u : Upd) : (setUpd s d u).freeCount = s.freeCount := rfl
@[simp] theorem setUpd_pending (d : Nat) (u : Upd) : (setUpd s d u).pending = s.pending := rfl

/-! ### setStore -/

@[simp] theorem setStore_time (x : Store) : (setStore s x).time = s.time := rfl
@[simp] theorem setStore_wardOff (x : Store) : (setStore s x).wardOff = s.wardOff := rfl
@[simp] theorem setStore_regs (x : Store) : (setStore s x).regs = s.regs := rfl
@[simp] theorem setStore_wide (x : Store) : (setStore s x).wide = s.wide := rfl
@[simp] theorem setStore_mailbox (x : Store) : (setStore s x).mailbox = s.mailbox := rfl
@[simp] theorem setStore_triple (x : Store) : (setStore s x).triple = s.triple := rfl
@[simp] theorem setStore_resp (x : Store) : (setStore s x).resp = s.resp := rfl
@[simp] theorem setStore_cores (x : Store) : (setStore s x).cores = s.cores := rfl
@[simp] theorem setStore_disps (x : Store) : (setStore s x).disps = s.disps := rfl
@[simp] theorem setStore_mem (x : Store) : (setStore s x).mem = s.mem := rfl
@[simp] theorem setStore_ports (x : Store) : (setStore s x).ports = s.ports := rfl
@[simp] theorem setStore_net (x : Store) : (setStore s x).net = s.net := rfl
@[simp] theorem setStore_ledgers (x : Store) : (setStore s x).ledgers = s.ledgers := rfl
@[simp] theorem setStore_upds (x : Store) : (setStore s x).upds = s.upds := rfl
@[simp] theorem setStore_store (x : Store) : (setStore s x).store = x := rfl
@[simp] theorem setStore_job (x : Store) : (setStore s x).job = s.job := rfl
@[simp] theorem setStore_planNext (x : Store) : (setStore s x).planNext = s.planNext := rfl
@[simp] theorem setStore_ingest (x : Store) : (setStore s x).ingest = s.ingest := rfl
@[simp] theorem setStore_health (x : Store) : (setStore s x).health = s.health := rfl
@[simp] theorem setStore_clk (x : Store) : (setStore s x).clk = s.clk := rfl
@[simp] theorem setStore_power (x : Store) : (setStore s x).power = s.power := rfl
@[simp] theorem setStore_therm (x : Store) : (setStore s x).therm = s.therm := rfl
@[simp] theorem setStore_mgmt (x : Store) : (setStore s x).mgmt = s.mgmt := rfl
@[simp] theorem setStore_sec (x : Store) : (setStore s x).sec = s.sec := rfl
@[simp] theorem setStore_sys (x : Store) : (setStore s x).sys = s.sys := rfl
@[simp] theorem setStore_freeCount (x : Store) : (setStore s x).freeCount = s.freeCount := rfl
@[simp] theorem setStore_pending (x : Store) : (setStore s x).pending = s.pending := rfl

/-! ### setHealth -/

@[simp] theorem setHealth_time (x : Health) : (setHealth s x).time = s.time := rfl
@[simp] theorem setHealth_wardOff (x : Health) : (setHealth s x).wardOff = s.wardOff := rfl
@[simp] theorem setHealth_regs (x : Health) : (setHealth s x).regs = s.regs := rfl
@[simp] theorem setHealth_wide (x : Health) : (setHealth s x).wide = s.wide := rfl
@[simp] theorem setHealth_mailbox (x : Health) : (setHealth s x).mailbox = s.mailbox := rfl
@[simp] theorem setHealth_triple (x : Health) : (setHealth s x).triple = s.triple := rfl
@[simp] theorem setHealth_resp (x : Health) : (setHealth s x).resp = s.resp := rfl
@[simp] theorem setHealth_cores (x : Health) : (setHealth s x).cores = s.cores := rfl
@[simp] theorem setHealth_disps (x : Health) : (setHealth s x).disps = s.disps := rfl
@[simp] theorem setHealth_mem (x : Health) : (setHealth s x).mem = s.mem := rfl
@[simp] theorem setHealth_ports (x : Health) : (setHealth s x).ports = s.ports := rfl
@[simp] theorem setHealth_net (x : Health) : (setHealth s x).net = s.net := rfl
@[simp] theorem setHealth_ledgers (x : Health) : (setHealth s x).ledgers = s.ledgers := rfl
@[simp] theorem setHealth_upds (x : Health) : (setHealth s x).upds = s.upds := rfl
@[simp] theorem setHealth_store (x : Health) : (setHealth s x).store = s.store := rfl
@[simp] theorem setHealth_job (x : Health) : (setHealth s x).job = s.job := rfl
@[simp] theorem setHealth_planNext (x : Health) : (setHealth s x).planNext = s.planNext := rfl
@[simp] theorem setHealth_ingest (x : Health) : (setHealth s x).ingest = s.ingest := rfl
@[simp] theorem setHealth_health (x : Health) : (setHealth s x).health = x := rfl
@[simp] theorem setHealth_clk (x : Health) : (setHealth s x).clk = s.clk := rfl
@[simp] theorem setHealth_power (x : Health) : (setHealth s x).power = s.power := rfl
@[simp] theorem setHealth_therm (x : Health) : (setHealth s x).therm = s.therm := rfl
@[simp] theorem setHealth_mgmt (x : Health) : (setHealth s x).mgmt = s.mgmt := rfl
@[simp] theorem setHealth_sec (x : Health) : (setHealth s x).sec = s.sec := rfl
@[simp] theorem setHealth_sys (x : Health) : (setHealth s x).sys = s.sys := rfl
@[simp] theorem setHealth_freeCount (x : Health) : (setHealth s x).freeCount = s.freeCount := rfl
@[simp] theorem setHealth_pending (x : Health) : (setHealth s x).pending = s.pending := rfl

/-! ### setClk -/

@[simp] theorem setClk_time (x : Clocks) : (setClk s x).time = s.time := rfl
@[simp] theorem setClk_wardOff (x : Clocks) : (setClk s x).wardOff = s.wardOff := rfl
@[simp] theorem setClk_regs (x : Clocks) : (setClk s x).regs = s.regs := rfl
@[simp] theorem setClk_wide (x : Clocks) : (setClk s x).wide = s.wide := rfl
@[simp] theorem setClk_mailbox (x : Clocks) : (setClk s x).mailbox = s.mailbox := rfl
@[simp] theorem setClk_triple (x : Clocks) : (setClk s x).triple = s.triple := rfl
@[simp] theorem setClk_resp (x : Clocks) : (setClk s x).resp = s.resp := rfl
@[simp] theorem setClk_cores (x : Clocks) : (setClk s x).cores = s.cores := rfl
@[simp] theorem setClk_disps (x : Clocks) : (setClk s x).disps = s.disps := rfl
@[simp] theorem setClk_mem (x : Clocks) : (setClk s x).mem = s.mem := rfl
@[simp] theorem setClk_ports (x : Clocks) : (setClk s x).ports = s.ports := rfl
@[simp] theorem setClk_net (x : Clocks) : (setClk s x).net = s.net := rfl
@[simp] theorem setClk_ledgers (x : Clocks) : (setClk s x).ledgers = s.ledgers := rfl
@[simp] theorem setClk_upds (x : Clocks) : (setClk s x).upds = s.upds := rfl
@[simp] theorem setClk_store (x : Clocks) : (setClk s x).store = s.store := rfl
@[simp] theorem setClk_job (x : Clocks) : (setClk s x).job = s.job := rfl
@[simp] theorem setClk_planNext (x : Clocks) : (setClk s x).planNext = s.planNext := rfl
@[simp] theorem setClk_ingest (x : Clocks) : (setClk s x).ingest = s.ingest := rfl
@[simp] theorem setClk_health (x : Clocks) : (setClk s x).health = s.health := rfl
@[simp] theorem setClk_clk (x : Clocks) : (setClk s x).clk = x := rfl
@[simp] theorem setClk_power (x : Clocks) : (setClk s x).power = s.power := rfl
@[simp] theorem setClk_therm (x : Clocks) : (setClk s x).therm = s.therm := rfl
@[simp] theorem setClk_mgmt (x : Clocks) : (setClk s x).mgmt = s.mgmt := rfl
@[simp] theorem setClk_sec (x : Clocks) : (setClk s x).sec = s.sec := rfl
@[simp] theorem setClk_sys (x : Clocks) : (setClk s x).sys = s.sys := rfl
@[simp] theorem setClk_freeCount (x : Clocks) : (setClk s x).freeCount = s.freeCount := rfl
@[simp] theorem setClk_pending (x : Clocks) : (setClk s x).pending = s.pending := rfl

/-! ### setPower -/

@[simp] theorem setPower_time (x : PowerCtl) : (setPower s x).time = s.time := rfl
@[simp] theorem setPower_wardOff (x : PowerCtl) : (setPower s x).wardOff = s.wardOff := rfl
@[simp] theorem setPower_regs (x : PowerCtl) : (setPower s x).regs = s.regs := rfl
@[simp] theorem setPower_wide (x : PowerCtl) : (setPower s x).wide = s.wide := rfl
@[simp] theorem setPower_mailbox (x : PowerCtl) : (setPower s x).mailbox = s.mailbox := rfl
@[simp] theorem setPower_triple (x : PowerCtl) : (setPower s x).triple = s.triple := rfl
@[simp] theorem setPower_resp (x : PowerCtl) : (setPower s x).resp = s.resp := rfl
@[simp] theorem setPower_cores (x : PowerCtl) : (setPower s x).cores = s.cores := rfl
@[simp] theorem setPower_disps (x : PowerCtl) : (setPower s x).disps = s.disps := rfl
@[simp] theorem setPower_mem (x : PowerCtl) : (setPower s x).mem = s.mem := rfl
@[simp] theorem setPower_ports (x : PowerCtl) : (setPower s x).ports = s.ports := rfl
@[simp] theorem setPower_net (x : PowerCtl) : (setPower s x).net = s.net := rfl
@[simp] theorem setPower_ledgers (x : PowerCtl) : (setPower s x).ledgers = s.ledgers := rfl
@[simp] theorem setPower_upds (x : PowerCtl) : (setPower s x).upds = s.upds := rfl
@[simp] theorem setPower_store (x : PowerCtl) : (setPower s x).store = s.store := rfl
@[simp] theorem setPower_job (x : PowerCtl) : (setPower s x).job = s.job := rfl
@[simp] theorem setPower_planNext (x : PowerCtl) : (setPower s x).planNext = s.planNext := rfl
@[simp] theorem setPower_ingest (x : PowerCtl) : (setPower s x).ingest = s.ingest := rfl
@[simp] theorem setPower_health (x : PowerCtl) : (setPower s x).health = s.health := rfl
@[simp] theorem setPower_clk (x : PowerCtl) : (setPower s x).clk = s.clk := rfl
@[simp] theorem setPower_power (x : PowerCtl) : (setPower s x).power = x := rfl
@[simp] theorem setPower_therm (x : PowerCtl) : (setPower s x).therm = s.therm := rfl
@[simp] theorem setPower_mgmt (x : PowerCtl) : (setPower s x).mgmt = s.mgmt := rfl
@[simp] theorem setPower_sec (x : PowerCtl) : (setPower s x).sec = s.sec := rfl
@[simp] theorem setPower_sys (x : PowerCtl) : (setPower s x).sys = s.sys := rfl
@[simp] theorem setPower_freeCount (x : PowerCtl) : (setPower s x).freeCount = s.freeCount := rfl
@[simp] theorem setPower_pending (x : PowerCtl) : (setPower s x).pending = s.pending := rfl

/-! ### setTherm -/

@[simp] theorem setTherm_time (x : ThermCtl) : (setTherm s x).time = s.time := rfl
@[simp] theorem setTherm_wardOff (x : ThermCtl) : (setTherm s x).wardOff = s.wardOff := rfl
@[simp] theorem setTherm_regs (x : ThermCtl) : (setTherm s x).regs = s.regs := rfl
@[simp] theorem setTherm_wide (x : ThermCtl) : (setTherm s x).wide = s.wide := rfl
@[simp] theorem setTherm_mailbox (x : ThermCtl) : (setTherm s x).mailbox = s.mailbox := rfl
@[simp] theorem setTherm_triple (x : ThermCtl) : (setTherm s x).triple = s.triple := rfl
@[simp] theorem setTherm_resp (x : ThermCtl) : (setTherm s x).resp = s.resp := rfl
@[simp] theorem setTherm_cores (x : ThermCtl) : (setTherm s x).cores = s.cores := rfl
@[simp] theorem setTherm_disps (x : ThermCtl) : (setTherm s x).disps = s.disps := rfl
@[simp] theorem setTherm_mem (x : ThermCtl) : (setTherm s x).mem = s.mem := rfl
@[simp] theorem setTherm_ports (x : ThermCtl) : (setTherm s x).ports = s.ports := rfl
@[simp] theorem setTherm_net (x : ThermCtl) : (setTherm s x).net = s.net := rfl
@[simp] theorem setTherm_ledgers (x : ThermCtl) : (setTherm s x).ledgers = s.ledgers := rfl
@[simp] theorem setTherm_upds (x : ThermCtl) : (setTherm s x).upds = s.upds := rfl
@[simp] theorem setTherm_store (x : ThermCtl) : (setTherm s x).store = s.store := rfl
@[simp] theorem setTherm_job (x : ThermCtl) : (setTherm s x).job = s.job := rfl
@[simp] theorem setTherm_planNext (x : ThermCtl) : (setTherm s x).planNext = s.planNext := rfl
@[simp] theorem setTherm_ingest (x : ThermCtl) : (setTherm s x).ingest = s.ingest := rfl
@[simp] theorem setTherm_health (x : ThermCtl) : (setTherm s x).health = s.health := rfl
@[simp] theorem setTherm_clk (x : ThermCtl) : (setTherm s x).clk = s.clk := rfl
@[simp] theorem setTherm_power (x : ThermCtl) : (setTherm s x).power = s.power := rfl
@[simp] theorem setTherm_therm (x : ThermCtl) : (setTherm s x).therm = x := rfl
@[simp] theorem setTherm_mgmt (x : ThermCtl) : (setTherm s x).mgmt = s.mgmt := rfl
@[simp] theorem setTherm_sec (x : ThermCtl) : (setTherm s x).sec = s.sec := rfl
@[simp] theorem setTherm_sys (x : ThermCtl) : (setTherm s x).sys = s.sys := rfl
@[simp] theorem setTherm_freeCount (x : ThermCtl) : (setTherm s x).freeCount = s.freeCount := rfl
@[simp] theorem setTherm_pending (x : ThermCtl) : (setTherm s x).pending = s.pending := rfl

/-! ### setMgmt -/

@[simp] theorem setMgmt_time (x : Mgmt) : (setMgmt s x).time = s.time := rfl
@[simp] theorem setMgmt_wardOff (x : Mgmt) : (setMgmt s x).wardOff = s.wardOff := rfl
@[simp] theorem setMgmt_regs (x : Mgmt) : (setMgmt s x).regs = s.regs := rfl
@[simp] theorem setMgmt_wide (x : Mgmt) : (setMgmt s x).wide = s.wide := rfl
@[simp] theorem setMgmt_mailbox (x : Mgmt) : (setMgmt s x).mailbox = s.mailbox := rfl
@[simp] theorem setMgmt_triple (x : Mgmt) : (setMgmt s x).triple = s.triple := rfl
@[simp] theorem setMgmt_resp (x : Mgmt) : (setMgmt s x).resp = s.resp := rfl
@[simp] theorem setMgmt_cores (x : Mgmt) : (setMgmt s x).cores = s.cores := rfl
@[simp] theorem setMgmt_disps (x : Mgmt) : (setMgmt s x).disps = s.disps := rfl
@[simp] theorem setMgmt_mem (x : Mgmt) : (setMgmt s x).mem = s.mem := rfl
@[simp] theorem setMgmt_ports (x : Mgmt) : (setMgmt s x).ports = s.ports := rfl
@[simp] theorem setMgmt_net (x : Mgmt) : (setMgmt s x).net = s.net := rfl
@[simp] theorem setMgmt_ledgers (x : Mgmt) : (setMgmt s x).ledgers = s.ledgers := rfl
@[simp] theorem setMgmt_upds (x : Mgmt) : (setMgmt s x).upds = s.upds := rfl
@[simp] theorem setMgmt_store (x : Mgmt) : (setMgmt s x).store = s.store := rfl
@[simp] theorem setMgmt_job (x : Mgmt) : (setMgmt s x).job = s.job := rfl
@[simp] theorem setMgmt_planNext (x : Mgmt) : (setMgmt s x).planNext = s.planNext := rfl
@[simp] theorem setMgmt_ingest (x : Mgmt) : (setMgmt s x).ingest = s.ingest := rfl
@[simp] theorem setMgmt_health (x : Mgmt) : (setMgmt s x).health = s.health := rfl
@[simp] theorem setMgmt_clk (x : Mgmt) : (setMgmt s x).clk = s.clk := rfl
@[simp] theorem setMgmt_power (x : Mgmt) : (setMgmt s x).power = s.power := rfl
@[simp] theorem setMgmt_therm (x : Mgmt) : (setMgmt s x).therm = s.therm := rfl
@[simp] theorem setMgmt_mgmt (x : Mgmt) : (setMgmt s x).mgmt = x := rfl
@[simp] theorem setMgmt_sec (x : Mgmt) : (setMgmt s x).sec = s.sec := rfl
@[simp] theorem setMgmt_sys (x : Mgmt) : (setMgmt s x).sys = s.sys := rfl
@[simp] theorem setMgmt_freeCount (x : Mgmt) : (setMgmt s x).freeCount = s.freeCount := rfl
@[simp] theorem setMgmt_pending (x : Mgmt) : (setMgmt s x).pending = s.pending := rfl

/-! ### setSession -/

@[simp] theorem setSession_time (x : Option Session) : (setSession s x).time = s.time := rfl
@[simp] theorem setSession_wardOff (x : Option Session) : (setSession s x).wardOff = s.wardOff := rfl
@[simp] theorem setSession_regs (x : Option Session) : (setSession s x).regs = s.regs := rfl
@[simp] theorem setSession_wide (x : Option Session) : (setSession s x).wide = s.wide := rfl
@[simp] theorem setSession_mailbox (x : Option Session) : (setSession s x).mailbox = s.mailbox := rfl
@[simp] theorem setSession_triple (x : Option Session) : (setSession s x).triple = s.triple := rfl
@[simp] theorem setSession_resp (x : Option Session) : (setSession s x).resp = s.resp := rfl
@[simp] theorem setSession_cores (x : Option Session) : (setSession s x).cores = s.cores := rfl
@[simp] theorem setSession_disps (x : Option Session) : (setSession s x).disps = s.disps := rfl
@[simp] theorem setSession_mem (x : Option Session) : (setSession s x).mem = s.mem := rfl
@[simp] theorem setSession_ports (x : Option Session) : (setSession s x).ports = s.ports := rfl
@[simp] theorem setSession_net (x : Option Session) : (setSession s x).net = s.net := rfl
@[simp] theorem setSession_ledgers (x : Option Session) : (setSession s x).ledgers = s.ledgers := rfl
@[simp] theorem setSession_upds (x : Option Session) : (setSession s x).upds = s.upds := rfl
@[simp] theorem setSession_store (x : Option Session) : (setSession s x).store = s.store := rfl
@[simp] theorem setSession_job (x : Option Session) : (setSession s x).job = s.job := rfl
@[simp] theorem setSession_planNext (x : Option Session) : (setSession s x).planNext = s.planNext := rfl
@[simp] theorem setSession_ingest (x : Option Session) : (setSession s x).ingest = s.ingest := rfl
@[simp] theorem setSession_health (x : Option Session) : (setSession s x).health = s.health := rfl
@[simp] theorem setSession_clk (x : Option Session) : (setSession s x).clk = s.clk := rfl
@[simp] theorem setSession_power (x : Option Session) : (setSession s x).power = s.power := rfl
@[simp] theorem setSession_therm (x : Option Session) : (setSession s x).therm = s.therm := rfl
@[simp] theorem setSession_mgmt (x : Option Session) : (setSession s x).mgmt = { s.mgmt with session := x } := rfl
@[simp] theorem setSession_sec (x : Option Session) : (setSession s x).sec = s.sec := rfl
@[simp] theorem setSession_sys (x : Option Session) : (setSession s x).sys = s.sys := rfl
@[simp] theorem setSession_freeCount (x : Option Session) : (setSession s x).freeCount = s.freeCount := rfl
@[simp] theorem setSession_pending (x : Option Session) : (setSession s x).pending = s.pending := rfl

/-! ### setSec -/

@[simp] theorem setSec_time (x : Security) : (setSec s x).time = s.time := rfl
@[simp] theorem setSec_wardOff (x : Security) : (setSec s x).wardOff = s.wardOff := rfl
@[simp] theorem setSec_regs (x : Security) : (setSec s x).regs = s.regs := rfl
@[simp] theorem setSec_wide (x : Security) : (setSec s x).wide = s.wide := rfl
@[simp] theorem setSec_mailbox (x : Security) : (setSec s x).mailbox = s.mailbox := rfl
@[simp] theorem setSec_triple (x : Security) : (setSec s x).triple = s.triple := rfl
@[simp] theorem setSec_resp (x : Security) : (setSec s x).resp = s.resp := rfl
@[simp] theorem setSec_cores (x : Security) : (setSec s x).cores = s.cores := rfl
@[simp] theorem setSec_disps (x : Security) : (setSec s x).disps = s.disps := rfl
@[simp] theorem setSec_mem (x : Security) : (setSec s x).mem = s.mem := rfl
@[simp] theorem setSec_ports (x : Security) : (setSec s x).ports = s.ports := rfl
@[simp] theorem setSec_net (x : Security) : (setSec s x).net = s.net := rfl
@[simp] theorem setSec_ledgers (x : Security) : (setSec s x).ledgers = s.ledgers := rfl
@[simp] theorem setSec_upds (x : Security) : (setSec s x).upds = s.upds := rfl
@[simp] theorem setSec_store (x : Security) : (setSec s x).store = s.store := rfl
@[simp] theorem setSec_job (x : Security) : (setSec s x).job = s.job := rfl
@[simp] theorem setSec_planNext (x : Security) : (setSec s x).planNext = s.planNext := rfl
@[simp] theorem setSec_ingest (x : Security) : (setSec s x).ingest = s.ingest := rfl
@[simp] theorem setSec_health (x : Security) : (setSec s x).health = s.health := rfl
@[simp] theorem setSec_clk (x : Security) : (setSec s x).clk = s.clk := rfl
@[simp] theorem setSec_power (x : Security) : (setSec s x).power = s.power := rfl
@[simp] theorem setSec_therm (x : Security) : (setSec s x).therm = s.therm := rfl
@[simp] theorem setSec_mgmt (x : Security) : (setSec s x).mgmt = s.mgmt := rfl
@[simp] theorem setSec_sec (x : Security) : (setSec s x).sec = x := rfl
@[simp] theorem setSec_sys (x : Security) : (setSec s x).sys = s.sys := rfl
@[simp] theorem setSec_freeCount (x : Security) : (setSec s x).freeCount = s.freeCount := rfl
@[simp] theorem setSec_pending (x : Security) : (setSec s x).pending = s.pending := rfl

/-! ### noteInput -/

@[simp] theorem noteInput_time (i n : Nat) : (noteInput s i n).time = s.time := rfl
@[simp] theorem noteInput_wardOff (i n : Nat) : (noteInput s i n).wardOff = s.wardOff := rfl
@[simp] theorem noteInput_regs (i n : Nat) : (noteInput s i n).regs = s.regs := rfl
@[simp] theorem noteInput_wide (i n : Nat) : (noteInput s i n).wide = s.wide := rfl
@[simp] theorem noteInput_mailbox (i n : Nat) : (noteInput s i n).mailbox = s.mailbox := rfl
@[simp] theorem noteInput_triple (i n : Nat) : (noteInput s i n).triple = s.triple := rfl
@[simp] theorem noteInput_resp (i n : Nat) : (noteInput s i n).resp = s.resp := rfl
@[simp] theorem noteInput_cores (i n : Nat) : (noteInput s i n).cores = s.cores := rfl
@[simp] theorem noteInput_disps (i n : Nat) : (noteInput s i n).disps = s.disps := rfl
@[simp] theorem noteInput_mem (i n : Nat) : (noteInput s i n).mem = s.mem := rfl
@[simp] theorem noteInput_ports (i n : Nat) : (noteInput s i n).ports = s.ports := rfl
@[simp] theorem noteInput_net (i n : Nat) : (noteInput s i n).net = s.net := rfl
@[simp] theorem noteInput_ledgers (i n : Nat) : (noteInput s i n).ledgers = s.ledgers := rfl
@[simp] theorem noteInput_upds (i n : Nat) : (noteInput s i n).upds = s.upds := rfl
@[simp] theorem noteInput_store (i n : Nat) : (noteInput s i n).store = s.store := rfl
@[simp] theorem noteInput_job (i n : Nat) : (noteInput s i n).job = s.job := rfl
@[simp] theorem noteInput_planNext (i n : Nat) : (noteInput s i n).planNext = s.planNext := rfl
@[simp] theorem noteInput_ingest (i n : Nat) : (noteInput s i n).ingest = s.ingest := rfl
@[simp] theorem noteInput_clk (i n : Nat) : (noteInput s i n).clk = s.clk := rfl
@[simp] theorem noteInput_power (i n : Nat) : (noteInput s i n).power = s.power := rfl
@[simp] theorem noteInput_therm (i n : Nat) : (noteInput s i n).therm = s.therm := rfl
@[simp] theorem noteInput_mgmt (i n : Nat) : (noteInput s i n).mgmt = s.mgmt := rfl
@[simp] theorem noteInput_sec (i n : Nat) : (noteInput s i n).sec = s.sec := rfl
@[simp] theorem noteInput_sys (i n : Nat) : (noteInput s i n).sys = s.sys := rfl
@[simp] theorem noteInput_freeCount (i n : Nat) : (noteInput s i n).freeCount = s.freeCount := rfl
@[simp] theorem noteInput_pending (i n : Nat) : (noteInput s i n).pending = s.pending := rfl

end Sys2Proof.Machine
end

