-- ==== Sys2Proof/Laws/Ops.lean ====
section
/-!
SUPPORT. The laws of the named parts of the state: a core, a port, a dispatcher, a register word and a field read as they were set, and
setting one leaves the others.
-/

namespace Sys2Proof.Machine

@[simp] theorem coreOf_setCore_same (s : State) (g : Nat) (c : Core) : coreOf (setCore s g c) g = c := by
  simp [coreOf]

theorem coreOf_setCore_other {g k : Nat} (h : k ≠ g) (s : State) (c : Core) : coreOf (setCore s g c) k = coreOf s k := by
  simp only [coreOf, setCore_cores]
  exact mapGet_mapSet_other h _ _ _

@[simp] theorem portOf_setPort_same (s : State) (p : Nat) (x : Port) : portOf (setPort s p x) p = x := by
  simp [portOf]

theorem portOf_setPort_other {p q : Nat} (h : q ≠ p) (s : State) (x : Port) : portOf (setPort s p x) q = portOf s q := by
  simp only [portOf, setPort_ports]
  exact mapGet_mapSet_other h _ _ _

@[simp] theorem dispOf_setDisp_same (s : State) (d : Nat) (x : Disp) : dispOf (setDisp s d x) d = x := by
  simp [dispOf]

theorem dispOf_setDisp_other {d k : Nat} (h : k ≠ d) (s : State) (x : Disp) : dispOf (setDisp s d x) k = dispOf s k := by
  simp only [dispOf, setDisp_disps]
  exact mapGet_mapSet_other h _ _ _

@[simp] theorem chanOf_setChan_same (s : State) (c : Nat) (x : Chan) : chanOf (setChan s c x) c = x := by
  simp [chanOf]

@[simp] theorem updOf_setUpd_same (s : State) (d : Nat) (u : Upd) : updOf (setUpd s d u) d = u := by
  simp [updOf]

@[simp] theorem ledgersOf_setLedgers_same (s : State) (d : Nat) (l : List Ledger) : ledgersOf (setLedgers s d l) d = l := by
  simp [ledgersOf]

@[simp] theorem regWord_setRegWord_same (s : State) (p o : Nat) (w : Word) : regWord (setRegWord s p o w) p o = w := by
  simp [regWord]

theorem regWord_setRegWord_other {p o q r : Nat} (h : regKey q r ≠ regKey p o) (s : State) (w : Word) :
    regWord (setRegWord s p o w) q r = regWord s q r := by
  simp only [regWord, setRegWord_regs]
  exact mapGet_mapSet_other h _ _ _

/-- Registers at two offsets of the pages' 4 KiB are different words. -/
theorem regKey_inj {p o q r : Nat} (ho : o < 4096) (hr : r < 4096) (h : regKey q r = regKey p o) : q = p ∧ r = o := by
  simp only [regKey] at h; omega

/-- Putting a tile on a core twice leaves the second. -/
@[simp] theorem setTile_setTile (s : State) (g : Nat) (t u : Tile) : setTile (setTile s g t) g u = setTile s g u := by
  have ht : ({ coreOf s g with tile := some t } : Core) ≠ {} := by
    intro h; simpa using congrArg Core.tile h
  have hu : ({ coreOf s g with tile := some u } : Core) ≠ {} := by
    intro h; simpa using congrArg Core.tile h
  have h1 : coreOf (setTile s g t) g = { coreOf s g with tile := some t } := coreOf_setCore_same s g _
  unfold setTile at *
  rw [h1]
  simp only [setCore]
  rw [mapSet_mapSet_listed (fun _ => ({} : Core)) g _ _ _ hu ht]

@[simp] theorem coreOf_setTile_same (s : State) (g : Nat) (t : Tile) :
    coreOf (setTile s g t) g = { coreOf s g with tile := some t } := coreOf_setCore_same s g _

/-- A tile that issues runs, waits for nothing, and no pre-emption waits for it. -/
theorem issuing_some {s : State} {g : Nat} {t : Tile} (h : issuing s g = some t) :
    (coreOf s g).tile = some t ∧ t.phase = .running ∧ t.wait = .none ∧ (coreOf s g).preempt = none ∧ (coreOf s g).image.isSome = true := by
  simp only [issuing] at h
  split at h
  · simp at h
  · next u hu =>
    split at h
    · next hc =>
      simp only [Option.some.injEq] at h
      subst h
      simp only [Bool.and_eq_true, beq_iff_eq, Option.isNone_iff_eq_none] at hc
      exact ⟨hu, hc.1.1.1, hc.1.1.2, hc.1.2, hc.2⟩
    · simp at h

end Sys2Proof.Machine
end

