-- ==== Sys2Proof/Laws/Services.lean ====
section
/-!
SUPPORT. The one path of each kind of arrival: a packet, a sequenced message, a COMMAND and a register write, each with the state that it
leaves when it is served.
-/

namespace Sys2Proof.Machine

/-- A packet that arrives and passes its own table is taken. -/
theorem receive_arrives {s : State} {pk : Packet} {kind : Nat} (h : Arrives s pk kind) {ok : Bool} (hk : ok = true) (f : State → State) :
    receive s pk kind ok f = f (takeInbox s pk) := by
  obtain ⟨h1, h2, h3⟩ := h
  simp [receive, h1, h2, h3, hk]

/-- A packet of this epoch goes on. -/
theorem inEpoch_now {s : State} {pk : Packet} (h : pk.epoch = epochNow s) (f : State → State) : inEpoch s pk f = f s := by
  simp [inEpoch, h]

/-- A sequenced message that is delivered acts on the state after its delivery. -/
theorem takeSequenced_delivered {s : State} {h : MsgHdr} {u : State} (hd : Delivered s h u) (act : State → State) :
    takeSequenced s h true act = act u := by
  obtain ⟨h1, x, y, h2, h3, h4, rfl⟩ := hd
  simp [takeSequenced, h1, h2, deliverSeq, h3, h4]

/-- A sequenced message on a channel that its TYPE may not use is acknowledged and counted. -/
theorem takeSequenced_channel {s : State} {h : MsgHdr} {u : State} (hd : Delivered s h u) (act : State → State) :
    takeSequenced s h false act = msgBad u := by
  obtain ⟨h1, x, y, h2, h3, h4, rfl⟩ := hd
  simp [takeSequenced, h1, h2, deliverSeq, h3, h4]

/-- A COMMAND that is served runs and gets its one RESPONSE. -/
theorem serveCmd_served {s : State} {c : CmdMsg} {op n : Nat} {u : State} (h : Served s c op n u) (run : State → CmdResult) :
    serveCmd s c op n run =
      (match (run u).after with
       | some f => f (answerCmd (run u).s op (cmdTag c) (run u).status (run u).results)
       | none => answerCmd (run u).s op (cmdTag c) (run u).status (run u).results) := by
  obtain ⟨h1, h2, h3, h4⟩ := h
  unfold serveCmd
  rw [show decide (c.hdr.chan = 0) = true by simpa using h2, takeSequenced_delivered h1]
  simp only [h3, h4, Bool.not_true]
  cases (run u).after <;> rfl

/-- A write of an ordinary register that a master reaches goes field by field. -/
theorem rowWrite_fields {s : State} {m : Master} {page off value : Nat} {b : Block} (hb : pageBlock page = some b)
    (hr : reaches m page = true) (hs : pageServed s page = true) (h1 : off ≠ 0xE0) (h2 : ¬ (0xE8 ≤ off ∧ off ≤ 0xFC)) (h3 : off ≠ 0x28) :
    rowWrite s m page off value = accepted ((fieldsAt b off).foldl
      (fun x f => writeField x b page value f (mayAccess s m f.grd)) (unvoted s page off)) := by
  unfold rowWrite regPut accepted
  simp only [hb, hr, hs, Bool.not_true, Bool.or_self, Bool.false_eq_true, if_false, if_neg h1, if_neg h2, if_neg h3]
  rfl

end Sys2Proof.Machine
end

