-- ==== Sys2Proof/Laws/Mailbox.lean ====
section
/-!
SUPPORT. What the mailbox of a page does: it changes the registers 0xE0 to 0xFF of its page and the buffers of the mailbox, and a value that a
master may write reaches the block whole.
-/

namespace Sys2Proof.Machine

/-- `u` differs from `s` in the mailbox registers of a page and in mailbox buffers only. -/
def MbxOnly (page : Nat) (s u : State) : Prop :=
  RegsOnly s u ∧ ∀ q o, o < 4096 → q ≠ page ∨ o < 0xE0 ∨ 0x100 ≤ o → regWord u q o = regWord s q o

theorem MbxOnly.refl (page : Nat) (s : State) : MbxOnly page s s := ⟨rfl, fun _ _ _ _ => rfl⟩

theorem MbxOnly.trans {page : Nat} {s t u : State} (h : MbxOnly page s t) (k : MbxOnly page t u) : MbxOnly page s u := by
  refine ⟨?_, fun q o ho hq => (k.2 q o ho hq).trans (h.2 q o ho hq)⟩
  have h1 := h.1; have h2 := k.1
  unfold RegsOnly at *
  rw [h2, h1]

theorem mbxOnly_setRegWord {page off : Nat} (s : State) (w : Word) (h1 : 0xE0 ≤ off) (h2 : off < 0x100) :
    MbxOnly page s (setRegWord s page off w) := by
  refine ⟨rfl, fun q o ho hq => regWord_setRegWord_other (fun e => ?_) s w⟩
  obtain ⟨rfl, rfl⟩ := regKey_inj (by omega) ho e
  omega

theorem mbxOnly_setFld {page : Nat} (s : State) (f : FieldDef) (v : Nat) (h1 : 0xE0 ≤ f.off) (h2 : f.off < 0x100) :
    MbxOnly page s (setFld s page f v) := mbxOnly_setRegWord s _ h1 h2

theorem mbxOnly_setMailbox (page : Nat) (s : State) (x : Mailbox) : MbxOnly page s (setMailbox s page x) := ⟨rfl, fun _ _ _ _ => rfl⟩

theorem mbxOnly_foldWords {page : Nat} (l : List Nat) (is : List Nat) (h : ∀ i ∈ is, i < 6) (s : State) :
    MbxOnly page s (is.foldl (fun s i => setRegWord s page (mbxData i) (BitVec.ofNat 32 (l.getD i 0))) s) := by
  induction is generalizing s with
  | nil => exact .refl page s
  | cons i is ih =>
    have hi : i < 6 := h i (by simp)
    exact (mbxOnly_setRegWord s _ (by unfold mbxData; omega) (by unfold mbxData; omega)).trans
      (ih (fun j hj => h j (by simp [hj])) _)

theorem mbxOnly_setMbxWords (page : Nat) (s : State) (l : List Nat) : MbxOnly page s (setMbxWords s page l) :=
  mbxOnly_foldWords l (List.range 6) (fun _ h => List.mem_range.mp h) s

theorem mbxOnly_setMbxStat (page : Nat) (s : State) (vid words : Nat) (err : Bool) : MbxOnly page s (setMbxStat s page vid words err) := by
  unfold setMbxStat setFlag
  exact ((((mbxOnly_setFld s _ _ (by decide) (by decide)).trans (mbxOnly_setFld _ _ _ (by decide) (by decide))).trans
    (mbxOnly_setFld _ _ _ (by decide) (by decide))).trans (mbxOnly_setFld _ _ _ (by decide) (by decide))).trans
    (mbxOnly_setFld _ _ _ (by decide) (by decide))

/-- The state in which an operation has named its value and shown its status (R48). -/
theorem mbxOnly_opened (page : Nat) (s : State) (vid words : Nat) (part err : Bool) :
    MbxOnly page s (setMbxStat (setFlag (setFld s page fCommonValueId vid) page fCommonPart part) page vid words err) :=
  ((mbxOnly_setFld s _ _ (by decide) (by decide)).trans (mbxOnly_setFld _ _ _ (by decide) (by decide))).trans
    (mbxOnly_setMbxStat page _ vid words err)

/-- Fields outside the mailbox registers read as before. -/
theorem MbxOnly.fld_eq {page : Nat} {s u : State} (h : MbxOnly page s u) (q : Nat) (f : FieldDef) (ho : f.off < 4096)
    (hq : q ≠ page ∨ f.off < 0xE0 ∨ 0x100 ≤ f.off) : fld u q f = fld s q f := by
  unfold fld
  rw [h.2 q f.off ho hq]

/-- No mailbox operation changes who may access what. -/
theorem MbxOnly.mayAccess_eq {page : Nat} {s u : State} (h : MbxOnly page s u) (m : Master) (g : GuardKind) :
    mayAccess u m g = mayAccess s m g := by
  have h1 : flag u 2 stSecurityDebugEn = flag s 2 stSecurityDebugEn := by
    unfold flag; rw [h.fld_eq 2 _ (by decide) (.inr (by decide))]
  have h2 : flag u 2 stSecurityJumper = flag s 2 stSecurityJumper := by
    unfold flag; rw [h.fld_eq 2 _ (by decide) (.inr (by decide))]
  have h3 : u.sec = s.sec := by rw [h.1]
  have h4 : now u = now s := by unfold now; rw [h.1]
  unfold mayAccess guardClass presenceOpen
  rw [h1, h2, h3, h4]

/-- A data word reads what was put into it. -/
theorem mbxWord_setMbxWords (s : State) (page : Nat) (l : List Nat) (i : Nat) (h : i < 6) :
    mbxWord (setMbxWords s page l) page i = l.getD i 0 % 2 ^ 32 := by
  have key (a b : Nat) (hne : a ≠ b) : regKey page (mbxData a) ≠ regKey page (mbxData b) := by unfold regKey mbxData; omega
  unfold mbxWord setMbxWords
  have : i = 0 ∨ i = 1 ∨ i = 2 ∨ i = 3 ∨ i = 4 ∨ i = 5 := by omega
  rcases this with rfl | rfl | rfl | rfl | rfl | rfl <;>
    simp [List.range_succ, regWord_setRegWord_other (key _ _ _)]

/-- An operation's status leaves the data words. -/
theorem mbxWord_opened (s : State) (page vid words : Nat) (part err : Bool) (i : Nat) (h : i < 6) :
    mbxWord (setMbxStat (setFlag (setFld s page fCommonValueId vid) page fCommonPart part) page vid words err) page i = mbxWord s page i := by
  have key (f : FieldDef) (hf : f.off = 0xE0 ∨ f.off = 0xE4) : regKey page (mbxData i) ≠ regKey page f.off := by
    unfold regKey mbxData; omega
  unfold mbxWord setMbxStat setFlag setFld
  rw [regWord_setRegWord_other (key fCommonValueIdStat (by decide)), regWord_setRegWord_other (key fCommonWords (by decide)),
    regWord_setRegWord_other (key fCommonErr (by decide)), regWord_setRegWord_other (key fCommonValid (by decide)),
    regWord_setRegWord_other (key fCommonSeq (by decide)), regWord_setRegWord_other (key fCommonPart (by decide)),
    regWord_setRegWord_other (key fCommonValueId (by decide))]

/-- A write of a value that the master may write hands the block the data words, with the staged high words of a long value. -/
theorem mailboxOp_write {s : State} {m : Master} {b : Block} {page : Nat} {d : WideDef}
    (hd : (blockWides b).find? (fun x => x.vid == d.vid) = some d) (hrw : d.acc = .rw) (hm : mayAccess s m d.grd = true) :
    ∃ u, MbxOnly page s u ∧ mailboxOp s m b page d.vid false true = writeWide u b page d
      (wideOf ((List.range 6).map (mbxWord s page) ++ (match (mailboxOf s page).staged with
        | some x => if x.1 = d.vid ∧ 6 < d.words then two x.2.toNat else [0, 0]
        | none => [0, 0]))) := by
  have ho := mbxOnly_opened page s d.vid d.words false false
  refine ⟨setMailbox (setMbxStat (setFlag (setFld s page fCommonValueId d.vid) page fCommonPart false) page d.vid d.words false) page {},
    ho.trans (mbxOnly_setMailbox page _ _), ?_⟩
  unfold mailboxOp
  simp only [hd, hrw, ho.mayAccess_eq, hm]
  simp only [List.map_congr_left (fun i hi => mbxWord_opened s page d.vid d.words false false i (List.mem_range.mp hi))]
  rfl

/-- The high words of a long value are staged. -/
theorem mailboxOp_stage {s : State} {m : Master} {b : Block} {page : Nat} {d : WideDef}
    (hd : (blockWides b).find? (fun x => x.vid == d.vid) = some d) (hrw : d.acc = .rw) (hm : mayAccess s m d.grd = true) (hw : 6 < d.words) :
    MbxOnly page s (mailboxOp s m b page d.vid true true) ∧ (mailboxOf (mailboxOp s m b page d.vid true true) page).staged =
      some (d.vid, BitVec.ofNat 64 (mbxWord s page 0 + mbxWord s page 1 * 2 ^ 32)) := by
  have ho := mbxOnly_opened page s d.vid d.words true false
  have h : mailboxOp s m b page d.vid true true =
      setMailbox (setMbxStat (setFlag (setFld s page fCommonValueId d.vid) page fCommonPart true) page d.vid d.words false) page
        { snap := none, staged := some (d.vid, BitVec.ofNat 64 (mbxWord s page 0 + mbxWord s page 1 * 2 ^ 32)) } := by
    unfold mailboxOp
    simp only [hd, hrw, ho.mayAccess_eq, hm, mbxWord_opened s page d.vid d.words true false 0 (by omega),
      mbxWord_opened s page d.vid d.words true false 1 (by omega)]
    simp [Nat.not_le.mpr hw]
  rw [h]
  refine ⟨ho.trans (mbxOnly_setMailbox page _ _), ?_⟩
  unfold mailboxOf setMailbox
  simp

theorem mailboxOf_setMbxWords (s : State) (page q : Nat) (l : List Nat) : mailboxOf (setMbxWords s page l) q = mailboxOf s q := by
  unfold mailboxOf setMbxWords
  congr 1

/-- The words of a value are cut to 32 bits each. -/
theorem wideOf_cut (l : List Nat) : wideOf (l.map (· % 2 ^ 32)) = wideOf l := by
  unfold wideOf
  congr 1
  induction l with
  | nil => rfl
  | cons w l ih => simp only [List.map_cons, List.foldr_cons, ih, Nat.mod_mod]

theorem foldWords_lt (l : List Nat) : l.foldr (fun w a => w % 2 ^ 32 + 2 ^ 32 * a) 0 < 2 ^ (32 * l.length) := by
  induction l with
  | nil => simp
  | cons w l ih =>
    have : 2 ^ (32 * (w :: l).length) = 2 ^ 32 * 2 ^ (32 * l.length) := by rw [← Nat.pow_add]; congr 1; simp; omega
    rw [this, List.foldr_cons]
    have := Nat.mod_lt w (by decide : 0 < 2 ^ 32)
    nlinarith

theorem foldWords_take (l : List Nat) (n : Nat) : l.foldr (fun w a => w % 2 ^ 32 + 2 ^ 32 * a) 0 % 2 ^ (32 * n) =
    (l.take n).foldr (fun w a => w % 2 ^ 32 + 2 ^ 32 * a) 0 := by
  induction l generalizing n with
  | nil => simp
  | cons w l ih =>
    cases n with
    | zero => simp [Nat.mod_one]
    | succ n =>
      have : 2 ^ (32 * (n + 1)) = 2 ^ 32 * 2 ^ (32 * n) := by rw [← Nat.pow_add]; congr 1; omega
      rw [List.take_succ_cons, List.foldr_cons, List.foldr_cons, this, Nat.mod_mul, ← ih n]
      have := Nat.mod_lt w (by decide : 0 < 2 ^ 32)
      generalize List.foldr _ 0 l = x
      rw [Nat.add_mul_mod_self_left, Nat.mod_mod, Nat.add_mul_div_left _ _ (by decide : 0 < 2 ^ 32), Nat.div_eq_of_lt this, Nat.zero_add]

/-- The first words of a value are the value of its first words. -/
theorem cutWide_wideOf (l : List Nat) (n : Nat) (hl : l.length ≤ 8) : cutWide (wideOf l) n = wideOf (l.take n) := by
  have h : l.foldr (fun w a => w % 2 ^ 32 + 2 ^ 32 * a) 0 < 2 ^ 256 :=
    Nat.lt_of_lt_of_le (foldWords_lt l) (Nat.pow_le_pow_right (by decide) (by omega))
  unfold cutWide wideOf
  rw [BitVec.toNat_ofNat, Nat.mod_eq_of_lt h, foldWords_take]

/-- A value of at most six words, written by a master that may, reaches the block whole. -/
theorem rowMailbox_short {s : State} {m : Master} {b : Block} {page : Nat} {d : WideDef} {g : GuardKind} (hb : pageBlock page = some b)
    (hd : (blockWides b).find? (fun x => x.vid == d.vid) = some d) (hrw : d.acc = .rw) (hg : d.grd = g) (hp : Passes s m page g)
    (hw : d.words ≤ 6) (ws : List Nat) :
    ∃ u v, MbxOnly page s u ∧ cutWide v d.words = wideOf ((List.range d.words).map (fun i => ws.getD i 0)) ∧
      rowMailbox s m page d.vid ws = accepted (writeWide u b page d v) := by
  obtain ⟨hr, hs, hm⟩ := hp
  have h1 := mbxOnly_setMbxWords page s ws
  obtain ⟨u, h2, h3⟩ := mailboxOp_write (s := setMbxWords s page ws) (m := m) (page := page) hd hrw (by rw [h1.mayAccess_eq, hg]; exact hm)
  generalize hv : wideOf _ = v at h3
  refine ⟨u, v, h1.trans h2, ?_, ?_⟩
  rotate_left
  · unfold rowMailbox mailboxPut
    simp only [hb, hr, hs, hd, Nat.not_lt.mpr hw]
    rw [← h3]; rfl
  · rw [← hv, List.map_congr_left (fun i hi => mbxWord_setMbxWords s page ws i (List.mem_range.mp hi)), cutWide_wideOf _ _ (by split <;> simp; split <;> simp [two])]
    rw [← wideOf_cut ((List.range d.words).map _)]
    congr 1
    simp only [Nat.not_lt.mpr hw, and_false, if_false]
    have : d.words = 0 ∨ d.words = 1 ∨ d.words = 2 ∨ d.words = 3 ∨ d.words = 4 ∨ d.words = 5 ∨ d.words = 6 := by omega
    rcases this with h | h | h | h | h | h | h <;> rw [h] <;> split <;> rfl

/-- A value of eight words is staged and written in two operations (R51, R52). -/
theorem rowMailbox_long {s : State} {m : Master} {b : Block} {page : Nat} {d : WideDef} {g : GuardKind} (hb : pageBlock page = some b)
    (hd : (blockWides b).find? (fun x => x.vid == d.vid) = some d) (hrw : d.acc = .rw) (hg : d.grd = g) (hp : Passes s m page g)
    (hw : d.words = 8) (ws : List Nat) :
    ∃ u v, MbxOnly page s u ∧ cutWide v d.words = wideOf ((List.range 8).map (fun i => ws.getD i 0)) ∧
      rowMailbox s m page d.vid ws = accepted (writeWide u b page d v) := by
  obtain ⟨hr, hs, hm⟩ := hp
  have h0 := mbxOnly_setMbxWords page s [ws.getD 6 0, ws.getD 7 0]
  have h1 := mailboxOp_stage (s := setMbxWords s page [ws.getD 6 0, ws.getD 7 0]) (m := m) (page := page) hd hrw
    (by rw [h0.mayAccess_eq, hg]; exact hm) (by omega)
  generalize ht : mailboxOp (setMbxWords s page [ws.getD 6 0, ws.getD 7 0]) m b page d.vid true true = t at h1
  have h2 := (h0.trans h1.1).trans (mbxOnly_setMbxWords page t ws)
  obtain ⟨u, h3, h4⟩ := mailboxOp_write (s := setMbxWords t page ws) (m := m) (page := page) hd hrw (by rw [h2.mayAccess_eq, hg]; exact hm)
  generalize hv : wideOf _ = v at h4
  refine ⟨u, v, h2.trans h3, ?_, ?_⟩
  rotate_left
  · unfold rowMailbox mailboxPut
    simp only [hb, hr, hs, hd, hw]
    simp only [show decide (6 < 8) = true from rfl, if_true, ht]
    rw [← h4]; rfl
  · rw [← hv, mailboxOf_setMbxWords, h1.2, List.map_congr_left (fun i hi => mbxWord_setMbxWords t page ws i (List.mem_range.mp hi)),
      mbxWord_setMbxWords _ _ _ 0 (by decide), mbxWord_setMbxWords _ _ _ 1 (by decide)]
    simp only [hw, show 6 < 8 from by decide, and_self, if_true, two]
    rw [cutWide_wideOf _ _ (by simp), ← wideOf_cut ((List.range 8).map _)]
    congr 1
    have e (a b : Nat) : (BitVec.ofNat 64 (a % 2 ^ 32 + b % 2 ^ 32 * 2 ^ 32)).toNat = a % 2 ^ 32 + b % 2 ^ 32 * 2 ^ 32 := by
      rw [BitVec.toNat_ofNat, Nat.mod_eq_of_lt]; omega
    have g1 : [ws.getD 6 0, ws.getD 7 0].getD 0 0 = ws.getD 6 0 := rfl
    have g2 : [ws.getD 6 0, ws.getD 7 0].getD 1 0 = ws.getD 7 0 := rfl
    rw [g1, g2, e]
    simp [List.range_succ]
    omega

/-- A read that the master may make shows the value's words and changes mailbox registers only (R50). -/
theorem mailboxOp_read {s : State} {m : Master} {b : Block} {page : Nat} {d : WideDef}
    (hd : (blockWides b).find? (fun x => x.vid == d.vid) = some d) (hm : mayAccess s m d.grd = true) :
    ∃ u, MbxOnly page s u ∧ MbxOnly page s (mailboxOp s m b page d.vid false false) ∧
      mailboxOp s m b page d.vid false false = setMbxWords u page ((List.range (min 6 d.words)).map (wideWord (presentWide
        (setMbxStat (setFlag (setFld s page fCommonValueId d.vid) page fCommonPart false) page d.vid d.words false) b page d))) := by
  have ho := mbxOnly_opened page s d.vid d.words false false
  have e : mailboxOp s m b page d.vid false false = setMbxWords (setMailbox (setMbxStat (setFlag (setFld s page fCommonValueId d.vid) page fCommonPart false) page d.vid d.words false) page
      { mailboxOf s page with snap := some (d.vid, presentWide
        (setMbxStat (setFlag (setFld s page fCommonValueId d.vid) page fCommonPart false) page d.vid d.words false) b page d) }) page ((List.range (min 6 d.words)).map (wideWord (presentWide
        (setMbxStat (setFlag (setFld s page fCommonValueId d.vid) page fCommonPart false) page d.vid d.words false) b page d))) := by
    unfold mailboxOp
    simp [hd, ho.mayAccess_eq, hm]
  exact ⟨_, ho.trans (mbxOnly_setMailbox page _ _), by rw [e]; exact (ho.trans (mbxOnly_setMailbox page _ _)).trans (mbxOnly_setMbxWords _ _ _), e⟩

/-- A word of a value made of words. -/
theorem wideWord_wideOf (l : List Nat) (i : Nat) (hl : l.length ≤ 8) : wideWord (wideOf l) i = l.getD i 0 % 2 ^ 32 := by
  have h : l.foldr (fun w a => w % 2 ^ 32 + 2 ^ 32 * a) 0 < 2 ^ 256 :=
    Nat.lt_of_lt_of_le (foldWords_lt l) (Nat.pow_le_pow_right (by decide) (by omega))
  unfold wideWord wideOf bitsOf
  rw [BitVec.toNat_ofNat, Nat.mod_eq_of_lt h]
  clear h hl
  induction l generalizing i with
  | nil => simp
  | cons w l ih =>
    have hw := Nat.mod_lt w (by decide : 0 < 2 ^ 32)
    cases i with
    | zero => simp only [List.foldr_cons, List.getD_cons_zero]; simp
    | succ i =>
      rw [List.foldr_cons, List.getD_cons_succ, ← ih i, show 32 * (i + 1) = 32 + 32 * i from by omega, Nat.pow_add, ← Nat.div_div_eq_div_mul,
        Nat.add_mul_div_left _ _ (by decide : 0 < 2 ^ 32), Nat.div_eq_of_lt hw, Nat.zero_add]

theorem wideOf_twoWords (a : BitVec 64) : wideOf (twoWords a) = BitVec.ofNat 256 a.toNat := by
  unfold wideOf twoWords two; congr 1; simp; omega

/-- The first 64 bits of a value made of an address are that address. -/
theorem wideOf_twoWords_toNat (a : BitVec 64) : (wideOf (twoWords a)).toNat % 2 ^ 64 = a.toNat := by
  rw [wideOf_twoWords]; simp; omega

end Sys2Proof.Machine
end

