-- ==== Sys2Proof/Laws/Memory.lean ====
section
/-!
SUPPORT. The laws of bulk memory: a byte reads what was stored there, other bytes read as before, checks, corrections and poison leave the
data bytes alone, and every memory operation keeps the canonical form.
-/

namespace Sys2Proof.Machine

/-! ### Data bytes -/

/-- Two memories with the same data bytes: the same listing and the same open ranges. -/
def SameBytes (m n : Mem) : Prop := n.data = m.data ∧ n.opens = m.opens

theorem SameBytes.rfl' (m : Mem) : SameBytes m m := ⟨rfl, rfl⟩

theorem SameBytes.trans {a b c : Mem} (h : SameBytes a b) (k : SameBytes b c) : SameBytes a c :=
  ⟨k.1.trans h.1, k.2.trans h.2⟩

theorem memDefault_eq {m n : Mem} (h : n.opens = m.opens) : memDefault n = memDefault m := by
  funext a; simp only [memDefault, h]

theorem SameBytes.memByte {m n : Mem} (h : SameBytes m n) (a : Nat) : memByte n a = memByte m a := by
  simp only [Machine.memByte, memDefault_eq h.2, h.1]

theorem SameBytes.wf {m n : Mem} (h : SameBytes m n) (hw : m.wf = true) : n.wf = true := by
  simpa only [Mem.wf, memDefault_eq h.2, h.1] using hw

/-- A fold whose every round keeps the data bytes keeps them. -/
theorem sameBytes_foldl {β γ : Type} (p : γ → Mem) (f : γ → β → γ) (hf : ∀ x b, SameBytes (p x) (p (f x b))) (l : List β) (x : γ) :
    SameBytes (p x) (p (l.foldl f x)) := by
  induction l generalizing x with
  | nil => exact SameBytes.rfl' _
  | cons b r ih => exact (hf x b).trans (ih _)

@[simp] theorem memByte_setMemByte_same (m : Mem) (a : Nat) (b : Byte) : memByte (setMemByte m a b) a = b := by
  have h : memDefault (setMemByte m a b) = memDefault m := memDefault_eq rfl
  simp only [memByte, h]
  exact mapGet_mapSet_same _ _ _ _

theorem memByte_setMemByte_other {a c : Nat} (h : c ≠ a) (m : Mem) (b : Byte) : memByte (setMemByte m a b) c = memByte m c := by
  have hd : memDefault (setMemByte m a b) = memDefault m := memDefault_eq rfl
  simp only [memByte, hd]
  exact mapGet_mapSet_other h _ _ _

theorem setMemByte_wf (m : Mem) (a : Nat) (b : Byte) (h : m.wf = true) : (setMemByte m a b).wf = true := by
  have hd : memDefault (setMemByte m a b) = memDefault m := memDefault_eq rfl
  simp only [Mem.wf, hd]
  exact mapWf_mapSet _ _ _ _ h

theorem setMemBytes_wf (l : List Byte) (m : Mem) (a : Nat) (h : m.wf = true) : (setMemBytes m a l).wf = true := by
  induction l generalizing m a with
  | nil => exact h
  | cons b r ih => exact ih _ _ (setMemByte_wf m a b h)

/-- A byte outside the range stored reads as before. -/
theorem memByte_setMemBytes_outside (l : List Byte) (m : Mem) (a c : Nat) (h : c < a ∨ a + l.length ≤ c) :
    memByte (setMemBytes m a l) c = memByte m c := by
  induction l generalizing m a with
  | nil => rfl
  | cons b r ih =>
    simp only [List.length_cons] at h
    simp only [setMemBytes]
    rw [ih _ _ (by omega), memByte_setMemByte_other (by omega)]

/-- A byte of the range stored reads as the byte stored there. -/
theorem memByte_setMemBytes_inside (l : List Byte) (m : Mem) (a i : Nat) (h : i < l.length) :
    memByte (setMemBytes m a l) (a + i) = l[i] := by
  induction l generalizing m a i with
  | nil => simp at h
  | cons b r ih =>
    simp only [setMemBytes]
    cases i with
    | zero =>
      rw [Nat.add_zero, memByte_setMemBytes_outside _ _ _ _ (by omega)]
      simp
    | succ j =>
      have hj : j < r.length := by simpa using h
      have := ih (setMemByte m a b) (a + 1) j hj
      rw [show a + (j + 1) = a + 1 + j by omega, this]
      simp

/-! ### Codes and poison -/

theorem setFlip_bytes (m : Mem) (c s o : Nat) (v : Byte) : SameBytes m (setFlip m c s o v) := ⟨rfl, rfl⟩

theorem setPoison_bytes (m : Mem) (a : Nat) (b : Bool) : SameBytes m (setPoison m a b) := ⟨rfl, rfl⟩

theorem toggleBit_bytes (m : Mem) (c s w b : Nat) : SameBytes m (toggleBit m c s w b) := ⟨rfl, rfl⟩

theorem recomputeParity_bytes (m : Mem) (c s : Nat) : SameBytes m (recomputeParity m c s) :=
  sameBytes_foldl id _ (fun x _ => (setFlip_bytes x _ _ _ _).trans (setFlip_bytes _ _ _ _ _)) _ m

theorem clearWord_bytes (m : Mem) (r : WordRef) : SameBytes m (clearWord m r) :=
  sameBytes_foldl id _ (fun x _ => setFlip_bytes x _ _ _ _) _ m

theorem carryParity_bytes (m : Mem) (c sl o d : Nat) : SameBytes m (carryParity m c sl o d) :=
  (setFlip_bytes m _ _ _ _).trans (setFlip_bytes _ _ _ _ _)

theorem settleWord_bytes (m : Mem) (r : WordRef) (a n : Nat) : SameBytes m (settleWord m r a n) := by
  simp only [settleWord]
  refine SameBytes.trans ?_ (setPoison_bytes _ _ _)
  refine SameBytes.trans ?_ (sameBytes_foldl id _ (fun x _ => carryParity_bytes x _ _ _ _) _ _)
  refine SameBytes.trans (sameBytes_foldl id _ ?_ _ m) (setFlip_bytes _ _ _ _ _)
  intro x i
  dsimp only [id]
  split
  · exact setFlip_bytes _ _ _ _ _
  · exact SameBytes.rfl' _

/-- The codes of a word written change; no data byte does. -/
theorem rewriteWord_bytes (m : Mem) (x : WordRef × Bool) (a n : Nat) : SameBytes m (rewriteWord m x a n) := by
  unfold rewriteWord
  split
  · exact (clearWord_bytes m x.1).trans ((setPoison_bytes _ _ _).trans (recomputeParity_bytes _ _ _))
  · split
    · exact settleWord_bytes _ _ _ _
    · exact SameBytes.rfl' _

/-! ### The event log, whose entries lie in bulk memory too -/

theorem freshSlot_bytes (s : State) (d p : Nat) : SameBytes s.mem (freshSlot s d p).mem := by
  unfold freshSlot
  split
  · exact SameBytes.rfl' _
  · exact sameBytes_foldl id _ (fun m r => rewriteWord_bytes m (r, false) _ _) _ s.mem

/-- Memory that agrees with another's stays so over an operation on it that keeps the bytes. -/
theorem SameBytes.from {m : Mem} {x y : State} (h : SameBytes x.mem y.mem) (hx : x.mem = m) : SameBytes m y.mem := hx ▸ h

theorem storeEntry_bytes (s : State) (l : List LogEntry) (e : LogEntry) (d : Nat) : SameBytes s.mem (storeEntry s l e d).mem := by
  simp only [storeEntry, raiseIf_mem]
  exact (freshSlot_bytes _ _ _).from rfl

theorem noteHead_mem (s : State) : (noteHead s).mem = s.mem := by
  unfold noteHead
  split <;> simp

theorem makeEntry_bytes (s : State) (p b k : Nat) (l : List Nat) : SameBytes s.mem (makeEntry s p b k l).mem := by
  simp only [makeEntry, noteHead_mem]
  split
  · exact (storeEntry_bytes _ _ _ _).from (setHealth_mem _ _)
  · split
    · rw [raiseIf_mem]; exact SameBytes.rfl' _
    · exact SameBytes.rfl' _

theorem logEntry_bytes (s : State) (p b k : Nat) (l : List Nat) : SameBytes s.mem (logEntry s p b k l).mem := by
  unfold logEntry
  split
  · exact SameBytes.rfl' _
  · exact makeEntry_bytes _ _ _ _ _

theorem dropSpare_bytes (s : State) (c u : Nat) : SameBytes s.mem (dropSpare s c u).mem := by
  simp only [dropSpare, logSpare]
  exact (logEntry_bytes _ _ _ _ _).from (setHealth_mem _ _)

theorem addCandidate_bytes (s : State) (r : RowRef) : SameBytes s.mem (addCandidate s r).mem := by
  simp only [addCandidate]
  split
  · exact SameBytes.rfl' _
  · split
    · rw [raise_mem]
      refine SameBytes.trans ?_ ((dropSpare_bytes _ _ _).from (setMem_mem _ _))
      exact ⟨rfl, rfl⟩
    · exact ⟨rfl, rfl⟩

theorem countCe_bytes (s : State) (c sl o : Nat) : SameBytes s.mem (countCe s c sl o).mem := by
  simp only [countCe]
  split
  · refine SameBytes.trans ?_ (addCandidate_bytes _ _)
    exact ⟨by simp, by simp⟩
  · exact ⟨by simp, by simp⟩

theorem checkWord_bytes (s : State) (r : WordRef) : SameBytes s.mem (checkWord s r).1.mem := by
  unfold checkWord
  split
  · exact SameBytes.rfl' _
  · exact (toggleBit_bytes s.mem _ _ _ _).trans (countCe_bytes (setMem s _) _ _ _)
  · exact SameBytes.rfl' _

theorem fixSingle_bytes (m : Mem) (c sl w wa : Nat) : SameBytes m (fixSingle m c sl w wa) := by
  unfold fixSingle
  split
  · exact toggleBit_bytes _ _ _ _ _
  · exact SameBytes.rfl' _

theorem pageDecode_bytes (s : State) (r : WordRef) : SameBytes s.mem (pageDecode s r).mem := by
  simp only [pageDecode]
  split
  · exact SameBytes.rfl' _
  · refine SameBytes.trans ?_ (sameBytes_foldl State.mem _ (fun x _ => addCandidate_bytes x _) _ _)
    simp only [noteInput_mem, raise_mem, bump_mem, setMem_mem]
    exact (sameBytes_foldl id _ (fun x _ => setFlip_bytes x _ _ _ _) _ s.mem).trans
      (sameBytes_foldl id _ (fun x _ => fixSingle_bytes x _ _ _ _) _ _)

theorem poisonWord_bytes (s : State) (r : WordRef) (b : Bool) : SameBytes s.mem (poisonWord s r b).mem := by
  simp only [poisonWord]
  split
  · split
    · exact addCandidate_bytes _ _
    · exact SameBytes.rfl' _
  · refine SameBytes.trans ?_ (addCandidate_bytes _ _)
    simp only [noteInput_mem, setWide_mem, raise_mem, bump_mem, setMem_mem]
    exact ((setFlip_bytes s.mem _ _ _ _).trans (setPoison_bytes _ _ _)).trans (recomputeParity_bytes _ _ _)

/-- Checking words corrects differences and counts; it leaves every data byte. -/
theorem checkWords_bytes (s : State) (l : List WordRef) : SameBytes s.mem (checkWords s l).1.mem := by
  simp only [checkWords]
  split
  · exact SameBytes.rfl' _
  · have h1 := sameBytes_foldl (fun (x : State × List (WordRef × Bool)) => x.1.mem)
      (fun a r => let c := checkWord a.1 r; (c.1, a.2 ++ [(r, c.2)])) (fun x b => checkWord_bytes x.1 b) l (s, [])
    split
    · exact h1
    · refine h1.trans (SameBytes.trans ?_ (sameBytes_foldl (fun (x : State × List (WordRef × Bool)) => x.1.mem) _ ?_ _ _))
      · refine sameBytes_foldl (fun (x : State × List (Nat × Nat)) => x.1.mem) _ ?_ _ (_, _)
        intro x b
        split
        · exact SameBytes.rfl' _
        · exact pageDecode_bytes _ _
      · intro x b
        split
        · exact SameBytes.rfl' _
        · exact checkWord_bytes _ _

/-- Poisoning words leaves every data byte. -/
theorem poisonWords_bytes (s : State) (l : List (WordRef × Bool)) (b : Bool) :
    SameBytes s.mem (l.foldl (fun s x => poisonWord s x.1 b) s).mem :=
  sameBytes_foldl State.mem _ (fun x w => poisonWord_bytes x w.1 b) l s

/-! ### Operations -/

theorem applyUpsets_bytes (s : State) (l : List Upset) : SameBytes s.mem (applyUpsets s l).mem := by
  simp only [applyUpsets, setMem_mem]
  refine sameBytes_foldl id _ ?_ l s.mem
  intro x u
  dsimp only [id]
  split
  · exact setFlip_bytes _ _ _ _ _
  · exact SameBytes.rfl' _

/-- A read leaves every data byte, whether it answers with bytes or with a bus error. -/
theorem memRead_bytes (s : State) (a n : Nat) : SameBytes s.mem (memRead s a n).1.mem := by
  simp only [memRead]
  split
  · exact SameBytes.rfl' _
  · split
    · exact checkWords_bytes _ _
    · exact (checkWords_bytes _ _).trans (poisonWords_bytes _ _ _)

/-- A write that answers done has stored its bytes; one that ends in a bus error has stored none. -/
theorem memWrite_bytes (s : State) (a : Nat) (l : List Byte) :
    ∃ m, SameBytes s.mem m ∧ ((memWrite s a l).2 = true → (memWrite s a l).1.mem = setMemBytes m a l) ∧
      ((memWrite s a l).2 = false → SameBytes s.mem (memWrite s a l).1.mem) := by
  have hc := checkWords_bytes s (wordsOf s a l.length)
  have hp := fun b => poisonWords_bytes (checkWords s (wordsOf s a l.length)).1 b false
  unfold memWrite
  simp only
  generalize checkWords s (wordsOf s a l.length) = c at hc hp ⊢
  split
  · exact ⟨s.mem, SameBytes.rfl' _, by simp, fun _ => SameBytes.rfl' _⟩
  · split
    · exact ⟨_, hc.trans (sameBytes_foldl id _ (fun m x => rewriteWord_bytes m x a l.length) c.2 c.1.mem), fun _ => rfl, fun h => Bool.noConfusion h⟩
    · exact ⟨s.mem, SameBytes.rfl' _, fun h => Bool.noConfusion h, fun _ => hc.trans (hp _)⟩

/-- Where no stored bit differs from what was written, a read of a range that can be reached returns its bytes and changes nothing. -/
theorem memRead_clean {s : State} {a n : Nat} (hf : s.mem.flips = []) (hp : s.mem.poison = []) (hr : rangeReachable s a n = true) :
    memRead s a n = (s, some ((List.range n).map (fun i => memByte s.mem (a + i)))) := by
  unfold memRead checkWords
  simp [hr, hf, hp]

theorem memRead_wf (s : State) (a n : Nat) (h : s.mem.wf = true) : (memRead s a n).1.mem.wf = true := (memRead_bytes s a n).wf h

theorem memWrite_wf (s : State) (a : Nat) (l : List Byte) (h : s.mem.wf = true) : (memWrite s a l).1.mem.wf = true := by
  obtain ⟨m, hm, ht, hf⟩ := memWrite_bytes s a l
  cases hb : (memWrite s a l).2 with
  | true => rw [ht hb]; exact setMemBytes_wf _ _ _ (hm.wf h)
  | false => exact (hf hb).wf h

/-- A byte outside the range written reads as before. -/
theorem memWrite_outside (s : State) (a c : Nat) (l : List Byte) (h : c < a ∨ a + l.length ≤ c) :
    memByte (memWrite s a l).1.mem c = memByte s.mem c := by
  obtain ⟨m, hm, ht, hf⟩ := memWrite_bytes s a l
  cases hb : (memWrite s a l).2 with
  | true => rw [ht hb, memByte_setMemBytes_outside _ _ _ _ h, hm.memByte]
  | false => exact (hf hb).memByte c

/-- A byte that a completed write stored reads as stored. -/
theorem memWrite_inside (s : State) (a i : Nat) (l : List Byte) (hb : (memWrite s a l).2 = true) (h : i < l.length) :
    memByte (memWrite s a l).1.mem (a + i) = l[i] := by
  obtain ⟨m, _, ht, _⟩ := memWrite_bytes s a l
  rw [ht hb, memByte_setMemBytes_inside _ _ _ _ h]

theorem checkPage_bytes (s : State) (c p sl : Nat) (b : Bool) : SameBytes s.mem (checkPage s c p sl b).mem := by
  simp only [checkPage]
  exact (checkWords_bytes _ _).trans (poisonWords_bytes _ _ _)

theorem watchCompare_mem (s : State) (a : Nat) : (watchCompare s a).mem = s.mem := by
  simp only [watchCompare]
  generalize List.range 4 = l
  generalize hv : (BitVec.ofNat 64 (leNat ((List.range 8).map (fun i => seenByte s (a / 8 * 8 + i)))) : Dword) = v
  generalize nextFire s = fire
  have : ∀ x : State, (l.foldl (fun s d => if dieAwake s d && (dispOf s d).watches.any (fun w => w.counter == a / 8 * 8) then
      setDisp s d (fireWatches (dispOf s d) (a / 8 * 8) v fire) else s) x).mem = x.mem := by
    induction l with
    | nil => intro x; rfl
    | cons d r ih =>
      intro x
      simp only [List.foldl_cons]
      rw [ih]
      split <;> rfl
  exact this s

theorem adderUpdate_wf (s : State) (fn a v : Nat) (h : s.mem.wf = true) : (adderUpdate s fn a v).1.mem.wf = true := by
  simp only [adderUpdate, memReadNat]
  split
  · exact h
  · split
    · exact memRead_wf _ _ _ h
    · rw [watchCompare_mem]
      simp only [raiseIf_mem, bumpBy_mem]
      exact memWrite_wf _ _ _ (memRead_wf _ _ _ h)

/-- Opening a range keeps the form: its bytes are unlisted, and no other byte's unlisted reading changes. -/
theorem openRange_wf (s : State) (a n : Nat) (h : s.mem.wf = true) : (openRange s a n).mem.wf = true := by
  simp only [openRange, setMem_mem, Mem.wf, mapKeep, takeFree, mapWf] at h ⊢
  generalize hs : s.freeCount = k
  generalize s.mem = m at h ⊢
  have key : ∀ (l : SMap Byte) (lo : Nat), mapWfFrom (memDefault m) lo l = true →
      mapWfFrom (memDefault { m with
        opens := ⟨a, n, k⟩ :: m.opens,
        data := m.data.filter (fun e => !(decide (a ≤ e.1) && decide (e.1 < a + n))) }) lo
        (l.filter (fun e => !(decide (a ≤ e.1) && decide (e.1 < a + n)))) = true := by
    intro l
    induction l with
    | nil => intro lo _; rfl
    | cons e r ih =>
      intro lo hl
      simp only [mapWfFrom, Bool.and_eq_true, decide_eq_true_eq] at hl
      by_cases hp : (!(decide (a ≤ e.1) && decide (e.1 < a + n))) = true
      · rw [List.filter_cons_of_pos (p := fun (e : Nat × Byte) => !(decide (a ≤ e.1) && decide (e.1 < a + n))) hp]
        have hd : memDefault { m with
            opens := ⟨a, n, k⟩ :: m.opens,
            data := m.data.filter (fun e => !(decide (a ≤ e.1) && decide (e.1 < a + n))) } e.1 = memDefault m e.1 := by
          simp only [memDefault, List.find?_cons]
          have : (decide (a ≤ e.1) && decide (e.1 < a + n)) = false := by simpa only [Bool.not_eq_true'] using hp
          rw [this]
        simp only [mapWfFrom, hd, Bool.and_eq_true, decide_eq_true_eq]
        exact ⟨hl.1, ih _ hl.2⟩
      · rw [List.filter_cons_of_neg (p := fun (e : Nat × Byte) => !(decide (a ≤ e.1) && decide (e.1 < a + n))) hp]
        exact mapWfFrom_mono _ (by omega) _ (ih _ hl.2)
  exact key m.data 0 h

theorem partRead_bytes (s : State) (d f o n : Nat) : SameBytes s.mem (partRead s d f o n).1.mem := by
  simp only [partRead]
  split
  · exact SameBytes.rfl' _
  · split
    · exact checkWords_bytes _ _
    · exact (checkWords_bytes _ _).trans (poisonWords_bytes _ _ _)

theorem partWrite_wf (s : State) (d f o : Nat) (l : List Byte) (h : s.mem.wf = true) : (partWrite s d f o l).1.mem.wf = true := by
  simp only [partWrite]
  split
  · exact h
  · simp only [setMem_mem]
    have h1 := SameBytes.wf ((checkWords_bytes s (partWords s d f o l.length)).trans (sameBytes_foldl id
      (fun m x => rewriteWord m x (8 * x.1.wa) 8) (fun m x => rewriteWord_bytes m x _ _)
      (checkWords s (partWords s d f o l.length)).2 _)) h
    dsimp only [id] at h1
    generalize l.zipIdx = z
    generalize List.foldl (fun m x => rewriteWord m x (8 * x.1.wa) 8) _ _ = m at h1 ⊢
    induction z generalizing m with
    | nil => exact h1
    | cons b r ih => exact ih _ (setMemByte_wf _ _ _ h1)

end Sys2Proof.Machine
end

