-- ==== Sys2Proof/Laws/Tile.lean ====
section
/-!
SUPPORT. How a tile instruction is issued and how it falls through: the lemmas that proofs about tile programs cite instead of unfolding
`issue`, `finish` and `moveOn`.
-/

namespace Sys2Proof.Machine

/-- A core that `Runs` an instruction performs exactly that instruction's effect on what has been read. -/
theorem issue_runs {s0 s : State} {g op : Nat} {t : Tile} {i : TileWord} (h : Runs s0 g op s t i)
    (eff : State → Tile → TileWord → State) : issue s0 g op eff = eff s t i := by
  obtain ⟨ho, hl, t0, w, ht, hw, rfl, hr⟩ := h
  simp [issue, ht, hw, ho, hl, hr]

/-- With no tile issuing, an instruction row changes nothing. -/
theorem issue_none {s : State} {g op : Nat} (h : issuing s g = none) (eff : State → Tile → TileWord → State) :
    issue s g op eff = s := by
  simp [issue, h]

/-- Where no bit has flipped in what an instruction reads, reading changes nothing. -/
theorem readSources_clean {s : State} {g : Nat} {t : Tile} (i : TileWord) (hc : (coreOf s g).soft = []) (ht : t.ctx.soft = []) :
    readSources s g t i = (s, t) := by
  simp [readSources, meet, meetFiles, hc, ht]

/-- Falling through within the image leaves the next registers. -/
theorem finish_fits (s : State) (g : Nat) (t : Tile) (x : Ctx) (h : fits t (advance x)) :
    finish s g t x = tileAt s g t (advance x) := by
  have h' : (advance x).pc < t.task.len := h
  simp [finish, moveOn, tileAt, Nat.not_le.mpr h']

/-- Going to a target within the image leaves the next registers. -/
theorem moveOn_lt (s : State) (g : Nat) (t : Tile) (pc : Nat) (x : Ctx) (h : x.pc < t.task.len) : moveOn s g t pc x = tileAt s g t x := by
  simp [moveOn, tileAt, Nat.not_le.mpr h]

/-- A row whose effect is to fall through with registers `x` after the change `u` completes. -/
theorem completes_of_issue {c : CoreId → Instr} {op : Nat} {u : State → Nat → Tile → TileFields → State}
    {x : State → Nat → Tile → TileFields → Ctx}
    (h : ∀ s0 (g : CoreId), exec (c g) s0 =
      .next (issue s0 g op (fun s t i => finish (u s g t (fieldsOf i)) g t (x s g t (fieldsOf i))))) :
    Completes c op u x := by
  intro s0 s g t i hr hf
  rw [h, issue_runs hr, finish_fits _ _ _ _ hf]

end Sys2Proof.Machine
end

