-- ==== Sys2Proof/Tests/Witness1.lean ====
section
/-!
SUPPORT. Witnesses: for the statements about the queue, registers and tile programs, concrete states and operands that meet the
hypotheses of each clause together. Each theorem applies its statement to them.
-/

namespace Sys2Proof.Tests

open Sys2Proof Sys2Proof.Machine

/-- A command that a statement answers with a next state completes. -/
theorem done {o : Host.Outcome State Fault Refusal} {t : State} (h : o = .next t) : completes o = true := by rw [h]; rfl

/-- A pair from its second part. -/
theorem pairOf {α β : Type} {x : α × β} {b : β} (h : x.2 = b) : x = (x.1, b) := by rw [← h]

/-! ### States for tile programs -/

/-- A task of sixteen words that may not be run again, with four slots. -/
def wTask : Task := ⟨0, 16, 0, 0, 4, true, 0, false, 0, 0, []⟩

/-- A running tile with registers `x`. -/
def wTile (x : Ctx) : Tile := ⟨wTask, 0, 0, x, .running, .none, 0, false, 0, 0⟩

/-- A core whose tile has registers `x` and whose image begins with word `w`. -/
def wCore (w : Dword) (x : Ctx) : Core := { tile := some (wTile x), image := some ⟨0, 0, [w]⟩ }

/-- Core 0 is about to run the word `w` with registers `x`, at PC 0. -/
def wState (w : Dword) (x : Ctx) : State := setCore State.reset 0 (wCore w x)

/-- A word of format A. -/
def wA (op : BitVec 8) (d a b c : BitVec 5) (mk : BitVec 3) (fn : BitVec 8) (imm : BitVec 24) : Dword :=
  encodeTile (.fmtA op d a b c mk 0 fn imm)

/-- A word of format L. -/
def wL (op : BitVec 8) (d a : BitVec 5) (fn : BitVec 6) (imm : BitVec 40) : Dword := encodeTile (.fmtL op d a fn imm)

theorem core_of_wState (w : Dword) (x : Ctx) : coreOf (wState w x) 0 = wCore w x := coreOf_setCore_same ..

/-- Core 0 of `wState`, with nothing flipped, issues its word. -/
theorem runs_wState (w : Dword) (x : Ctx) (op : Nat) (hp : x.pc = 0) (ho : (decodeTile w).op.toNat = op)
    (hl : (decodeTile w).legal = true) (hs : x.soft = [] := by rfl) :
    Runs (wState w x) (0 : CoreId).val op (wState w x) (wTile x) (decodeTile w) := by
  have hc : coreOf (wState w x) (0 : CoreId).val = wCore w x := core_of_wState w x
  refine ⟨ho, hl, wTile x, w, ?_, ?_, rfl, ?_⟩
  · simp only [issuing, hc]; rfl
  · simp only [fetchWord, hc, wCore, wTile, hp]; rfl
  · exact readSources_clean _ (by rw [hc]; rfl) hs

theorem fits_of {t : Tile} {x : Ctx} (h : x.pc < t.task.len) : fits t x := h

/-! ### Queue, reset, register accesses -/

theorem witness_OnlyUnmappedPagesFault : Obligations.OnlyUnmappedPagesFault → completes (exec (.nop 0) State.reset) = true ∧
    exec (.voteScan 7) State.reset = .fault .noSuchUnit ∧ completes (exec (.eventNotify 6) State.reset) = true :=
  fun h => ⟨h.1 (.nop 0) State.reset (by intro p; simp) (by intro p; simp), (h.2.1 7 State.reset).1.2 (by decide),
    (h.2.2 6 State.reset).2.2 (by decide)⟩

theorem witness_IdleStepTicks : Obligations.IdleStepTicks → ∃ t k, Sys2Proof.Machine.step State.reset = .next t ∧
    t.time = State.reset.time + BitVec.ofNat 64 k :=
  fun h => let ⟨t, k, e, f, _⟩ := h State.reset rfl; ⟨t, k, e, f⟩

theorem witness_ResetState : Obligations.ResetState → fld State.reset 3 fTimeBaseSyncTol = fTimeBaseSyncTol.reset % 2 ^ fTimeBaseSyncTol.width :=
  fun h => h.1 3 .timeBase fTimeBaseSyncTol (by decide) (by decide) (by decide)

theorem witness_RegisterWindowWidth : Obligations.RegisterWindowWidth →
    exec (.registerWrite (.k 0) 0xF0000000000 16 5) State.reset = .next (busError State.reset (.k 0) 0xF0000000000 true) ∧
    exec (.rcRead (.u 17) 0xF0000FFFFFF 32) State.reset = .next (busError State.reset (.u 17) 0xF0000FFFFFF false) ∧
    fCommonErr.off % 4 = 0 :=
  fun h => ⟨(h.2 State.reset (.k 0) 0xF0000000000 16 5 (by decide) (by decide) (.inl (by decide))).1,
    (h.2 State.reset (.u 17) 0xF0000FFFFFF 32 0 (by decide) (by decide) (.inr (by decide))).2,
    (h.1 .manager fCommonErr (by decide)).1⟩

theorem witness_UnansweredPages : Obligations.UnansweredPages →
    exec (.rcRead (.c 5) (BitVec.ofNat 44 (regBase + 4096 * 0 + 0)) 32) State.reset =
      .next (busError State.reset (.c 5) (BitVec.ofNat 44 (regBase + 4096 * 0 + 0)).toNat false) ∧
    exec (.rcRead (.k 3) (BitVec.ofNat 44 (regBase + 4096 * 0x5BF + 0xFFC)) 32) State.reset =
      .next (busError State.reset (.k 3) (BitVec.ofNat 44 (regBase + 4096 * 0x5BF + 0xFFC)).toNat false) :=
  fun h => ⟨(h State.reset (.c 5) 0 0 0 (by decide) (by decide) (.inl (by decide))).2.1,
    (h State.reset (.k 3) 0x5BF 0xFFC 0 (by decide) (by decide) (.inr (by decide))).2.1⟩

theorem witness_GuardedWritesDenied : Obligations.GuardedWritesDenied →
    completes (exec (.registerWrite (.u 0) (BitVec.ofNat 44 (regBase + 4096 * 9 + 0x108)) 32 1) State.reset) = true ∧
    completes (exec (.registerWrite .x (BitVec.ofNat 44 (regBase + 4096 * 0 + 0x100)) 32 1) State.reset) = true :=
  fun h => ⟨done (h State.reset (.u 0) 9 .store1 0x108 1 (by decide) (by decide) (by decide) (by decide) (by decide) (by decide) (by decide)
      (by decide)),
    done (h State.reset .x 0 .manager 0x100 1 (by decide) (by decide) (by decide) (by decide) (by decide) (by decide) (by decide)
      (by decide))⟩

theorem witness_GuardedMailboxValues : Obligations.GuardedMailboxValues → completes (exec (.mailboxRead (.u 0) 0x30 0x91 false) State.reset) = true ∧
    completes (exec (.mailboxWrite .x 6 0x103) State.reset) = true :=
  fun h => ⟨let ⟨_, e, _⟩ := (h State.reset (.u 0) 0x30 .transport wRoute (by decide) (by decide) (by decide) (by decide) (by decide)
      (by decide)).1 false (by decide); done e,
    let ⟨_, e, _⟩ := (h State.reset .x 6 .health wRiskInput (by decide) (by decide) (by decide) (by decide) (by decide) (by decide)).2.1
      (by decide); done e⟩

theorem witness_EventReads : Obligations.EventReads →
    completes (exec (.rcRead (.u 0) (BitVec.ofNat 44 (regBase + 4096 * 2 + 0x24)) 32) State.reset) = true :=
  fun h => done (h State.reset (.u 0) 2 .security (by decide) (by decide) (by decide) (by decide) (by decide)).1

/-- The module ready for work, with every die awake. -/
def wReady : State := setFld (setFld State.reset 0 stManagerModuleState msReady) 0 fManagerAwake 0xF

theorem witness_OperandCacheWindow : Obligations.OperandCacheWindow →
    completes (exec (.rcRead (.k 0) (BitVec.ofNat 44 (0x80000000000 + 0x200000 * (1215 : CoreId).val + 0x17FFFC)) (8 * 4)) wReady) = true ∧
    completes (exec (.registerWrite .x (BitVec.ofNat 44 (0x80000000000 + 0x200000 * (7 : CoreId).val + 0x180000)) (8 * 1) 3) wReady) = true :=
  fun h => ⟨done ((h wReady (.k 0) 1215 0x17FFFC 4 0 (by decide) (by decide) (by decide)).1 (by decide) (by decide) (by decide)).1,
    done ((h wReady .x 7 0x180000 1 3 (by decide) (by decide) (by decide)).2 (by decide)).2⟩

/-! ### Tile programs -/

theorem witness_TileWordsJoinAndSplit : Obligations.TileWordsJoinAndSplit →
    decodeTile (encodeTile (.fmtL 0x10 31 0 0 0xFFFFFFFFFF)) = .fmtL 0x10 31 0 0 0xFFFFFFFFFF :=
  fun h => h.1 _ (by decide)

theorem witness_IllegalWordEndsTile : Obligations.IllegalWordEndsTile → completes (exec (.nop 0) (wState 0x0800000000000000 {})) = true :=
  fun h => done (h (wState 0x0800000000000000 {}) 0 (wTile {}) 0x0800000000000000 (by simp only [issuing]; rw [show coreOf (wState 0x0800000000000000 {}) (0 : CoreId).val = wCore 0x0800000000000000 {} from core_of_wState ..]; rfl)
    (by simp only [fetchWord]; rw [show coreOf (wState 0x0800000000000000 {}) (0 : CoreId).val = wCore 0x0800000000000000 {} from core_of_wState ..]; rfl) (.inr (by decide)))

/-- Registers with values in S1 to S5. -/
def wRegs (a b c : Dword) : Ctx := { s := [(1, a), (2, b), (3, c)] }

theorem witness_ScalarInstructionsComplete : Obligations.ScalarInstructionsComplete →
    completes (exec (.li 0) (wState (wL 0x10 1 0 0 0x8000000000) {})) = true ∧
    completes (exec (.sop 0 []) (wState (wA 0x13 1 2 3 0 0 0 0) (wRegs 1 2 3))) = true :=
  fun h => ⟨done (h.2.1 _ _ 0 _ _ (runs_wState _ _ _ rfl (by decide) (by decide)) (fits_of (by decide))),
    done (h.2.2.2.2.2 _ _ 0 [] _ _ (runs_wState _ _ _ rfl (by decide) (by decide)) (fits_of (by decide)))⟩

theorem witness_ControlInstructionsComplete : Obligations.ControlInstructionsComplete →
    completes (exec (.jmp 0) (wState (wA 1 0 0 0 0 0 0 15) {})) = true ∧
    completes (exec (.br 0) (wState (wA 2 0 1 2 0 0 0 15) (wRegs 5 5 0))) = true ∧
    completes (exec (.br 0) (wState (wA 2 0 1 2 0 0 0 15) (wRegs 5 6 0))) = true ∧
    completes (exec (.call 0) (wState (wA 4 0 0 0 0 0 0 15) {})) = true ∧
    completes (exec (.ret 0) (wState (wA 5 0 0 0 0 0 0 0) { calls := [15] })) = true ∧
    completes (exec (.loop 0) (wState (wA 3 2 1 0 0 0 0 14) (wRegs 0x100000000 0 0))) = true ∧
    completes (exec (.loop 0) (wState (wA 3 2 1 0 0 0 0 15) (wRegs 0xFFFFFFFF 0 0))) = true ∧
    completes (exec (.commit 0) (wState (wA 7 0 0 0 0 0 0 0) {})) = true ∧
    completes (exec (.abort 0) (wState (wA 6 0 0 0 0 0 0 0xFFFF) {})) = true :=
  fun h => ⟨done (h.1.1 _ _ 0 _ _ (runs_wState _ _ _ rfl (by decide) (by decide)) (by decide)),
    done (h.1.2.1 _ _ 0 _ _ (runs_wState _ _ _ rfl (by decide) (by decide)) (by decide) (by decide)),
    done (h.1.2.2.1 _ _ 0 _ _ (runs_wState _ _ _ rfl (by decide) (by decide)) (by decide) (fits_of (by decide))),
    done (h.1.2.2.2.1 _ _ 0 _ _ (runs_wState _ _ _ rfl (by decide) (by decide)) (by decide) (by decide)),
    done (h.1.2.2.2.2 _ _ 0 _ _ 15 [] (runs_wState _ _ _ rfl (by decide) (by decide)) rfl (by decide)),
    done ((h.2.1 _ _ 0 _ _ (runs_wState _ _ _ rfl (by decide) (by decide)) (by decide) (by decide) (by decide) (by intro e he; cases he) (by decide)).1 (by decide) (by decide)),
    done ((h.2.1 _ _ 0 _ _ (runs_wState _ _ _ rfl (by decide) (by decide)) (by decide) (by decide) (by decide) (by intro e he; cases he) (by decide)).2 (by decide) (by decide)),
    done (h.2.2.1 _ _ 0 _ _ (runs_wState _ _ _ rfl (by decide) (by decide)) ),
    done (h.2.2.2 _ _ 0 _ _ (runs_wState _ _ _ rfl (by decide) (by decide)) )⟩

theorem witness_ScalarMemoryInstructionsComplete : Obligations.ScalarMemoryInstructionsComplete →
    completes (exec (.sld 0) (wState (wL 0x14 1 2 3 0) (wRegs 0 0x17FFF8 0))) = true ∧
    completes (exec (.sst 0) (wState (wL 0x15 1 2 0 0xFFFFFFFFFF) (wRegs 7 0x180000 0))) = true ∧
    completes (exec (.rdreg 0) (wState (wA 0x16 1 2 0 0 0 2 0x24) {})) = true ∧
    completes (exec (.wrreg 0) (wState (wA 0x17 0 2 1 0 0 2 0x28) (wRegs 0xFFFFFFFF 0 0))) = true :=
  fun h => ⟨done (h.1.1 _ _ 0 _ _ (runs_wState _ _ _ rfl (by decide) (by decide)) (by decide) (by decide) (fits_of (by decide))),
    done (h.1.2 _ _ 0 _ _ (runs_wState _ _ _ rfl (by decide) (by decide)) (by decide) (by decide) (by decide) (fits_of (by decide))),
    done (h.2.1 _ _ 0 _ _ 0x24 0 _ (runs_wState _ _ _ rfl (by decide) (by decide)) (by decide) (pairOf (by decide)) (fits_of (by decide))),
    done (h.2.2 _ _ 0 _ _ 0x28 _ (runs_wState _ _ _ rfl (by decide) (by decide)) (by decide) (pairOf (by decide)) (fits_of (by decide)))⟩

theorem witness_VectorInstructionsComplete : Obligations.VectorInstructionsComplete →
    completes (exec (.vcmp 0) (wState (wA 0x41 1 2 3 0 0 5 0) {})) = true ∧
    completes (exec (.vext 0) (wState (wA 0x47 1 2 3 0 0 0 0) (wRegs 0 0 63))) = true ∧
    completes (exec (.mop 0) (wState (wA 0x4B 1 2 0 0 0 5 0) (wRegs 0 0xFFFFFFFFFFFFFFFF 0))) = true ∧
    completes (exec (.vop 0) (wState (wA 0x40 1 2 3 4 7 3 0) {})) = true ∧
    completes (exec (.vbcast 0) (wState (wA 0x46 1 2 0 0 0 0 0) (wRegs 0 5 0))) = true ∧
    completes (exec (.vred 0) (wState (wA 0x48 1 2 0 0 7 4 0) {})) = true ∧
    completes (exec (.vcvt 0) (wState (wA 0x49 1 2 0 30 0 131 0) {})) = true :=
  fun h => ⟨done (h.1.1 _ _ 0 _ _ (runs_wState _ _ _ rfl (by decide) (by decide)) (fits_of (by decide))),
    done (h.1.2.2.1 _ _ 0 _ _ (runs_wState _ _ _ rfl (by decide) (by decide)) (fits_of (by decide))),
    done (h.1.2.2.2 _ _ 0 _ _ (runs_wState _ _ _ rfl (by decide) (by decide)) (fits_of (by decide))),
    done (h.2.1.1 _ _ 0 _ _ (runs_wState _ _ _ rfl (by decide) (by decide)) (fits_of (by decide))),
    done (h.2.1.2.2 _ _ 0 _ _ (runs_wState _ _ _ rfl (by decide) (by decide)) (fits_of (by decide))),
    done (h.2.2.1 _ _ 0 _ _ (runs_wState _ _ _ rfl (by decide) (by decide)) (fits_of (by decide))),
    done (h.2.2.2 _ _ 0 _ _ (runs_wState _ _ _ rfl (by decide) (by decide)) (fits_of (by decide)))⟩

/-- An operand cache with a quantisation descriptor (ts = 1.0) at 32 and a target record of one block of 16 elements at 64. -/
def wQuantOc : SMap Byte := [(34, 0x80), (35, 0x3F), (65, 0x10), (69, 0x20), (73, 0x30), (76, 16)]

/-- Core 0 about to run a VQUANT of the row at `row` with those records. -/
def wQuant (fn : BitVec 8) : State :=
  setCore State.reset 0 { wCore (wA 0x4A 0 1 2 3 0 fn 0) (wRegs 0x17FFC0 32 64) with oc := wQuantOc }

theorem runs_wQuant (fn : BitVec 8) (hl : (decodeTile (wA 0x4A 0 1 2 3 0 fn 0)).legal = true)
    (ho : (decodeTile (wA 0x4A 0 1 2 3 0 fn 0)).op.toNat = 0x4A) :
    Runs (wQuant fn) (0 : CoreId).val 0x4A (wQuant fn) (wTile (wRegs 0x17FFC0 32 64)) (decodeTile (wA 0x4A 0 1 2 3 0 fn 0)) := by
  have hc : coreOf (wQuant fn) (0 : CoreId).val =
    { wCore (wA 0x4A 0 1 2 3 0 fn 0) (wRegs 0x17FFC0 32 64) with oc := wQuantOc } := coreOf_setCore_same ..
  refine ⟨ho, hl, _, _, ?_, ?_, rfl, readSources_clean _ (by rw [hc]; rfl) rfl⟩
  · simp only [issuing, hc]; rfl
  · simp only [fetchWord, hc]; rfl

theorem witness_VectorMemoryInstructionsComplete : Obligations.VectorMemoryInstructionsComplete →
    completes (exec (.vld 0 []) (wState (wA 0x44 1 2 0 0 7 0 0) (wRegs 0 0x17FF00 0))) = true ∧
    completes (exec (.vst 0) (wState (wA 0x45 1 2 0 0 0 0 0) (wRegs 0 0 0))) = true ∧
    completes (exec (.vquant 0) (wQuant 0)) = true :=
  fun h => ⟨done (h.1.1 _ _ 0 [] _ _ (runs_wState _ _ _ rfl (by decide) (by decide)) (by decide) (by decide) (fits_of (by decide))),
    done (h.1.2 _ _ 0 _ _ (runs_wState _ _ _ rfl (by decide) (by decide)) (by decide) (by decide) (by decide) (fits_of (by decide))),
    done (h.2 _ _ 0 _ _ ⟨0x3F800000, 0, false, false, 0, 0, 0⟩ 0x1000 0x2000 0x3000 16 (runs_wQuant 0 (by decide) (by decide)) (by decide) (by decide) (by decide) (by decide) (by decide) (by decide) (by decide) (by decide) (by decide) (by decide) (by decide) (by decide) (fits_of (by decide)))⟩

theorem witness_CopyInstructionsComplete : Obligations.CopyInstructionsComplete →
    completes (exec (.put 0) (wState (wA 0x21 0 1 2 3 0 0 0) (wRegs 0 0x17FFF0 16))) = true ∧
    completes (exec (.fput 0) (wState (wA 0x22 0 1 2 3 0 0 0) (wRegs 0 0 0x180000))) = true ∧
    completes (exec (.scatter 0) (wState (wA 0x51 0 1 2 3 0 0 0x100) (wRegs 0 0 0x1000))) = true ∧
    completes (exec (.dma 0) (wState (wA 0x20 0 1 2 3 0 0 15) (wRegs 0 0 16))) = true ∧
    completes (exec (.dma 0) (wState (wA 0x20 0 1 2 3 0 1 15) (wRegs 0 0x17FFF0 16))) = true ∧
    completes (exec (.dma 0) (wState (wA 0x20 0 1 2 3 0 2 15) (wRegs 0 0x10 16))) = true ∧
    completes (exec (.dma 0) (wState (wA 0x20 0 1 2 3 0 2 15) (wRegs 0 0x100000000000 16))) = true ∧
    completes (exec (.gather 0) (wState (wA 0x50 0 1 2 3 0 0 0x100) (wRegs 0 0 0x1000))) = true ∧
    completes (exec (.gather 0) (wState (wA 0x50 0 1 2 3 0 1 0x100) (wRegs 0 0 0x1000))) = true ∧
    completes (exec (.atom 0) (wState (wA 0x52 0 1 2 3 0 0 0x100) (wRegs 0 0 0x1000))) = true :=
  fun h => ⟨done (h.1.1 _ _ 0 _ _ (runs_wState _ _ _ rfl (by decide) (by decide)) (by decide) (by decide) (by decide) (by decide) (fits_of (by decide))),
    done (h.1.2.1 _ _ 0 _ _ (runs_wState _ _ _ rfl (by decide) (by decide)) (by decide) (by decide) (by decide) (by decide) (fits_of (by decide))),
    done (h.1.2.2 _ _ 0 _ _ (runs_wState _ _ _ rfl (by decide) (by decide)) (by decide) (by decide) (fits_of (by decide))),
    done ((h.2.1 _ _ 0 _ _ (runs_wState _ _ _ rfl (by decide) (by decide)) (by decide) (by decide) (by decide) (by decide) (by decide) (by decide) (fits_of (by decide))).1 (by decide) (by decide)),
    done ((h.2.1 _ _ 0 _ _ (runs_wState _ _ _ rfl (by decide) (by decide)) (by decide) (by decide) (by decide) (by decide) (by decide) (by decide) (fits_of (by decide))).2.1 (by decide) (by decide)),
    done ((h.2.1 _ _ 0 _ _ (runs_wState _ _ _ rfl (by decide) (by decide)) (by decide) (by decide) (by decide) (by decide) (by decide) (by decide) (fits_of (by decide))).2.2.1 (by decide) (by decide) (by decide) (by decide)),
    done ((h.2.1 _ _ 0 _ _ (runs_wState _ _ _ rfl (by decide) (by decide)) (by decide) (by decide) (by decide) (by decide) (by decide) (by decide) (fits_of (by decide))).2.2.2 (by decide) (by decide) (by decide)),
    done ((h.2.2.1 _ _ 0 _ _ (runs_wState _ _ _ rfl (by decide) (by decide)) (by decide) (by decide) (by decide) (fits_of (by decide))).1 (by decide)),
    done ((h.2.2.1 _ _ 0 _ _ (runs_wState _ _ _ rfl (by decide) (by decide)) (by decide) (by decide) (by decide) (fits_of (by decide))).2 (by decide)),
    done (h.2.2.2 _ _ 0 _ _ (runs_wState _ _ _ rfl (by decide) (by decide)) (by decide) (by decide) (by decide) (fits_of (by decide)))⟩

end Sys2Proof.Tests
end

