-- ==== Sys2Proof/Tests/Witness2.lean ====
section
/-!
SUPPORT. Witnesses: for the statements about waits, arrays, tile events, dispatchers, time, memory and links, concrete states and
operands that meet the hypotheses of each clause together.
-/

namespace Sys2Proof.Tests

open Sys2Proof Sys2Proof.Machine

set_option maxRecDepth 100000
set_option exponentiation.threshold 1000

/-- Ready, with channel 0 in service and the time at 1,000. -/
def wMem : State := { setChan wReady 0 { rate := some 0 } with time := 1000 }

/-- Core 0 of `wMem` about to run the word `w` with registers `x`. -/
def wMemRun (w : Dword) (x : Ctx) : State := setCore wMem 0 (wCore w x)

theorem runs_core (s : State) (c : Core) (t : Tile) (w : Dword) (op : Nat) (h : (match c.tile with
      | none => none
      | some t => if t.phase == .running && t.wait == .none && c.preempt.isNone && c.image.isSome then some t else none) = some t)
    (hw : (match c.image with
      | none => none
      | some im => im.words[t.ctx.pc]?) = some w) (ho : (decodeTile w).op.toNat = op)
    (hl : (decodeTile w).legal = true) (hcs : c.soft = [] := by rfl) (hts : t.ctx.soft = [] := by rfl) :
    Runs (setCore s 0 c) (0 : CoreId).val op (setCore s 0 c) t (decodeTile w) := by
  have hc : coreOf (setCore s 0 c) (0 : CoreId).val = c := coreOf_setCore_same ..
  refine ⟨ho, hl, t, w, ?_, ?_, rfl, readSources_clean _ (by rw [hc]; exact hcs) hts⟩
  · simp only [issuing, hc]; exact h
  · simp only [fetchWord, hc]; exact hw

theorem runs_wMem (w : Dword) (x : Ctx) (op : Nat) (hp : x.pc = 0) (ho : (decodeTile w).op.toNat = op)
    (hl : (decodeTile w).legal = true) (hs : x.soft = [] := by rfl) :
    Runs (wMemRun w x) (0 : CoreId).val op (wMemRun w x) (wTile x) (decodeTile w) :=
  runs_core wMem (wCore w x) (wTile x) w op rfl (by simp only [wCore, wTile, hp]; rfl) ho hl rfl hs

/-- A DMA of sixteen bytes from bulk memory, with tag 3. -/
def wOp (k : AsyncKind) (susp : Bool) (bad : Option Nat) : AsyncOp := ⟨7, 3, 0, k, susp, [], [], [], bad⟩

/-- A BF16 pass of one row into slot 0. -/
def wDesc : PassDesc := ⟨false, 0, false, 4, 4, false, false, 1, 0, 0, 0, 1, 0, 0, 0, 0, 0, 0, 0, 0⟩

/-- An accepted pass. -/
def wPass (begun : Bool) : Pass := ⟨9, wDesc, none, 0, 0, 0, false, .running, begun, [], 0⟩

/-- Core 0 with an outstanding operation and a begun pass. -/
def wBusyCore (w : Dword) : Core := { wCore w {} with asyncs := [wOp (.dmaBm 0 0 16) false none], passes := [wPass true] }

/-- Core 0 whose tile waits. -/
def wHeld (w : Wait) : State := setCore wMem 0 { wCore 0 {} with tile := some { wTile {} with wait := w } }

/-- The tile of `wHeld`. -/
def wHeldTile (w : Wait) : Tile := { wTile {} with wait := w }

/-- Core 0 holding a core state. -/
def wWith (c : Core) : State := setCore wMem 0 c

/-- A task of the store. -/
def wEntry (t : Task) (core : Option Nat) : StoreEntry := ⟨4, t, 0, .at 10 0 0, 10, 0xFF, 0, core⟩

/-- Dispatcher 0 with contents. -/
def wDisp (x : Disp) (s : State) : State := setDisp s 0 x

/-- An urgent task of the highest priority. -/
def wUrgent : Task := { wTask with prio := 7, preempt := true }

theorem witness_WaitsComplete : Obligations.WaitsComplete →
    completes (exec (.dwait 0) (wMemRun (wA 0x23 0 0 0 0 0 0 0xFFFF) {})) = true ∧
    completes (exec (.dwait 0) (setCore wMem 0 (wBusyCore (wA 0x23 0 0 0 0 0 0 0xFFFF)))) = true ∧
    completes (exec (.pwait 0) (wMemRun (wA 0x31 0 0 0 0 0 0 0xF) {})) = true ∧
    completes (exec (.pwait 0) (setCore wMem 0 (wBusyCore (wA 0x31 0 0 0 0 0 0 0xF)))) = true ∧
    completes (exec (.waitc 0) (wMemRun (wA 0x60 4 1 2 0 0 0 0) (wRegs 0 0 0))) = true ∧
    completes (exec (.waitc 0) (wMemRun (wA 0x60 4 1 2 3 0 1 0) (wRegs 0 1 0))) = true ∧
    completes (exec (.waitt 0) (wMemRun (wA 0x61 4 1 0 0 0 0 0) (wRegs 999 0 0))) = true ∧
    completes (exec (.waitt 0) (wMemRun (wA 0x61 4 1 0 0 0 0 0) (wRegs 1000 0 0))) = true ∧
    completes (exec (.waitt 0) (wMemRun (wA 0x61 4 1 0 0 0 0 0) (wRegs 0xFFFFFFFFFFFFFFFF 0 0))) = true ∧
    completes (exec (.waitt 0) (wMemRun (wA 0x61 4 1 0 0 0 0 0) (wRegs 1001 0 0))) = true ∧
    completes (exec (.waitcPoll 0) (wHeld (.counter 1 0 0 false none))) = true ∧
    completes (exec (.waitTimeout 0) (wHeld (.counter 1 0 5 false (some 1000)))) = true ∧
    completes (exec (.waittRelease 0) (wHeld (.time 1 1000))) = true :=
  fun h => ⟨done ((h.1.1 _ _ 0 _ _ (runs_wMem _ _ _ rfl (by decide) (by decide))).1 (by decide) (fits_of (by decide))),
    done ((h.1.1 _ _ 0 _ _ (runs_core wMem (wBusyCore (wA 0x23 0 0 0 0 0 0 0xFFFF)) (wTile {}) (wA 0x23 0 0 0 0 0 0 0xFFFF) _ rfl rfl (by decide) (by decide))).2 (by decide)),
    done ((h.1.2 _ _ 0 _ _ (runs_wMem _ _ _ rfl (by decide) (by decide))).1 (by decide) (fits_of (by decide))),
    done ((h.1.2 _ _ 0 _ _ (runs_core wMem (wBusyCore (wA 0x31 0 0 0 0 0 0 0xF)) (wTile {}) (wA 0x31 0 0 0 0 0 0 0xF) _ rfl rfl (by decide) (by decide))).2 (by decide)),
    done ((h.2.1.1 _ _ _ 0 _ _ 0 (runs_wMem _ _ _ rfl (by decide) (by decide)) (by decide) (by decide) (pairOf (by decide))).1 (by decide) (fits_of (by decide))),
    done ((h.2.1.1 _ _ _ 0 _ _ 0 (runs_wMem _ _ _ rfl (by decide) (by decide)) (by decide) (by decide) (pairOf (by decide))).2 (by decide)),
    done ((h.2.1.2 _ _ 0 _ _ (runs_wMem _ _ _ rfl (by decide) (by decide))).1 (by decide) (fits_of (by decide))),
    done ((h.2.1.2 _ _ 0 _ _ (runs_wMem _ _ _ rfl (by decide) (by decide))).2.1 (by decide) (fits_of (by decide))),
    done ((h.2.1.2 _ _ 0 _ _ (runs_wMem _ _ _ rfl (by decide) (by decide))).2.2.1 (1024 * 1000000) (by decide) (by decide) (fits_of (by decide))),
    done ((h.2.1.2 _ _ 0 _ _ (runs_wMem _ _ _ rfl (by decide) (by decide))).2.2.2 (by decide) (by intro n e; rw [show waitLimit (wMemRun (wA 0x61 4 1 0 0 0 0 0) (wRegs 1001 0 0)) (0 : CoreId).val = some (1024 * 1000000) by decide] at e; cases e; decide)),
    done (h.2.2.1 _ _ 0 (wHeldTile (.counter 1 0 0 false none)) 1 0 0 false none 0 (by decide) (by decide) rfl (pairOf (by decide)) (by decide) (fits_of (by decide))),
    done (h.2.2.2.1 _ 0 (wHeldTile (.counter 1 0 5 false (some 1000))) 1 0 5 false 1000 (by decide) (by decide) rfl (by decide) (fits_of (by decide))),
    done (h.2.2.2.2 _ 0 (wHeldTile (.time 1 1000)) 1 1000 (by decide) (by decide) rfl (by decide) (fits_of (by decide)))⟩

/-- An operand cache with the descriptor of a BF16 pass of one row at 64: formats 4 and 4, ROWS, TSP and addresses zero. -/
def wPassOc : SMap Byte := [(64, 0x40), (65, 0x02)]

/-- Core 0 about to issue that PASS. -/
def wPassCore : Core := { wCore (wA 0x30 0 1 0 0 0 0 64) {} with oc := wPassOc }

theorem witness_ArrayInstructionsComplete : Obligations.ArrayInstructionsComplete →
    completes (exec (.pass 0) (setCore wMem 0 wPassCore)) = true ∧
    completes (exec (.accrd 0 []) (wMemRun (wA 0x32 1 1 0 0 0 1 0) (wRegs 126 0 0))) = true ∧
    completes (exec (.accwr 0) (wMemRun (wA 0x33 1 1 0 0 0 0 0) (wRegs 0x1800 0 0))) = true :=
  fun h => ⟨done (h.1 _ _ 0 _ _ wDesc none (runs_core wMem wPassCore (wTile {}) (wA 0x30 0 1 0 0 0 0 64) _ rfl rfl (by decide) (by decide)) (by decide) (by decide) (by decide) (by decide) (fits_of (by decide))),
    done (h.2.1 _ _ 0 [] _ _ 0 3 30 (runs_wMem _ _ _ rfl (by decide) (by decide)) (by decide) (by decide) (fits_of (by decide))),
    done (h.2.2 _ _ 0 _ _ 3 0 0 (runs_wMem _ _ _ rfl (by decide) (by decide)) (by decide) (by decide) (fits_of (by decide)))⟩

theorem witness_PassAndErrorEventsComplete : Obligations.PassAndErrorEventsComplete →
    completes (exec (.passStart 0 0) (wWith { wCore 0 {} with passes := [wPass false] })) = true ∧
    completes (exec (.passComplete 0 0) (wWith { wCore 0 {} with passes := [wPass true] })) = true ∧
    completes (exec (.accInvDone 0 0) (wWith { wCore 0 {} with invWait := [(0, [3])] })) = true ∧
    completes (exec (.accUe 0 3 63 31) (wWith (wCore 0 {}))) = true ∧
    completes (exec (.regUe 0) (wWith (wCore 0 {}))) = true ∧
    completes (exec (.ocUe 0 0x17FFFF .tile) (wWith (wCore 0 {}))) = true ∧
    completes (exec (.ocUe 0 0x17FFFF (.window (.u 16))) (wWith (wCore 0 {}))) = true :=
  fun h => ⟨done (h.1.1 _ 0 0 (wPass false) (by decide) (by decide)),
    done (h.1.2.1 _ 0 0 (wPass true) (by decide)),
    done (h.1.2.2 _ 0 0 [3] (by decide) (by decide)),
    done (h.2.1 _ 0 3 63 31 (by decide)),
    done (h.2.2.1 _ 0 (by decide)),
    done (h.2.2.2.1 _ 0 0x17FFFF (by decide) (by decide)),
    done (h.2.2.2.2 _ 0 0x17FFFF (.u 16) (by decide))⟩

theorem witness_TileStartAndSuspendComplete : Obligations.TileStartAndSuspendComplete →
    completes (exec (.tileSuspend 0) (wWith { wCore 0 {} with preempt := some (wTask, 4) })) = true ∧
    completes (exec (.tileSuspend 0) (wWith { wCore 0 {} with tile := none, shadow := some (wTile {}), preempt := some (wTask, 4) })) = true ∧
    completes (exec (.tileResume 0) (wWith { wCore 0 {} with tile := none, shadow := some (wTile {}), image := some ⟨0, 0, List.replicate 16 0⟩ })) = true ∧
    completes (exec (.tileResume 0) (wWith { wCore 0 {} with tile := none, shadow := some (wTile {}) })) = true ∧
    completes (exec (.tileStart 0) (wWith { given := some (wTask, 4) })) = true ∧
    completes (exec (.imageLoadDone 0) (wWith { wCore 0 {} with tile := some { wTile {} with phase := .loading } })) = true ∧
    completes (exec (.timeLimit 0) { (setFld (wWith (wCore 0 {})) (pgCore 0) fCoreTileTimeLimit 1) with time := 65537 }) = true :=
  fun h => ⟨done ((h.1.1 _ 0 (wTile {}) (wTask, 4) (by decide) (by decide) (by decide)).1 (by decide)),
    done (h.1.2.1 _ 0 (wTile {}) (wTask, 4) (by decide) (by decide) (by decide) (by decide)),
    done ((h.1.2.2 _ 0 (wTile {}) (by decide) (by decide) (by decide) (by decide)).1 (by decide)),
    done ((h.1.2.2 _ 0 (wTile {}) (by decide) (by decide) (by decide) (by decide)).2 (by decide)),
    done (h.2.1 _ 0 wTask 4 (by decide) (by decide)),
    done (h.2.2.1 _ 0 { wTile {} with phase := .loading } (by decide) (by decide)),
    done (h.2.2.2 { (setFld (wWith (wCore 0 {})) (pgCore 0) fCoreTileTimeLimit 1) with time := 65537 } 0 (wTile {}) (by decide) (by decide) (by decide) (by decide))⟩

theorem witness_TileEventsComplete : Obligations.TileEventsComplete →
    completes (exec (.commitPerform 0) (wWith { wCore 0 {} with tile := some { wTile {} with phase := .commitWait } })) = true ∧
    completes (exec (.commitComplete 0) (wWith { wCore 0 {} with tile := some { wTile {} with phase := .commitDone } })) = true ∧
    completes (exec (.dmaDone 0 7) (wWith { wCore 0 {} with asyncs := [wOp (.dmaBm 0 0 16) false none] })) = true ∧
    completes (exec (.gatherDone 0 7) (wWith { wCore 0 {} with asyncs := [wOp (.gather false 0 0 0 1 4 false) false none] })) = true ∧
    completes (exec (.atomDone 0 7) (wWith { wCore 0 {} with asyncs := [wOp (.atom 0 0 0 0 1 false) false none] })) = true ∧
    completes (exec (.asyncFail 0 7) (wWith { wCore 0 {} with asyncs := [wOp (.dmaOc 0 16 16) false (some 5)] })) = true ∧
    completes (exec (.suspendedTileFail 0 7) (wWith { wCore 0 {} with shadow := some (wTile {}), asyncs := [wOp (.dmaOc 0 16 16) true (some 5)] })) = true :=
  fun h => ⟨done (h.1.1 _ _ 0 { wTile {} with phase := .commitWait } (by decide) (by decide) (by decide) (by decide) (pairOf (by decide))),
    done (h.1.2 _ 0 { wTile {} with phase := .commitDone } (by decide) (by decide) (by decide)),
    done (h.2.1 _ _ 0 7 (wOp (.dmaBm 0 0 16) false none) [(0, List.replicate 16 0)] (by decide) ⟨0, 0, 16, .inl rfl⟩ (by decide) (pairOf (by decide))),
    done (h.2.2.1 _ _ 0 7 (wOp (.gather false 0 0 0 1 4 false) false none) [(0, [0, 0, 0, 0])] false 0 0 0 1 4 false (by decide) (by decide) (by decide) (pairOf (by decide))),
    done (h.2.2.2.1 _ _ _ 0 7 (wOp (.atom 0 0 0 0 1 false) false none) 0 0 0 0 1 false (by decide) (by decide) (pairOf (by decide)) (pairOf (by decide))),
    done (h.2.2.2.2.1 _ _ 0 7 5 (wOp (.dmaOc 0 16 16) false (some 5)) (by decide) (by decide) (pairOf (by decide))),
    done (h.2.2.2.2.2 _ _ 0 7 5 (wOp (.dmaOc 0 16 16) true (some 5)) (by decide) (by decide) (pairOf (by decide)))⟩

/-- Dispatcher 0 with an urgent task, every other core of the die fenced: no core may ask, and core 0 runs a tile of priority 0. -/
def wPreemptState : State :=
  let s := setFld (setFlag wMem (pgDisp 0) fDispatcherEnable true) (pgDisp 0) fDispatcherPreemptDelay 1
  let s := { s with health := { s.health with coreState := (List.range 304).map (fun g => (g, 2)) } }
  setDisp (setCore s 0 (wCore 0 {})) 0 { store := [wEntry wUrgent none] }

/-- A report of core 0's tile. -/
def wRep (k : EndKind) : Disp := { store := [wEntry wTask (some 0)], reports := [⟨k, 0, 4⟩] }

/-- The same with a done counter where no memory answers. -/
def wRepBad : Disp := { store := [wEntry { wTask with done := 512 } (some 0)], reports := [⟨.normal, 0, 4⟩] }

theorem witness_DispatcherCommandsComplete : Obligations.DispatcherCommandsComplete →
    completes (exec (.taskRequest 0) wMem) = true ∧
    completes (exec (.taskAskRetry 0) (wDisp { store := [(wEntry wTask none)] } (setCore (setFlag wMem (pgDisp 0) fDispatcherEnable true) 0 { asked := true }))) = true ∧
    completes (exec (.preemptDecision 0) wPreemptState) = true ∧
    completes (exec (.listFetch 0) (wDisp { lists := [⟨0, 1, .at 10 0 0, false, false, 0⟩] } wMem)) = true ∧
    completes (exec (.storeRoomFetch 0) (wDisp { lists := [⟨0, 1, .at 10 0 0, true, false, 0⟩] } wMem)) = true ∧
    completes (exec (.releaseRecord 0) (wDisp { records := [⟨64, 0, 0⟩] } wMem)) = true ∧
    completes (exec (.taskDone 0) (wDisp (wRep .normal) wMem)) = true ∧
    completes (exec (.doneAddError 0) (wDisp wRepBad wMem)) = true ∧
    completes (exec (.abandonReport 0) (wDisp (wRep .abandoned) wMem)) = true ∧
    completes (exec (.taskFailReport 0) (wDisp (wRep (.failed 9)) wMem)) = true :=
  fun h => ⟨done ((h.1 wMem 0 (by decide) (.taskRequest 0) (.inl ⟨rfl, (by decide)⟩)).1 (by decide)),
    done ((h.1 (wDisp { store := [(wEntry wTask none)] } (setCore (setFlag wMem (pgDisp 0) fDispatcherEnable true) 0 { asked := true })) 0 (by decide) (.taskAskRetry 0) (.inr ⟨rfl, (by decide)⟩)).2 (wEntry wTask none) (by decide)),
    done (h.2.1.1 wPreemptState 0 (wEntry wUrgent none) (0, wTile {}) (by decide) (by decide) (by decide) (by decide)),
    done (h.2.1.2.1 _ 0 ⟨0, 1, .at 10 0 0, false, false, 0⟩ (by decide) (by decide)),
    done (h.2.1.2.2.1 _ 0 ⟨0, 1, .at 10 0 0, true, false, 0⟩ (by decide) (by decide) (by decide)),
    done (h.2.1.2.2.2 _ 0 ⟨64, 0, 0⟩ [] (by decide) (by decide)),
    done ((h.2.2.1 _ _ 0 ⟨.normal, 0, 4⟩ (wEntry wTask (some 0)) (by decide) (by decide)).1 (pairOf (by decide))),
    done ((h.2.2.1 _ _ 0 ⟨.normal, 0, 4⟩ (wEntry { wTask with done := 512 } (some 0)) (by decide) (by decide)).2 (pairOf (by decide))),
    done (h.2.2.2.1 _ 0 ⟨.abandoned, 0, 4⟩ (wEntry wTask (some 0)) (by decide) (by decide)),
    done (h.2.2.2.2 _ 0 ⟨.failed 9, 0, 4⟩ (wEntry wTask (some 0)) 9 (by decide) (by decide) (by decide))⟩

/-- The group manager, identifier 1, with identifier 5 at rank 3. -/
def wMgr : State :=
  let s := setFld (setFld wMem 0x31 fMembershipModuleId 1) 0x31 stMembershipJstate jsManager
  setNet s { s.net with members := [(3, 0x10005)] }

/-- A packet for this module without payload. -/
def wPk (kind : BitVec 6) (src ctx : BitVec 16) : Packet := ⟨1, src, kind, 8, 0, 0, ctx, 0, 0, 0, true, []⟩

theorem witness_TimeAndBarrierCommandsComplete : Obligations.TimeAndBarrierCommandsComplete →
    completes (exec (.bellRing 31) wMem) = true ∧
    completes (exec (.timeCorrection (.ward 31)) wMem) = true ∧
    completes (exec (.timeCorrection (.dispatcher 3)) wMem) = true ∧
    completes (exec .refclkLost (setFlag wMem 1 fStrapsRefclkSrc false)) = true ∧
    completes (exec .refclkRestored wMem) = true ∧
    completes (exec (.barrierArrive (wPk 0x15 5 9)) wMgr) = true ∧
    completes (exec (.barrierBell (wPk 0x16 5 9)) wMgr) = true ∧
    completes (exec (.barrierResend 9) { wMgr with time := 100001, net := { wMgr.net with waiting := [(9, 1)] } }) = true :=
  fun h => ⟨done (h.1.1 wMem 31 (by decide)),
    (let ⟨_, e, _⟩ := h.1.2.1 wMem (.ward 31); done e),
    (let ⟨_, e, _⟩ := h.1.2.1 wMem (.dispatcher 3); done e),
    done (h.1.2.2.1 _ (by decide) (by decide)),
    done (h.1.2.2.2 wMem),
    done (h.2.1 wMgr (wPk 0x15 5 9) 3 ⟨(by decide), (by decide), (by decide)⟩ (by decide) (by decide) (by decide) (by decide) (by decide) (by decide) (by decide)),
    done (h.2.2.1 wMgr (wPk 0x16 5 9) ⟨(by decide), (by decide), (by decide)⟩ (by decide) (by decide)),
    done (h.2.2.2 { wMgr with time := 100001, net := { wMgr.net with waiting := [(9, 1)] } } 9 1 (by decide) (by decide))⟩

theorem witness_MemoryCommandsComplete : Obligations.MemoryCommandsComplete →
    completes (exec (.memoryRead 4 8 []) wMem) = true ∧
    completes (exec (.memoryWrite 500 [1, 2] []) wMem) = true ∧
    completes (exec (.memoryAdderUpdate 3 8 1) wMem) = true ∧
    completes (exec (.memoryRead 510 8 []) wMem) = true ∧
    completes (exec (.scrubSlot 0 []) (setFlag wMem (pgMem 0) fMemCtlScrubEn true)) = true ∧
    completes (exec (.rowRemap true) { wMem with mem := { wMem.mem with queue := [⟨0, 0, 5⟩] } }) = true ∧
    completes (exec .pageRetire { wMem with mem := { wMem.mem with retireQ := [(0, 5)] } }) = true ∧
    completes (exec (.channelFail 0) wMem) = true ∧
    completes (exec (.mr4Read 0 31) wMem) = true ∧
    completes (exec (.channelTraining 127 (some 2)) wMem) = true ∧
    completes (exec (.channelTraining 127 none) wMem) = true ∧
    completes (exec .fillComplete { State.reset with mem := { chans := (List.range 128).map (fun c => (c, { rate := some 1 })) } }) = true :=
  fun h => ⟨done (h.1.1 wMem _ 4 8 [] (List.replicate 8 0) (pairOf (by decide))),
    done (h.1.2.1 wMem _ 500 [1, 2] [] (pairOf (by decide))),
    done (h.1.2.2.1 wMem _ 3 8 1 (pairOf (by decide))),
    done (h.1.2.2.2 wMem _ 510 8 [] (pairOf (by decide))),
    done (h.2.1 (setFlag wMem (pgMem 0) fMemCtlScrubEn true) 0 [] 0 (by decide) (by decide) (by decide) (by decide) (by decide) (by decide)),
    done (h.2.2.1 { wMem with mem := { wMem.mem with queue := [⟨0, 0, 5⟩] } } true ⟨0, 0, 5⟩ [] (by decide) (by decide)),
    done (h.2.2.2.1 { wMem with mem := { wMem.mem with retireQ := [(0, 5)] } } 0 5 [] (by decide)),
    done (h.2.2.2.2.1 wMem 0 (by decide)),
    done (h.2.2.2.2.2.1 wMem 0 31 (by decide)),
    done (h.2.2.2.2.2.2.1 wMem 127 2 (by decide) (by decide)),
    done (h.2.2.2.2.2.2.2.1 wMem 127 (by decide) (by decide)),
    done (h.2.2.2.2.2.2.2.2 _ (by decide) (by decide))⟩

end Sys2Proof.Tests
end

