-- ==== Sys2Proof/Tests/Witness3.lean ====
section
/-!
SUPPORT. Witnesses: for the statements about links, the transport, collectives, register accesses and actions, mailbox values and
membership, concrete states and operands that meet the hypotheses of each clause together.
-/

namespace Sys2Proof.Tests

open Sys2Proof Sys2Proof.Machine

set_option maxRecDepth 100000

/-- Port 0 in state `st`, with contents, receiving on lane 0. -/
def wPort (st : Nat) (x : Port) : State := setFld (setPort { wMem with time := 3000000000 } 0 { x with rxMap := [0] }) (pgPort 0) stPortState st

/-- A frame of a type with empty units. -/
def wFrame (typ : BitVec 2) (seq : BitVec 12) : Frame := { typ := typ, seq := seq, payload := List.replicate 624 0 }

/-- A frame's codeword on lane 0 alone. -/
def wAir (f : Frame) : LaneWord := onLanes [0] (codeword f)

/-- One lane carries a codeword whole. -/
theorem oneLane (w : List Nat) (h : w.length = 544) (hs : symbols w) : offLanes [0] (onLanes [0] w) = w := by
  have hl : (onLanes [0] w).getD 0 [] = w.map (BitVec.ofNat 10) := by
    have hf : (w.zipIdx.filter (fun e => ([0] : List Nat).getD (e.2 % 1) 9 == 0)) = w.zipIdx := by
      rw [List.filter_eq_self]; intro e _; simp [Nat.mod_one]
    have : (onLanes [0] w).getD 0 [] = (w.zipIdx.filter (fun e => ([0] : List Nat).getD (e.2 % 1) 9 == 0)).map
        (fun e => BitVec.ofNat 10 e.1) := rfl
    rw [this, hf]
    apply List.ext_getElem <;> simp
  apply List.ext_getElem
  · simp [offLanes, h]
  · intro i h1 h2
    have hw : w[i] < 1024 := hs _ (List.getElem_mem h2)
    simp only [offLanes, List.getElem_map, List.getElem_range, List.length_singleton, Nat.mod_one, Nat.div_one]
    rw [show ([0] : List Nat).getD 0 9 = 0 from rfl, hl, List.getD_eq_getElem?_getD, List.getElem?_map, List.getElem?_eq_getElem h2]
    simp [Nat.mod_eq_of_lt hw]

theorem hear_wAir (f : Frame) (h : f.payload.length = 624) :
    hear [0] (wAir f) = if frameFieldsOk f then .ok f else .error .fields := by
  have hw : symbols (rsEncode (frameSymbols f)) := by
    intro x hx
    rw [rsEncode, List.mem_append] at hx
    exact hx.elim (symbols_frameSymbols f x) (symbols_rsParity (symbols_frameSymbols f) x)
  have hn : (rsEncode (frameSymbols f)).length = 544 := by
    rw [rsEncode, List.length_append, length_frameSymbols, length_rsParity]
  unfold wAir codeword hear
  rw [oneLane _ hn hw]
  simp only [rsDecode_rsEncode (length_frameSymbols f), readMessage_frameSymbols h]

/-- A message of this module that waits for its response. -/
def wMsg (kind : BitVec 6) (o : MsgOwner) : Msg := ⟨0, ⟨5, 1, kind, 8, 0, 0, 0, 77, 0, 1, true, []⟩, o, 900, 900, 0, none⟩

/-- The group manager with outstanding messages. -/
def wOut (l : List Msg) : State := setNet wMgr { wMgr.net with out := l }

/-- A packet from identifier 5 with a payload of `n` units. -/
def wData (kind : BitVec 6) (ctx : BitVec 16) (n : BitVec 9) (addr : BitVec 64) (aux : BitVec 32) : Packet :=
  ⟨1, 5, kind, 8, n, 0, ctx, 77, addr, aux, true, List.replicate (16 * n.toNat) 0⟩

/-- A peer that has shaken hands. -/
def wPeer1 : Peer1 := { pos := 1, ready := true, count := 64 }

/-- A collective of operation `op` with identifier 9 over ranks 0 and 3, of 64 bytes. -/
def wColl (op : Nat) (x : Option ExchBlk) (run : Bool) : Coll :=
  { desc := ⟨op, 0, 0, 0, 9, 1, 0, 0, 0, 64, 0, 0, 0, 0, 0, 0, 0, 0, 0, 0, 0, 0⟩, xblk := x, started := true, running := run,
    ranks := [0, 3], table := [(0, 32), (32, 32)], e2m := [(0, 0), (1, 0)], peers := [wPeer1] }

/-- An exchange block of two tokens. -/
def wBlk : ExchBlk := ⟨2, 1, 2, 16, 0, 4, 0, 0, 0, 0, 0⟩

/-- The group manager with a collective. -/
def wCollState (c : Coll) : State := setNet wMgr { wMgr.net with colls := [c] }

/-- An exchange that has counted. -/
def wExch (op : Nat) : Coll := { (wColl op (some wBlk) true) with admits := some [[4], [4]] }

/-- A COLL_DATA of this module that waits for its acknowledgement. -/
def wSent : Msg := { wMsg 9 (.coll 9 1) with pk := { (wMsg 9 (.coll 9 1)).pk with addr := 0 } }

/-- A running collective whose message 77 has come, and whose own data wait. -/
def wCollSeen : State :=
  setNet (wCollState (wColl 0 none true)) { (wCollState (wColl 0 none true)).net with out := [wSent], applied := [(5, 77, 900)] }

theorem witness_LinkFramesComplete : Obligations.LinkFramesComplete →
    completes (exec (.dataFrame 0 (wAir { wFrame 0 0 with fill := 39 })) (wPort psActive { rxBuf := [List.replicate 16400 0, [], [], []] })) = true ∧
    completes (exec (.dataFrame 0 (wAir (wFrame 0 0))) (wPort psActive {})) = true ∧
    completes (exec (.dataFrame 0 (wAir (wFrame 0 4095))) (wPort psActive {})) = true ∧
    completes (exec (.idleFrame 0 (wAir (wFrame 1 0))) (wPort psActive {})) = true ∧
    completes (exec (.timeFrame 0 (wAir (wFrame 2 0)) 5) (wPort psActive {})) = true ∧
    completes (exec (.frameDiscard 0 (wAir (wFrame 3 0))) (wPort psActive {})) = true ∧
    completes (exec (.timeFrameTx 0) (wPort psActive {})) = true ∧
    completes (exec (.replayTimeout 0) (wPort psActive { replay := [⟨0, 0, [], 0⟩] })) = true ∧
    completes (exec (.swap 0 8) (wPort psActive {})) = true ∧
    completes (exec (.narrow 0 15) (wPort psActive {})) = true ∧
    completes (exec (.widen 0 8) (wPort psActive {})) = true ∧
    completes (exec (.cmdAck 0) (wPort psActive { cmdOut := some ⟨1, 8⟩ })) = true ∧
    completes (exec (.laneMapChange 0 .tx) (wPort psActive {})) = true ∧
    completes (exec (.laneMapChange 0 .rx) (wPort psActive {})) = true :=
  fun h => ⟨done ((h.1.1 (wPort psActive { rxBuf := [List.replicate 16400 0, [], [], []] }) 0 (wAir { wFrame 0 0 with fill := 39 }) { wFrame 0 0 with fill := 39 } (by decide)
      (hear_wAir _ (by decide)) (by decide) (by decide)).1 (by decide) (by decide)),
    done ((h.1.1 (wPort psActive {}) 0 (wAir (wFrame 0 0)) (wFrame 0 0) (by decide) (hear_wAir _ (by decide)) (by decide) (by decide)).2.1
      (by decide) (by decide) (by decide)),
    done ((h.1.1 (wPort psActive {}) 0 (wAir (wFrame 0 4095)) (wFrame 0 4095) (by decide) (hear_wAir _ (by decide)) (by decide)
      (by decide)).2.2 (by decide) (by decide)),
    done (h.1.2.1 (wPort psActive {}) 0 (wAir (wFrame 1 0)) (wFrame 1 0) (by decide) (hear_wAir _ (by decide)) (by decide)),
    done (h.1.2.2.1 (wPort psActive {}) 0 (wAir (wFrame 2 0)) (wFrame 2 0) 5 (by decide) (hear_wAir _ (by decide)) (by decide) (by decide)
      (by decide)),
    done (h.1.2.2.2.1 (wPort psActive {}) 0 (wAir (wFrame 3 0)) .fields (by decide) (hear_wAir _ (by decide))),
    done (h.1.2.2.2.2.1 (wPort psActive {}) 0 (by decide) (by decide) (by decide)),
    done (h.1.2.2.2.2.2 (wPort psActive { replay := [⟨0, 0, [], 0⟩] }) 0 (by decide) (by decide) (by decide)),
    done (h.2.1 (wPort psActive {}) 0 8 (by decide) (by decide)).1,
    done (h.2.1 (wPort psActive {}) 0 15 (by decide) (by decide)).2.1,
    done (h.2.1 (wPort psActive {}) 0 8 (by decide) (by decide)).2.2,
    done (h.2.2.1 (wPort psActive { cmdOut := some ⟨1, 8⟩ }) 0 ⟨1, 8⟩ (by decide) (by decide)),
    done (h.2.2.2 (wPort psActive {}) 0 (by decide)).1,
    done (h.2.2.2 (wPort psActive {}) 0 (by decide)).2⟩

theorem witness_FramesCrossTheLink : Obligations.FramesCrossTheLink →
    hear [8, 0, 3] (onLanes [8, 0, 3] (codeword (wFrame 0 4095))) = .ok (wFrame 0 4095) ∧
    hear [5] (onLanes [5] (codeword (wFrame 3 0))) = .error .fields :=
  fun h => ⟨h [8, 0, 3] (wFrame 0 4095) (by decide) (by decide) (by decide) (by decide) (by decide),
    h [5] (wFrame 3 0) (by decide) (by decide) (by decide) (by decide) (by decide)⟩

theorem witness_LinkHealthCompletes : Obligations.LinkHealthCompletes →
    completes (exec (.laserCheckPass 0) (wPort psLaser { laserSince := some 5 })) = true ∧
    completes (exec (.laserRecheck 0) (wPort psLaser {})) = true ∧
    completes (exec (.laneTrainDone 0 0x1FF 0x1FF) (wPort psTrain {})) = true ∧
    completes (exec (.laneTrainDone 0 0x1FF 0) (wPort psTrain {})) = true ∧
    completes (exec (.alignDone 0 [0, 1]) (wPort psAlign {})) = true ∧
    completes (exec (.paramFrame 0 ⟨5, 3, [16, 16, 16, 16], 0⟩) (setFld (wPort psParam {}) 0x31 fMembershipModuleId 1)) = true ∧
    completes (exec (.paramFrame 0 ⟨1, 3, [16, 16, 16, 16], 0⟩) (setFld (wPort psParam {}) 0x31 fMembershipModuleId 1)) = true ∧
    completes (exec (.paramFrame 0 ⟨5, 3, [16, 16, 16, 16], 0⟩) (wPort psActive {})) = true ∧
    completes (exec (.downRetry 0) (setFlag (wPort psDown {}) (pgPort 0) fPortEnable true)) = true ∧
    completes (exec (.trainStateTimeout 0) (wPort psTrain {})) = true ∧
    completes (exec (.laneWindow 0 []) (wPort psActive {})) = true ∧
    completes (exec (.laneHardFail 0 8) (wPort psActive {})) = true ∧
    completes (exec .laneBringIn (setNet (wPort psActive {}) { (wPort psActive {}).net with laneQ := [⟨0, some 0, false, none⟩] })) = true ∧
    completes (exec .laneBringIn (setNet (wPort psActive {}) { (wPort psActive {}).net with laneQ := [⟨0, none, false, none⟩] })) = true ∧
    completes (exec (.laserLoss 0) (wPort psActive {})) = true ∧
    completes (exec (.laserPwrSample 0 1500) (wPort psActive {})) = true :=
  fun h => ⟨done (h.1.1 (wPort psLaser { laserSince := some 5 }) 0 5 (by decide) (by decide) (by decide)),
    done (h.1.2.1 (wPort psLaser {}) 0 (by decide) (by decide) (by decide)),
    done ((h.1.2.2.1 (wPort psTrain {}) 0 0x1FF 0x1FF (by decide)).1 (by decide)),
    done ((h.1.2.2.1 (wPort psTrain {}) 0 0x1FF 0 (by decide)).2 (by decide)),
    done (h.1.2.2.2.1 (wPort psAlign {}) 0 [0, 1] (by decide)),
    done (h.1.2.2.2.2.1 (setFld (wPort psParam {}) 0x31 fMembershipModuleId 1) 0 ⟨5, 3, [16, 16, 16, 16], 0⟩ (by decide) (.inl (by decide))),
    done (h.1.2.2.2.2.2.1 (setFld (wPort psParam {}) 0x31 fMembershipModuleId 1) 0 ⟨1, 3, [16, 16, 16, 16], 0⟩ (by decide) (by decide) (by decide)),
    done (h.1.2.2.2.2.2.2.1 (wPort psActive {}) 0 ⟨5, 3, [16, 16, 16, 16], 0⟩ (by decide)),
    done (h.1.2.2.2.2.2.2.2.1 (setFlag (wPort psDown {}) (pgPort 0) fPortEnable true) 0 (by decide) (by decide) (by decide)),
    done (h.1.2.2.2.2.2.2.2.2 (wPort psTrain {}) 0 25000000 (by decide) (by decide)),
    done (h.2.1 (wPort psActive {}) 0 [] (by decide)),
    done (h.2.2.1 (wPort psActive {}) 0 8 (by decide) (by decide)),
    done ((h.2.2.2.1 (setNet (wPort psActive {}) { (wPort psActive {}).net with laneQ := [⟨0, some 0, false, none⟩] }) ⟨0, some 0, false, none⟩ [] 1 (by decide) (by decide) (by decide) (by decide) (by decide)).1 0 (by decide)),
    done ((h.2.2.2.1 (setNet (wPort psActive {}) { (wPort psActive {}).net with laneQ := [⟨0, none, false, none⟩] }) ⟨0, none, false, none⟩ [] 1 (by decide) (by decide) (by decide) (by decide) (by decide)).2 (by decide) (by decide) (by decide)),
    done (h.2.2.2.2.1 (wPort psActive {}) 0 (by decide) (by decide)),
    done (h.2.2.2.2.2 (wPort psActive {}) 0 1500 (by decide))⟩

theorem witness_TransportCompletes : Obligations.TransportCompletes →
    completes (exec (.rdReq (wData 1 0 0 0 1)) wMgr) = true ∧
    completes (exec (.rdReq (wData 1 0 0 8 1)) wMgr) = true ∧
    completes (exec (.rdReq (wData 1 0 0 0 1)) { wMgr with mem := { wMgr.mem with chans := [] } }) = true ∧
    completes (exec (.wrReq (wData 2 0 1 16 0)) wMgr) = true ∧
    completes (exec (.wrReq (wData 2 0 1 16 0)) (setNet wMgr { wMgr.net with applied := [(5, 77, 900)] })) = true ∧
    completes (exec (.rdResp (wData 3 0 1 0 0)) (setNet (setCore wMgr 0 { wCore 0 {} with asyncs := [wOp (.dmaFab 0 0 16) false none] }) { wMgr.net with out := [wMsg 1 (.async 0 7)] })) = true ∧
    completes (exec (.wrAck (wData 4 0 0 0 0)) (wOut [wMsg 2 (.commit 0)])) = true ∧
    completes (exec (.errResp (wData 5 0 0 0 2)) (wOut [wMsg 1 .control])) = true ∧
    completes (exec (.packetForward ⟨9, 5, 1, 2, 0, 0, 0, 77, 0, 1, true, []⟩) wMgr) = true ∧
    completes (exec (.packetForward ⟨9, 5, 1, 1, 0, 0, 0, 77, 0, 1, true, []⟩) wMgr) = true ∧
    completes (exec (.packetForward ⟨9, 5, 4, 1, 0, 0, 0, 77, 0, 0, true, []⟩) wMgr) = true ∧
    completes (exec (.msgTimeout 0 77) { (wOut [wMsg 1 .control]) with time := 2000000 }) = true ∧
    completes (exec (.msgTimeout 0 77) { (wOut [wMsg 1 .control]) with time := 8000900 }) = true :=
  fun h => ⟨done ((h.1.1 wMgr _ (wData 1 0 0 0 1) (List.replicate 16 0) ⟨(by decide), (by decide), (by decide)⟩ (by decide) (by decide) (by decide) (by decide)).1 (by decide) (pairOf (by decide))),
    done ((h.1.1 wMgr wMgr (wData 1 0 0 8 1) [] ⟨(by decide), (by decide), (by decide)⟩ (by decide) (by decide) (by decide) (by decide)).2.1 1 (by decide)),
    done ((h.1.1 { wMgr with mem := { wMgr.mem with chans := [] } } _ (wData 1 0 0 0 1) [] ⟨(by decide), (by decide), (by decide)⟩ (by decide) (by decide) (by decide) (by decide)).2.2 (by decide) (pairOf (by decide))),
    done ((h.1.2 wMgr _ (wData 2 0 1 16 0) ⟨(by decide), (by decide), (by decide)⟩ (by decide) (by decide)).1 (by decide) (by decide) (pairOf (by decide))),
    done ((h.1.2 (setNet wMgr { wMgr.net with applied := [(5, 77, 900)] }) (setNet wMgr { wMgr.net with applied := [(5, 77, 900)] }) (wData 2 0 1 16 0) ⟨(by decide), (by decide), (by decide)⟩ (by decide) (by decide)).2 (by decide)),
    done (h.2.1.1 (setNet (setCore wMgr 0 { wCore 0 {} with asyncs := [wOp (.dmaFab 0 0 16) false none] }) { wMgr.net with out := [wMsg 1 (.async 0 7)] }) (wData 3 0 1 0 0) (wMsg 1 (.async 0 7)) 0 7 ⟨(by decide), (by decide), (by decide)⟩ (by decide) (by decide) (by decide) (by decide) (by decide)),
    done (h.2.1.2.1 _ (wData 4 0 0 0 0) (wMsg 2 (.commit 0)) ⟨(by decide), (by decide), (by decide)⟩ (by decide) (by decide) (by decide) (by decide)),
    done (h.2.1.2.2 _ (wData 5 0 0 0 2) (wMsg 1 .control) ⟨(by decide), (by decide), (by decide)⟩ (by decide) (by decide) (by decide)),
    done ((h.2.2.1 wMgr ⟨9, 5, 1, 2, 0, 0, 0, 77, 0, 1, true, []⟩ (by decide) (by decide)).1 (by decide)),
    done ((h.2.2.1 wMgr ⟨9, 5, 1, 1, 0, 0, 0, 77, 0, 1, true, []⟩ (by decide) (by decide)).2 (by decide)),
    done ((h.2.2.1 wMgr ⟨9, 5, 4, 1, 0, 0, 0, 77, 0, 0, true, []⟩ (by decide) (by decide)).2 (by decide)),
    done ((h.2.2.2 { (wOut [wMsg 1 .control]) with time := 2000000 } 0 77 (wMsg 1 .control) (by decide)).1 (by decide) (by decide) (by decide)),
    done ((h.2.2.2 { (wOut [wMsg 1 .control]) with time := 8000900 } 0 77 (wMsg 1 .control) (by decide)).2 (.inr (by decide)))⟩

theorem witness_CollectivesComplete : Obligations.CollectivesComplete →
    completes (exec .collStart (wCollState (wColl 0 none false))) = true ∧
    completes (exec (.collReady (wData 8 9 1 0 0)) (wCollState (wColl 0 none true))) = true ∧
    completes (exec (.collData (wData 9 9 1 0 1)) (wCollState (wColl 0 none true))) = true ∧
    completes (exec (.collData (wData 9 9 1 0 1)) wCollSeen) = true ∧
    completes (exec (.collAck (wData 10 9 0 0 0)) wCollSeen) = true ∧
    completes (exec (.collEnd 9) (wCollState { (wColl 0 none true) with ending := some 1 })) = true ∧
    completes (exec (.exchCount (wData 11 9 1 0 16)) (wCollState (wExch 4))) = true ∧
    completes (exec (.exchAdmit (wData 12 9 1 0 16)) (wCollState (wExch 4))) = true ∧
    completes (exec (.exchData (wData 13 9 1 0 0)) (wCollState (wExch 4))) = true ∧
    completes (exec (.exchReturn (wData 14 9 1 0 0)) (wCollState (wExch 5))) = true :=
  fun h => ⟨done (h.1.1 (wCollState (wColl 0 none false)) (wColl 0 none false) (by decide) (by decide) (by decide)),
    done (h.1.2.1 (wCollState (wColl 0 none true)) (wData 8 9 1 0 0) (wColl 0 none true) 1 ⟨(by decide), (by decide), (by decide)⟩ (by decide) (by decide)
      (.inl (by decide)) (by decide) (by decide)),
    done (h.1.2.2.1 (wCollState (wColl 0 none true)) _ (wData 9 9 1 0 1) (wColl 0 none true) 1 ⟨(by decide), (by decide), (by decide)⟩ (by decide) (by decide)
      (by decide) (by decide) (by decide) (pairOf (by decide))),
    done (h.1.2.2.2.1 wCollSeen (wData 9 9 1 0 1) ⟨(by decide), (by decide), (by decide)⟩ (by decide) (by decide)),
    done (h.1.2.2.2.2.1 wCollSeen (wData 10 9 0 0 0) wSent 9 1 ⟨(by decide), (by decide), (by decide)⟩ (by decide) (by decide) (by decide) (by decide) (by decide)
      (by decide)),
    done (h.1.2.2.2.2.2 (wCollState { (wColl 0 none true) with ending := some 1 }) 9 { (wColl 0 none true) with ending := some 1 } (by decide)),
    done ((h.2 (wCollState (wExch 4)) (wData 11 9 1 0 16) (wExch 4) 1 wPeer1 (by decide) (by decide) (by decide) (by decide) (by decide)
      (by decide) (by decide)).1 (by decide) (by decide) (by decide)),
    done ((h.2 (wCollState (wExch 4)) (wData 12 9 1 0 16) (wExch 4) 1 wPeer1 (by decide) (by decide) (by decide) (by decide) (by decide)
      (by decide) (by decide)).2.1 (by decide) (by decide) (by decide)),
    done ((h.2 (wCollState (wExch 4)) (wData 13 9 1 0 0) (wExch 4) 1 wPeer1 (by decide) (by decide) (by decide) (by decide) (by decide)
      (by decide) (by decide)).2.2.1 (by decide) (by decide) (by decide)),
    done ((h.2 (wCollState (wExch 5)) (wData 14 9 1 0 0) (wExch 5) 1 wPeer1 (by decide) (by decide) (by decide) (by decide) (by decide)
      (by decide) (by decide)).2.2.2 (by decide) (by decide) (by decide))⟩

theorem witness_AccessesComplete : Obligations.AccessesComplete →
    completes (exec (.registerWrite (.k 0) 0xF0000000028 32 0) wReady) = true ∧
    completes (exec (.rcRead (.k 0) 0xF0000000004 32) wReady) = true ∧
    completes (exec (.rcRead (.u 0) 0x80000000000 (8 * 1)) wReady) = true ∧
    completes (exec (.registerWrite (.k 0) 0x10 (8 * 2) 7) wMem) = true ∧
    completes (exec (.rcRead (.k 0) 0x10 (8 * 2)) wMem) = true ∧
    completes (exec (.mailboxWrite (.u 0) 0x68 0x50) wReady) = true ∧
    completes (exec (.voteScan 0x5BF) wReady) = true ∧
    completes (exec (.eventNotify 0) (raise (setRegWord wReady 0 0x28 0xFFFFFFFF) 0 1)) = true ∧
    completes (exec (.accessTimeout (.k 0) 0xF0000000100 (some 1) false none) wReady) = true ∧
    completes (exec (.accessTimeout (.u 7) 0xF0000000104 (some 1) true none) wReady) = true ∧
    completes (exec (.accessTimeout (.k 0) 0xF0000064100 none false none) State.reset) = true :=
  fun h => ⟨done (h.1.1 wReady _ (.k 0) 0xF0000000028 0 0 0x28 (by decide) (pairOf (by decide))),
    done (h.1.2.1 wReady _ (.k 0) 0xF0000000004 0 4 0x100 (by decide) (pairOf (by decide))),
    done (h.1.2.2.1 wReady (.u 0) 0x80000000000 0 1 0 0 (by decide) (by decide) (by decide)).2,
    done ((h.1.2.2.2.1 wMem _ (.k 0) 0x10 7 [] 2 (by decide) (by decide) (by decide)).1 (pairOf (by decide))),
    done ((h.1.2.2.2.1 wMem _ (.k 0) 0x10 7 [0, 0] 2 (by decide) (by decide) (by decide)).2 (pairOf (by decide))),
    done (h.1.2.2.2.2 wReady (.u 0) 0x68 .dispatcher 0x50 false (by decide) ⟨(by decide), (by decide), (by decide)⟩).2.1,
    done (h.2.1 wReady 0x5BF (by decide)),
    done (h.2.2.1 (raise (setRegWord wReady 0 0x28 0xFFFFFFFF) 0 1) 0 (by decide) (by decide) (by decide)),
    done ((h.2.2.2 wReady (.k 0) 0xF0000000100 (some 1) false 0 0x100 (by decide) (by decide) (by decide) (by decide)).1 (by decide)
      (.inr (by decide))),
    done ((h.2.2.2 wReady (.u 7) 0xF0000000104 (some 1) true 0 0x104 (by decide) (by decide) (by decide) (by decide)).2.1 1 (by decide) rfl
      (by decide)),
    done ((h.2.2.2 State.reset (.k 0) 0xF0000064100 none false 0x64 0x100 (by decide) (by decide) (by decide) (by decide)).2.2 (by decide)
      (.inl (by decide)))⟩

theorem witness_BlockActionsComplete : Obligations.BlockActionsComplete →
    completes (exec (.updAbort (.k 0) 3) wReady) = true ∧
    completes (exec (.updResume (.s 0) 3) wReady) = true ∧
    completes (exec (.updDiscard (.s 0) 3) wReady) = true ∧
    completes (exec (.trigger (.k 0)) wReady) = true ∧
    completes (exec (.captureAbort (.k 0)) wReady) = true ∧
    completes (exec (.restore (.k 0)) wReady) = true ∧
    completes (exec (.restoreAbort (.k 0)) wReady) = true ∧
    completes (exec (.exportClutch (.k 0)) wReady) = true ∧
    completes (exec (.importClutch (.k 0)) wReady) = true ∧
    completes (exec (.xferAbort (.k 0)) wReady) = true ∧
    completes (exec (.collAbort (.k 0)) wReady) = true ∧
    completes (exec (.replan (.k 0) 3) wReady) = true ∧
    completes (exec (.accInv (.c 1215) 1215 0xF) wReady) = true ∧
    completes (exec (.codeFlush (.k 0) 0) wReady) = true ∧
    completes (exec (.failPop (.c 0) 0) wReady) = true ∧
    completes (exec (.retrain (.k 0) 15) wReady) = true ∧
    completes (exec (.portReset (.k 0) 15) wReady) = true ∧
    completes (exec (.portReplan (.k 0) 15) wReady) = true :=
  fun h => ⟨done (h.1.1 wReady (.k 0) 3 ⟨(by decide), (by decide), (by decide)⟩).1,
    done (h.1.1 wReady (.s 0) 3 ⟨(by decide), (by decide), (by decide)⟩).2.1,
    done (h.1.1 wReady (.s 0) 3 ⟨(by decide), (by decide), (by decide)⟩).2.2,
    done ((h.1.2.1 wReady (.k 0) ⟨(by decide), (by decide), (by decide)⟩).1 (by decide)),
    done (h.1.2.1 wReady (.k 0) ⟨(by decide), (by decide), (by decide)⟩).2,
    done ((h.1.2.2.1 wReady (.k 0) ⟨(by decide), (by decide), (by decide)⟩).1 (by decide)),
    done (h.1.2.2.1 wReady (.k 0) ⟨(by decide), (by decide), (by decide)⟩).2,
    done ((h.1.2.2.2.1 wReady (.k 0) ⟨(by decide), (by decide), (by decide)⟩).1 (by decide)).1,
    done ((h.1.2.2.2.1 wReady (.k 0) ⟨(by decide), (by decide), (by decide)⟩).1 (by decide)).2,
    done (h.1.2.2.2.1 wReady (.k 0) ⟨(by decide), (by decide), (by decide)⟩).2,
    done (h.1.2.2.2.2.1 wReady (.k 0) ⟨(by decide), (by decide), (by decide)⟩),
    done (h.1.2.2.2.2.2 wReady (.k 0) 3 ⟨(by decide), (by decide), (by decide)⟩ (by decide)),
    done (h.2.1 wReady (.c 1215) 1215 0xF ⟨(by decide), (by decide), (by decide)⟩),
    done (h.2.2.1 wReady (.k 0) 0 ⟨(by decide), (by decide), (by decide)⟩),
    done (h.2.2.2.1 wReady (.c 0) 0 ⟨(by decide), (by decide), (by decide)⟩),
    done ((h.2.2.2.2 wReady (.k 0) 15 ⟨(by decide), (by decide), (by decide)⟩).1 (by decide)),
    done (h.2.2.2.2 wReady (.k 0) 15 ⟨(by decide), (by decide), (by decide)⟩).2.1,
    done ((h.2.2.2.2 wReady (.k 0) 15 ⟨(by decide), (by decide), (by decide)⟩).2.2 (by decide))⟩

theorem witness_ModuleActionsComplete : Obligations.ModuleActionsComplete →
    completes (exec (.dieSleep (.k 0) 3) wReady) = true ∧
    completes (exec (.dieWake (.k 0) 3 []) wReady) = true ∧
    completes (exec (.standby (.k 0)) wReady) = true ∧
    completes (exec (.wake (.k 0) []) wReady) = true ∧
    completes (exec (.warmReset (.k 0)) wReady) = true ∧
    completes (exec (.moduleReset (.k 0)) wReady) = true ∧
    completes (exec (.svnCommit (.s 0)) (setFlag wReady 2 stSecurityJumper true)) = true ∧
    completes (exec (.eraseA (.s 0)) (setFld (setFlag wReady 2 stSecurityJumper true) 2 stSecuritySlotRunning 2)) = true ∧
    completes (exec (.eraseB (.s 0)) (setFlag wReady 2 stSecurityJumper true)) = true ∧
    completes (exec (.presenceClose (.k 0)) { wReady with sec := { wReady.sec with pressUntil := some 5 } }) = true ∧
    completes (exec (.presenceClose (.u 0)) wReady) = true ∧
    completes (exec (.join (.k 0)) wReady) = true ∧
    completes (exec (.joinOpen (.k 0) true) wReady) = true ∧
    completes (exec (.tripClear (.k 0)) wReady) = true ∧
    completes (exec (.portEnable (.k 0) 15 true) wReady) = true :=
  fun h => ⟨done (h.1.1 wReady (.k 0) 3 [] ⟨(by decide), (by decide), (by decide)⟩).1,
    done (h.1.1 wReady (.k 0) 3 [] ⟨(by decide), (by decide), (by decide)⟩).2,
    done (h.1.2 wReady (.k 0) ⟨(by decide), (by decide), (by decide)⟩).1,
    done ((h.1.2 wReady (.k 0) ⟨(by decide), (by decide), (by decide)⟩).2.1 []),
    done (h.1.2 wReady (.k 0) ⟨(by decide), (by decide), (by decide)⟩).2.2.1,
    done (h.1.2 wReady (.k 0) ⟨(by decide), (by decide), (by decide)⟩).2.2.2,
    done (h.2.1.1 (setFlag wReady 2 stSecurityJumper true) (.s 0) ⟨(by decide), (by decide), (by decide)⟩).1,
    done ((h.2.1.1 (setFld (setFlag wReady 2 stSecurityJumper true) 2 stSecuritySlotRunning 2) (.s 0) ⟨(by decide), (by decide), (by decide)⟩).2.1 (by decide) (by decide)),
    done ((h.2.1.1 (setFlag wReady 2 stSecurityJumper true) (.s 0) ⟨(by decide), (by decide), (by decide)⟩).2.2.1 (by decide) (by decide)),
    done ((h.2.1.1 { wReady with sec := { wReady.sec with pressUntil := some 5 } } (.k 0) ⟨(by decide), (by decide), (by decide)⟩).2.2.2 (by decide)),
    done (h.2.1.2 wReady (.u 0) ⟨(by decide), (by decide), (by decide)⟩ (by decide)),
    done (h.2.2.1 wReady (.k 0) ⟨(by decide), (by decide), (by decide)⟩ (by decide)),
    done (h.2.2.2.1 wReady (.k 0) true ⟨(by decide), (by decide), (by decide)⟩),
    done (h.2.2.2.2.1 wReady (.k 0) ⟨(by decide), (by decide), (by decide)⟩ (by decide) (by decide) (by decide)),
    done (h.2.2.2.2.2 wReady (.k 0) 15 true ⟨(by decide), (by decide), (by decide)⟩ (.inl (by decide)) (by decide) (by decide) (by decide))⟩

theorem witness_MailboxCommandsComplete : Obligations.MailboxCommandsComplete →
    completes (exec (.submit (.c 0) 0 64) wReady) = true ∧
    completes (exec (.watchArm (.u 0) 3 8 1 64 0) wReady) = true ∧
    completes (exec (.collArm (.u 0) 64) wReady) = true ∧
    completes (exec (.ledgerArm (.k 0) 0 64) wReady) = true ∧
    completes (exec (.gateAdd (.k 0) 0 64) wReady) = true ∧
    completes (exec (.updArm (.k 0) 0 64) wReady) = true ∧
    completes (exec (.addrProbe (.u 0) 64) wReady) = true ∧
    completes (exec (.route (.k 0) 0x80000005 0x3FF) wReady) = true ∧
    completes (exec (.route (.k 0) 5 0) wReady) = true ∧
    completes (exec (.rankset (.k 0) 0x100FF 64 0 0x80000002) wMem) = true ∧
    completes (exec (.fence (.k 0) 1215 0) { wReady with health := { wReady.health with coreState := [(1215, 0)] } }) = true ∧
    completes (exec (.fence (.k 0) 0x10005 0) { wReady with health := { wReady.health with coreState := [(5, 3)], coreCause := [(5, 7)] } }) = true :=
  fun h => ⟨(let ⟨_, _, e⟩ := h.1.1 wReady (.c 0) 0 64 ⟨(by decide), (by decide), (by decide)⟩; done e),
    (let ⟨_, _, e⟩ := h.1.2.1 wReady (.u 0) 3 8 1 64 0 ⟨(by decide), (by decide), (by decide)⟩; done e),
    (let ⟨_, _, e⟩ := h.1.2.2.1 wReady (.u 0) 64 ⟨(by decide), (by decide), (by decide)⟩; done e),
    (let ⟨_, _, e⟩ := (h.1.2.2.2.1 wReady (.k 0) 0 64 ⟨(by decide), (by decide), (by decide)⟩).1; done e),
    (let ⟨_, _, e⟩ := (h.1.2.2.2.1 wReady (.k 0) 0 64 ⟨(by decide), (by decide), (by decide)⟩).2; done e),
    (let ⟨_, _, e⟩ := h.1.2.2.2.2.1 wReady (.k 0) 0 64 ⟨(by decide), (by decide), (by decide)⟩; done e),
    (let ⟨_, _, _, _, e, _⟩ := h.1.2.2.2.2.2 wReady (.u 0) 64 ⟨(by decide), (by decide), (by decide)⟩; done e),
    (let ⟨_, _, e, _⟩ := h.2.1 wReady (.k 0) 0x80000005 0x3FF ⟨(by decide), (by decide), (by decide)⟩; done (e (by decide) (by decide))),
    (let ⟨_, _, _, e⟩ := h.2.1 wReady (.k 0) 5 0 ⟨(by decide), (by decide), (by decide)⟩; done (e (by decide))),
    (let ⟨_, _, e⟩ := h.2.2.1 wMem (.k 0) 0x100FF 64 0 0x80000002 ⟨(by decide), (by decide), (by decide)⟩
     let k := e (by decide) (by decide) (by decide) (by decide) (by decide)
     done (k.1 _ _ (k.2 (by decide) (by decide) (by decide)))),
    (let ⟨_, _, e⟩ := h.2.2.2 { wReady with health := { wReady.health with coreState := [(1215, 0)] } } (.k 0) 1215 0 ⟨(by decide), (by decide), (by decide)⟩; done ((e (by decide)).1 (by decide) (by decide))),
    (let ⟨_, _, e⟩ := h.2.2.2 { wReady with health := { wReady.health with coreState := [(5, 3)], coreCause := [(5, 7)] } } (.k 0) 0x10005 0 ⟨(by decide), (by decide), (by decide)⟩; done ((e (by decide)).2 (by decide) (by decide) (by decide)))⟩

/-- A JOIN_REQ of identifier 5 that takes any rank. -/
def wJoin (aux : BitVec 32) : Packet :=
  ⟨1, 5, 16, 8, 6, 0, 0, 77, 0, aux, true,
    List.replicate 16 0 ++ ((List.range 16).map (fun i => leBytes 4 i)).flatten ++ List.replicate 16 0⟩

/-- The group manager whose standby member 5 was last heard long ago. -/
def wSby : State := setNet { wMgr with time := 1000000000000 } { wMgr.net with members := [(16384, 0x20005)], heard := [(5, 0)] }

/-- The group manager whose member 5 at rank 3 was last heard long ago. -/
def wLate : State := setNet { wMgr with time := 1000000000000 } { wMgr.net with heard := [(5, 0)] }

/-- A module that joins. -/
def wJoining : State := setFld wMgr 0x31 stMembershipJstate jsJoining

/-- A member of the group that module 5 manages. -/
def wMember : State :=
  let s := setFld wMgr 0x31 stMembershipJstate jsMember
  setNet s { s.net with gm := 5 }

/-- The same, with nothing heard or sent for long. -/
def wMemberLate : State := { wMember with time := 1000000000000 }

/-- A heartbeat with the port reports of a module none of whose ports is ACTIVE. -/
def wBeat : Packet :=
  ⟨1, 5, 20, 8, 4, 0, 0, 77, 0, 2, true, ((List.range 16).map (fun i => leBytes 4 i)).flatten⟩

/-- An update that takes rank 3 from module 5. -/
def wTableUpd : MemberUpd := ⟨4, 900, false, [(3, 0x10006)], []⟩

theorem witness_MembershipCompletes : Obligations.MembershipCompletes →
    completes (exec .joinRetry { wJoining with time := 10000005, net := { wMgr.net with joinSent := some 5 } }) = true ∧
    completes (exec (.joinReq (wJoin 0)) wMgr) = true ∧
    completes (exec (.joinReq (wJoin 0)) wMember) = true ∧
    completes (exec (.joinReq (wJoin 0)) (setFld wMember 1 fStrapsRole 2)) = true ∧
    exec (.joinReq { wJoin 0 with dst := 9 }) wMgr = exec (.packetForward { wJoin 0 with dst := 9 }) wMgr ∧
    completes (exec (.joinResp (wData 17 0 0 4 0x30000)) wJoining) = true ∧
    completes (exec (.joinResp (wData 17 0 0 4 7)) wJoining) = true ∧
    completes (exec (.memberUpdate (wData 18 0 2 0 32)) wMember) = true ∧
    completes (exec (.memberUpdate (wData 18 0 2 0 48)) wMember) = true ∧
    completes (exec (.memberSync (wData 19 0 0 0 0)) wMgr) = true ∧
    completes (exec .epochApply (setNet wMgr { wMgr.net with updates := [wTableUpd] })) = true ∧
    completes (exec (.heartbeat (wData 20 0 0 0 2)) wMgr) = true ∧
    completes (exec (.heartbeat wBeat) wMgr) = true ∧
    completes (exec (.heartbeat (wData 20 0 0 0 2)) wMember) = true ∧
    completes (exec .heartbeatTx wMemberLate) = true ∧
    completes (exec .heartbeatTx { wMgr with time := 1000000000000 }) = true ∧
    completes (exec (.memberLost 16384) wSby) = true ∧
    completes (exec (.memberLost 3) wLate) = true ∧
    completes (exec .gmLost wMemberLate) = true :=
  fun h => ⟨done (h.1.1 { wJoining with time := 10000005, net := { wMgr.net with joinSent := some 5 } } 5 (by decide) (by decide) (by decide)),
    done ((h.1.2.1 wMgr (wJoin 0) ⟨(by decide), (by decide), (by decide)⟩ (by decide)).1 (by decide)),
    done ((h.1.2.1 wMember (wJoin 0) ⟨(by decide), (by decide), (by decide)⟩ (by decide)).2.1 (by decide) (by decide)),
    done ((h.1.2.1 (setFld wMember 1 fStrapsRole 2) (wJoin 0) ⟨(by decide), (by decide), (by decide)⟩ (by decide)).2.2 (by decide) (by decide)),
    h.1.2.2.1 wMgr { wJoin 0 with dst := 9 } (by decide) (by decide) (by decide),
    done ((h.1.2.2.2 wJoining (wData 17 0 0 4 0x30000) ⟨(by decide), (by decide), (by decide)⟩ (by decide) (by decide) (by decide) (by decide) (by decide) (by decide)).1 (by decide)),
    done ((h.1.2.2.2 wJoining (wData 17 0 0 4 7) ⟨(by decide), (by decide), (by decide)⟩ (by decide) (by decide) (by decide) (by decide) (by decide) (by decide)).2 (by decide)),
    done ((h.2.1.1 wMember (wData 18 0 2 0 32) ⟨(by decide), (by decide), (by decide)⟩ (by decide) (by decide) (by decide) (by decide) (by decide) (by decide) (by decide)).2 (by decide)),
    done ((h.2.1.1 wMember (wData 18 0 2 0 48) ⟨(by decide), (by decide), (by decide)⟩ (by decide) (by decide) (by decide) (by decide) (by decide) (by decide) (by decide)).1 (by decide)),
    done (h.2.1.2.1 wMgr (wData 19 0 0 0 0) ⟨(by decide), (by decide), (by decide)⟩ (by decide) (by decide) (by decide) (by decide) (by decide) (by decide)),
    done (h.2.1.2.2 (setNet wMgr { wMgr.net with updates := [wTableUpd] }) wTableUpd [] (by decide) (by decide)),
    done (((h.2.2.1 wMgr (wData 20 0 0 0 2) ⟨(by decide), (by decide), (by decide)⟩ (.inl (by decide)) (by decide) (by decide) (by decide)).1 (by decide) (by decide)).1 (.inl (by decide))),
    done (((h.2.2.1 wMgr wBeat ⟨(by decide), (by decide), (by decide)⟩ (.inr (by decide)) (by decide) (by decide) (by decide)).1 (by decide) (by decide)).2 (by decide) (by decide)),
    done ((h.2.2.1 wMember (wData 20 0 0 0 2) ⟨(by decide), (by decide), (by decide)⟩ (.inl (by decide)) (by decide) (by decide) (by decide)).2 (by decide) (by decide)),
    done (h.2.2.2.1 wMemberLate (by decide) (by decide)),
    done (h.2.2.2.2.1 { wMgr with time := 1000000000000 } (by decide) (by decide)),
    done ((h.2.2.2.2.2.1 wSby 16384 (by decide) (by decide) (by decide) (by decide) (by decide) (by decide)).1 (by decide)),
    done ((h.2.2.2.2.2.1 wLate 3 (by decide) (by decide) (by decide) (by decide) (by decide) (by decide)).2 (by decide)),
    done (h.2.2.2.2.2.2 wMemberLate (by decide) (by decide) (by decide))⟩

end Sys2Proof.Tests
end

