-- ==== Sys2Proof/Tests/Witness4.lean ====
section
/-!
SUPPORT. Witnesses: for the statements about update units, clutches, restores, the flash array, clocks, power and cooling, concrete
states and operands that meet the hypotheses of each clause together.
-/

namespace Sys2Proof.Tests

open Sys2Proof Sys2Proof.Machine

set_option maxRecDepth 100000

/-- An update of rule 0 that may start at once, with its state record at `a`. -/
def wUpd (a : Nat) : UpdDesc :=
  ⟨0, false, false, false, 0, 0, 0, 0, 1, a, 0, 0, 0, 0, 0, 0, 0, 0, 0, 0, 0, 0, 0, 0, 0, 0, 0, 0, true, []⟩

/-- Its run in a phase. -/
def wRun (a : Nat) (p : UpdPhase) (w : Option Nat) : UpdRun := ⟨wUpd a, p, false, 0, 0, 0, [], [], [], 0, 0, 0, none, w, 0, none⟩

/-- The update unit of die 0 with that run. -/
def wUnit (x : UpdRun) : State := setUpd { wMem with time := 20000 } 0 { run := some x }

/-- A ledger whose counter has reached its target. -/
def wLedgerDue : Ledger := ⟨1, 1, 0, 16, 0, 0, 0, 64, true⟩

/-- A checkpoint packet from identifier 5 of clutch 9 with payload `l`. -/
def wCk (aux : BitVec 32) (len : BitVec 9) (l : List Byte) : Packet := ⟨1, 5, 25, 8, len, 0, 9, 0, 0, aux, true, l⟩

/-- A capture of clutch 9. -/
def wCap : Capture := { num := 9, k := 2, g := 1, n := 2, barrier := 7 }

/-- The group manager with a capture. -/
def wCapState (c : Capture) : State := setStore wMgr { wMgr.store with capture := some c }

/-- A restore of clutch 9. -/
def wRest : Restore := ⟨9, 0, 0, [], false, [], [], [], false, false⟩

/-- The group manager in a restore. -/
def wRestState (r : Restore) : State := setStore wMgr { wMgr.store with restore := some r }

/-- Held in reset by a low supply that is good again. -/
def wLow : State := { setFlag wMem 4 stPowerWarnActive true with time := 2000000, sys := { wMem.sys with supplyLow := true } }

/-- A group of four working ranks that keeps clutch 9 with parity. -/
def wFour : State :=
  let s := setNet wMgr { wMgr.net with members := [(1, 0x10005), (2, 0x10006), (3, 0x10007)] }
  setFlag (setStore s { s.store with dir := [(9, { st := 2, k := 2, n := 4, g := 1, u := 1 })] }) 0xA stStore2Reprotecting true

theorem witness_UpdateUnitsComplete : Obligations.UpdateUnitsComplete →
    completes (exec (.ledgerCheckRun 0) { wMem with ledgers := [(0, [wLedgerDue])] }) = true ∧
    completes (exec (.updatePrepare 0) (setFlag (setUpd wMem 0 { armed := [wUpd 0] }) (pgUpd 0) fUpdateEnable true)) = true ∧
    completes (exec (.updatePrepare 0) (wUnit (wRun 0 .prepare none))) = true ∧
    completes (exec (.subshardCommit 0) (wUnit (wRun 0 .commit none))) = true ∧
    completes (exec (.owedRecheck 0) (wUnit (wRun 0 .commit (some 5)))) = true ∧
    completes (exec (.owedRecheck 0) (wUnit (wRun 512 .commit (some 5)))) = true :=
  fun h => ⟨done (h.1 { wMem with ledgers := [(0, [wLedgerDue])] } 0 wLedgerDue (by decide) (by decide)),
    done (h.2.1 (setFlag (setUpd wMem 0 { armed := [wUpd 0] }) (pgUpd 0) fUpdateEnable true) 0 (wUpd 0) (by decide) (by decide) (by decide) (by decide)),
    done (h.2.2.1 (wUnit (wRun 0 .prepare none)) 0 (wRun 0 .prepare none) (by decide) (by decide) (by decide) (by decide)),
    done (h.2.2.2.1 (wUnit (wRun 0 .commit none)) 0 (wRun 0 .commit none) (by decide) (by decide) (by decide) (by decide) (by decide)),
    done ((h.2.2.2.2 (wUnit (wRun 0 .commit (some 5))) 0 (wRun 0 .commit (some 5)) 5 (by decide) (by decide) (by decide) (by decide)).1 0 (by decide)),
    done ((h.2.2.2.2 (wUnit (wRun 512 .commit (some 5))) 0 (wRun 512 .commit (some 5)) 5 (by decide) (by decide) (by decide) (by decide)).2 (by decide))⟩

theorem witness_ClutchesComplete : Obligations.ClutchesComplete →
    completes (exec .clutchPeriodExpiry (setFlag { wMgr with time := 100000000000000, store := { wMgr.store with lastBell := some 0 } } 9 fStore1AutoEn true)) = true ∧
    completes (exec (.risk (wCk 0x308 0 [])) wMgr) = true ∧
    completes (exec (.clutchStart (wCk 1 1 (leBytes 4 9 ++ List.replicate 12 0))) wMgr) = true ∧
    completes (exec (.clutchStart (wCk 1 1 (leBytes 4 9 ++ List.replicate 8 0 ++ leBytes 4 3))) (wCapState wCap)) = true ∧
    completes (exec .captureBell (setFld (wCapState { wCap with bell := some 0 }) 0x31 stMembershipJstate jsStandby)) = true ∧
    completes (exec .captureBell (wCapState { wCap with bell := some 0 })) = true ∧
    completes (exec .shardStream { wCapState { wCap with begun := true, todo := [0] } with job := some ⟨1, false, 0, [], [⟨0, 4, 0, 1, 0, 1⟩], none, [], []⟩ }) = true ∧
    completes (exec (.unitP (wCk 65538 0 [])) (wCapState wCap)) = true ∧
    completes (exec (.unitQ (wCk 65539 0 [])) (wCapState wCap)) = true ∧
    completes (exec (.unitCount (wCk 4 0 [])) (wCapState wCap)) = true ∧
    completes (exec (.secured (wCk 5 0 [])) (wCapState wCap)) = true ∧
    completes (exec (.clutchCommit (wCk 6 0 [])) (wCapState wCap)) = true ∧
    completes (exec (.clutchAbort (wCk 0x207 0 [])) (wCapState wCap)) = true ∧
    completes (exec (.unitWritten []) (setFlag (wCapState { wCap with sent := true, u := some 0 }) 8 stStore0ReadOnly true)) = true ∧
    completes (exec (.unitWritten []) (wCapState { wCap with sent := true, u := some 0 })) = true :=
  fun h => ⟨done (h.1.1 (setFlag { wMgr with time := 100000000000000, store := { wMgr.store with lastBell := some 0 } } 9 fStore1AutoEn true) 0 (by decide) (by decide) (by decide) (by decide) (by decide)),
    done (h.1.2.1 wMgr (wCk 0x308 0 []) ⟨(by decide), (by decide), (by decide)⟩ (by decide) (by decide) (by decide) (by decide)),
    done ((h.1.2.2.1 wMgr (wCk 1 1 (leBytes 4 9 ++ List.replicate 12 0)) ⟨(by decide), (by decide), (by decide)⟩ (by decide) (by decide) (by decide) (by decide) (by decide) (by decide)).1 (by decide) (by decide)),
    done ((h.1.2.2.1 (wCapState wCap) (wCk 1 1 (leBytes 4 9 ++ List.replicate 8 0 ++ leBytes 4 3)) ⟨(by decide), (by decide), (by decide)⟩ (by decide) (by decide) (by decide) (by decide) (by decide) (by decide)).2 wCap (by decide) (by decide) (by decide)),
    done ((h.1.2.2.2.1 (setFld (wCapState { wCap with bell := some 0 }) 0x31 stMembershipJstate jsStandby) { wCap with bell := some 0 } 0 (by decide) (by decide) (by decide) (by decide)).1 (by decide)),
    done ((h.1.2.2.2.1 (wCapState { wCap with bell := some 0 }) { wCap with bell := some 0 } 0 (by decide) (by decide) (by decide) (by decide)).2 (by decide)),
    done (h.1.2.2.2.2 { wCapState { wCap with begun := true, todo := [0] } with job := some ⟨1, false, 0, [], [⟨0, 4, 0, 1, 0, 1⟩], none, [], []⟩ } { wCap with begun := true, todo := [0] } 0 ⟨0, 4, 0, 1, 0, 1⟩ (by decide) (by decide) (by decide) (.inr (by decide))),
    done ((h.2.1 (wCapState wCap) (wCk 65538 0 []) ⟨(by decide), (by decide), (by decide)⟩ (by decide)).1 (by decide)),
    done ((h.2.1 (wCapState wCap) (wCk 65539 0 []) ⟨(by decide), (by decide), (by decide)⟩ (by decide)).2 (by decide)),
    done ((h.2.2.1 (wCapState wCap) (wCk 4 0 []) wCap 3 ⟨(by decide), (by decide), (by decide)⟩ (by decide) (by decide) (by decide) (by decide)).1 (by decide) (by decide)),
    done ((h.2.2.1 (wCapState wCap) (wCk 5 0 []) wCap 3 ⟨(by decide), (by decide), (by decide)⟩ (by decide) (by decide) (by decide) (by decide)).2 (by decide) (by decide)),
    done ((h.2.2.2.1 (wCapState wCap) (wCk 6 0 []) wCap ⟨(by decide), (by decide), (by decide)⟩ (by decide) (by decide) (by decide)).1 (by decide) (by decide)),
    done ((h.2.2.2.1 (wCapState wCap) (wCk 0x207 0 []) wCap ⟨(by decide), (by decide), (by decide)⟩ (by decide) (by decide) (by decide)).2 (by decide) (by decide)),
    done (h.2.2.2.2.1 (setFlag (wCapState { wCap with sent := true, u := some 0 }) 8 stStore0ReadOnly true) [] { wCap with sent := true, u := some 0 } 0 (by decide) (by decide) (by decide) (by decide)),
    done (h.2.2.2.2.2 (wCapState { wCap with sent := true, u := some 0 }) [] { wCap with sent := true, u := some 0 } 0 (by decide) (by decide) (by decide) (by decide))⟩

theorem witness_RestoreCompletes : Obligations.RestoreCompletes →
    completes (exec (.restoreStart (wCk 9 1 (leBytes 4 9 ++ List.replicate 12 0))) wMgr) = true ∧
    completes (exec .restoreBell (wRestState wRest)) = true ∧
    completes (exec .restoreBell (wRestState { wRest with source := 1 })) = true ∧
    completes (exec (.rebuildReq (wCk 0x10C 2 (leBytes 2 3 ++ List.replicate 14 0 ++ [0, 0, 1, 0] ++ List.replicate 12 0))) wMgr) = true ∧
    completes (exec (.rebuildReq (wCk 0x20C 2 (leBytes 2 3 ++ List.replicate 14 0 ++ [7, 0, 1, 0, 0, 0, 2, 0] ++ List.replicate 8 0))) wMgr) = true ∧
    completes (exec (.rebuildPart (wCk 10 256 (List.replicate 4096 0))) wMgr) = true ∧
    completes (exec (.restoreDone (wCk 11 0 [])) (wRestState wRest)) = true ∧
    completes (exec .reprotect { wFour with store := { wFour.store with reprotect := [(9, 3, 0, 0, 0)] } }) = true ∧
    completes (exec .reprotect { wFour with store := { wFour.store with reprotect := [(9, 77, 0, 0, 0)] } }) = true ∧
    completes (exec .gmWaitExpiry { wMgr with time := 100000000000000, net := { wMgr.net with gmLost := some 0 } }) = true :=
  fun h => ⟨done (h.1 wMgr (wCk 9 1 (leBytes 4 9 ++ List.replicate 12 0)) ⟨(by decide), (by decide), (by decide)⟩ (by decide) (by decide) (by decide) (by decide) (by decide)),
    done ((h.2.1 (wRestState wRest) wRest (by decide) (by decide) (by decide) (by decide)).1 (by decide)),
    done ((h.2.1 (wRestState { wRest with source := 1 }) { wRest with source := 1 } (by decide) (by decide) (by decide) (by decide)).2 (by decide)),
    done ((h.2.2.1 wMgr (wCk 0x10C 2 (leBytes 2 3 ++ List.replicate 14 0 ++ [0, 0, 1, 0] ++ List.replicate 12 0)) ⟨(by decide), (by decide), (by decide)⟩ (by decide) (by decide) (by decide) (by decide) (by decide) (by decide)).1 [] (by decide) (by decide)),
    done ((h.2.2.1 wMgr (wCk 0x20C 2 (leBytes 2 3 ++ List.replicate 14 0 ++ [7, 0, 1, 0, 0, 0, 2, 0] ++ List.replicate 8 0)) ⟨(by decide), (by decide), (by decide)⟩ (by decide) (by decide) (by decide) (by decide) (by decide) (by decide)).2 0 (by decide)),
    done (h.2.2.2.1 wMgr (wCk 10 256 (List.replicate 4096 0)) ⟨(by decide), (by decide), (by decide)⟩ (by decide) (by decide) (by decide) (by decide) (by decide)),
    done (h.2.2.2.2.1 (wRestState wRest) (wCk 11 0 []) wRest 3 ⟨(by decide), (by decide), (by decide)⟩ (by decide) (by decide) (by decide) (by decide) (by decide) (by decide) (by decide) (by decide)),
    done ((h.2.2.2.2.2.1 { wFour with store := { wFour.store with reprotect := [(9, 3, 0, 0, 0)] } } _ (9, 3, 0, 0, 0) [] (by decide) (by decide) (by decide) (by decide)).1 (pairOf (by decide))),
    done ((h.2.2.2.2.2.1 { wFour with store := { wFour.store with reprotect := [(9, 77, 0, 0, 0)] } } _ (9, 77, 0, 0, 0) [] (by decide) (by decide) (by decide) (by decide)).2 (pairOf (by decide))),
    done (h.2.2.2.2.2.2 { wMgr with time := 100000000000000, net := { wMgr.net with gmLost := some 0 } } 0 (by decide) (by decide))⟩

theorem witness_ClocksComplete : Obligations.ClocksComplete →
    completes (exec .freqStep { wMem with power := { wMem.power with pend := some ⟨5, 900, 1⟩ } }) = true ∧
    completes (exec (.droopTrip 31) wMem) = true ∧
    completes (exec (.droopTrip 31) (setFlag wMem (pgWard 31) fWardStretchEn false)) = true ∧
    completes (exec (.droopRequest 31) (setWardClk wMem 31 { trips := 8 })) = true ∧
    completes (exec (.droopRelease 31) wMem) = true ∧
    completes (exec (.marginWindow (.ward 31) [some 50, some 50, some 50, some 50, some 50, some 50, some 50, some 50]) wMem) = true ∧
    completes (exec (.pllLockLoss 31) wMem) = true ∧
    completes (exec (.pllLockLoss 35) wMem) = true ∧
    completes (exec (.pllLockLoss 52) (wPort psActive {})) = true ∧
    completes (exec (.replanTimer 3) { wMem with time := 10000000005, clk := { wMem.clk with started := [(3, 5)] } }) = true ∧
    completes (exec (.replanTimer 3) { setFld wMem (pgDie 3) fWorkerDieReplanDays 1 with time := 100000000000000 }) = true ∧
    completes (exec (.replanStepDone 2 ⟨50, 40, 10⟩) { wMem with clk := { wMem.clk with run := some ⟨2, 1, 0, []⟩ } }) = true :=
  fun h => ⟨done (h.1.1 { wMem with power := { wMem.power with pend := some ⟨5, 900, 1⟩ } } ⟨5, 900, 1⟩ (by decide) (by decide)),
    done ((h.1.2.1 wMem 31 (by decide)).1 (by decide)),
    done ((h.1.2.1 (setFlag wMem (pgWard 31) fWardStretchEn false) 31 (by decide)).2 (by decide)),
    done (h.1.2.2.1 (setWardClk wMem 31 { trips := 8 }) 31 (by decide) (by decide)),
    done (h.1.2.2.2.1 wMem 31),
    done (h.1.2.2.2.2.1 wMem 31 [some 50, some 50, some 50, some 50, some 50, some 50, some 50, some 50] (by decide) (50, 0) [(50, 1), (50, 2), (50, 3), (50, 4), (50, 5), (50, 6), (50, 7)] (by decide) (by decide)),
    done ((h.1.2.2.2.2.2 wMem 31).1 (by decide) (by decide)),
    done ((h.1.2.2.2.2.2 wMem 35).2.1 (by decide) (by decide) (by decide)),
    done ((h.1.2.2.2.2.2 (wPort psActive {}) 52).2.2 (by decide) (by decide) (by decide) (by decide)),
    done (h.2.1 { wMem with time := 10000000005, clk := { wMem.clk with started := [(3, 5)] } } 3 5 (by decide) (by decide)),
    done (h.2.2.1 { setFld wMem (pgDie 3) fWorkerDieReplanDays 1 with time := 100000000000000 } 3 (by decide) (by decide) (by decide)),
    done (h.2.2.2 { wMem with clk := { wMem.clk with run := some ⟨2, 1, 0, []⟩ } } 2 ⟨2, 1, 0, []⟩ ⟨50, 40, 10⟩ (by decide) (by decide) (by decide))⟩

theorem witness_PowerCompletes_supply : Obligations.PowerCompletes →
    completes (exec (.pmbusPoll 37 ⟨800, 10, 300, false, false⟩) wMem) = true ∧
    completes (exec .phaseBringIn { wMem with power := { wMem.power with phaseQ := [37] } }) = true ∧
    completes (exec (.powerMeasure 800) wMem) = true ∧
    completes (exec .capRaise { wMem with time := 200000, power := { wMem.power with below := some 0, cap := 15 } }) = true ∧
    completes (exec .powerLimitAssert wMem) = true ∧
    completes (exec .powerLimitRelease (setFlag wMem 4 stPowerPlAsserted true)) = true ∧
    completes (exec (.supplyDip 419) wMem) = true ∧
    completes (exec .supplyReset wMem) = true ∧
    completes (exec .supplyRecover { setFlag wMem 4 stPowerWarnActive true with time := 2000000 }) = true ∧
    completes (exec .supplyRecover wLow) = true ∧
    completes (exec (.supplyHigh 601) wMem) = true :=
  fun h => ⟨done (h.1.1 wMem 37 ⟨800, 10, 300, false, false⟩ (by decide) (by decide)),
    done (h.1.2.1 { wMem with power := { wMem.power with phaseQ := [37] } } 37 [] (by decide) (by decide)),
    done (h.1.2.2.1 wMem 800),
    done (h.1.2.2.2.1 { wMem with time := 200000, power := { wMem.power with below := some 0, cap := 15 } } 0 (by decide) (by decide) (by decide)),
    done (h.1.2.2.2.2.1 wMem (by decide) (by decide)),
    done (h.1.2.2.2.2.2 (setFlag wMem 4 stPowerPlAsserted true) (by decide)),
    done (h.2.1.1 wMem 419 (by decide) (by decide)),
    done (h.2.1.2.1 wMem),
    done ((h.2.1.2.2.1 { setFlag wMem 4 stPowerWarnActive true with time := 2000000 } (by decide) (by decide)).1 (by decide)),
    done ((h.2.1.2.2.1 wLow (by decide) (by decide)).2 (by decide) (by decide)),
    done (h.2.1.2.2.2 wMem 601 (by decide))⟩

theorem witness_PowerCompletes : Obligations.PowerCompletes →
    completes (exec .fAllowUpdate wMem) = true ∧
    completes (exec (.allow ⟨1, 5, 24, 8, 0, 0, 9, 0, 0, 5121, true, []⟩) wMgr) = true ∧
    completes (exec (.cap ⟨1, 5, 24, 8, 0, 0, 9, 0, 0, 5122, true, []⟩) wMgr) = true ∧
    completes (exec (.freqSet ⟨1, 5, 24, 8, 0, 0, 9, 0, 1000, 5123, true, []⟩) wMember) = true ∧
    completes (exec (.freqSet ⟨1, 5, 24, 8, 0, 0, 9, 0, 999, 5123, true, []⟩) wMember) = true ∧
    completes (exec .freqRaiseHold { setFld wMgr 4 fPowerFAllow 20 with time := 1000000000000, power := { wMgr.power with holdSince := some 0, set := true } }) = true ∧
    completes (exec (.voltLate 3) { wMem with power := { wMem.power with pend := some ⟨5, 900, 1⟩, slewing := [3] } }) = true ∧
    completes (exec (.railConfirmed 3) { wMem with power := { wMem.power with slewing := [3] } }) = true ∧
    completes (exec (.railConfirmed 3) { wMem with power := { wMem.power with slewing := [3], late := [3] } }) = true :=
  fun h => ⟨done (h.2.2.1 wMem),
    done ((h.2.2.2.1 wMgr ⟨1, 5, 24, 8, 0, 0, 9, 0, 0, 5121, true, []⟩ ⟨(by decide), (by decide), (by decide)⟩ (by decide) (by decide)).1 (by decide)),
    done ((h.2.2.2.1 wMgr ⟨1, 5, 24, 8, 0, 0, 9, 0, 0, 5122, true, []⟩ ⟨(by decide), (by decide), (by decide)⟩ (by decide) (by decide)).2.1 (by decide)),
    done (((h.2.2.2.1 wMember ⟨1, 5, 24, 8, 0, 0, 9, 0, 1000, 5123, true, []⟩ ⟨(by decide), (by decide), (by decide)⟩ (by decide) (by decide)).2.2 (by decide) (by decide) (by decide) (by decide)).1 (by decide)),
    done (((h.2.2.2.1 wMember ⟨1, 5, 24, 8, 0, 0, 9, 0, 999, 5123, true, []⟩ ⟨(by decide), (by decide), (by decide)⟩ (by decide) (by decide)).2.2 (by decide) (by decide) (by decide) (by decide)).2 (by decide)),
    done (h.2.2.2.2.1 { setFld wMgr 4 fPowerFAllow 20 with time := 1000000000000, power := { wMgr.power with holdSince := some 0, set := true } } 0 (by decide) (by decide) (by decide) (by decide) (by decide)),
    done (h.2.2.2.2.2.1 { wMem with power := { wMem.power with pend := some ⟨5, 900, 1⟩, slewing := [3] } } 3 ⟨5, 900, 1⟩ (by decide) (by decide) (by decide) (by decide)),
    done ((h.2.2.2.2.2.2 { wMem with power := { wMem.power with slewing := [3] } } 3 (by decide)).1 (by decide)),
    done ((h.2.2.2.2.2.2 { wMem with power := { wMem.power with slewing := [3], late := [3] } } 3 (by decide)).2 (by decide) (by decide))⟩

theorem witness_CoolingCompletes : Obligations.CoolingCompletes →
    completes (exec (.thermistorRead (.tenths 150) (.tenths 650)) wMem) = true ∧
    completes (exec (.flowAverage 900) (setFld wMem 1 fStrapsFlowScale 1)) = true ∧
    completes (exec .flowPulseTimeout (setFld wMem 1 fStrapsFlowScale 1)) = true ∧
    completes (exec .flowLowTimeout { wMem with time := 20000000000, therm := { wMem.therm with lowFlow := some 0 } }) = true ∧
    completes (exec .flowRestored { wMem with time := 20000000000, therm := { wMem.therm with goodFlow := some 0, flowLost := true } }) = true ∧
    completes (exec .inletHotTimeout { wMem with time := 20000000000, therm := { wMem.therm with hotInlet := some 0 } }) = true ∧
    completes (exec (.managerDieTrip 105) wMem) = true ∧
    completes (exec (.heatBalanceCheck 37) (setFlag (setFld (setFld { wMem with therm := { wMem.therm with inlet := some 300, outlet := some 350, imbalance := 0 } } 5 fThermalFlow 100) 1 fStrapsFlowScale 1) 5 fThermalHbEn true)) = true ∧
    completes (exec (.heatBalanceCheck 900) (setFlag (setFld (setFld { wMem with therm := { wMem.therm with inlet := some 300, outlet := some 350, imbalance := 0 } } 5 fThermalFlow 100) 1 fStrapsFlowScale 1) 5 fThermalHbEn true)) = true ∧
    completes (exec (.heatBalanceCheck 900) (setFlag (setFld (setFld { wMem with therm := { wMem.therm with inlet := some 300, outlet := some 350, imbalance := 2 } } 5 fThermalFlow 100) 1 fStrapsFlowScale 1) 5 fThermalHbEn true)) = true ∧
    completes (exec (.sensorPass 31 [80, 105]) wMem) = true ∧
    completes (exec (.sensorPass 31 [80, 104]) wMem) = true ∧
    completes (exec (.thermalLower 31) { wMem with time := 20000000000, therm := { wMem.therm with hotSince := [(31, 0)] } }) = true ∧
    completes (exec (.thermalRaise 31) { wMem with time := 20000000000, therm := { wMem.therm with coolSince := [(31, 0)] } }) = true ∧
    completes (exec (.tripSleep 3) { wMem with time := 20000000000, therm := { wMem.therm with tripAt := [(3, 5)] } }) = true ∧
    completes (exec (.tripWake 3 []) { wMem with time := 20000000000, therm := { wMem.therm with sleptAt := [(3, 5)] } }) = true ∧
    completes (exec (.backstopCut 3 true) wMem) = true ∧
    completes (exec (.rotationAdvance 3) { wMem with time := 1000000000000, therm := { wMem.therm with rot := [(3, ⟨0, 0, 0, false, 0, 0, false, 0⟩)] } }) = true ∧
    completes (exec .thermalFLower { wMem with time := 20000000000, power := { wMem.power with deepSince := some 0 } }) = true ∧
    completes (exec .thermalFReturn { wMem with time := 20000000000, power := { wMem.power with clearSince := some 0, lowered := 1 } }) = true :=
  fun h => ⟨done (h.1.1 wMem 150 650 (by decide) (by decide) (by decide)),
    done (h.1.2.1 (setFld wMem 1 fStrapsFlowScale 1) 900 (by decide)).1,
    done (h.1.2.1 (setFld wMem 1 fStrapsFlowScale 1) 900 (by decide)).2,
    done (h.1.2.2.1 { wMem with time := 20000000000, therm := { wMem.therm with lowFlow := some 0 } } 0 (by decide) (by decide) (by decide)),
    done (h.1.2.2.2.1 { wMem with time := 20000000000, therm := { wMem.therm with goodFlow := some 0, flowLost := true } } 0 (by decide) (by decide) (by decide)),
    done (h.1.2.2.2.2.1 { wMem with time := 20000000000, therm := { wMem.therm with hotInlet := some 0 } } 0 (by decide) (by decide)),
    done (h.1.2.2.2.2.2.1 wMem 105 (by decide)),
    done ((h.1.2.2.2.2.2.2 (setFlag (setFld (setFld { wMem with therm := { wMem.therm with inlet := some 300, outlet := some 350, imbalance := 0 } } 5 fThermalFlow 100) 1 fStrapsFlowScale 1) 5 fThermalHbEn true) 37 300 350 (by decide) (by decide) (by decide) (by decide) (by decide)).1 (by decide)),
    done ((h.1.2.2.2.2.2.2 (setFlag (setFld (setFld { wMem with therm := { wMem.therm with inlet := some 300, outlet := some 350, imbalance := 0 } } 5 fThermalFlow 100) 1 fStrapsFlowScale 1) 5 fThermalHbEn true) 900 300 350 (by decide) (by decide) (by decide) (by decide) (by decide)).2.1 (by decide) (by decide)),
    done ((h.1.2.2.2.2.2.2 (setFlag (setFld (setFld { wMem with therm := { wMem.therm with inlet := some 300, outlet := some 350, imbalance := 2 } } 5 fThermalFlow 100) 1 fStrapsFlowScale 1) 5 fThermalHbEn true) 900 300 350 (by decide) (by decide) (by decide) (by decide) (by decide)).2.2 (by decide) (by decide)),
    done ((h.2.1 wMem 31 [80, 105] 105 (by decide) (by decide)).1 (by decide)),
    done ((h.2.1 wMem 31 [80, 104] 104 (by decide) (by decide)).2 (by decide)),
    done (h.2.2.1 { wMem with time := 20000000000, therm := { wMem.therm with hotSince := [(31, 0)] } } 31 0 (by decide) (by decide) (by decide)),
    done (h.2.2.2.1 { wMem with time := 20000000000, therm := { wMem.therm with coolSince := [(31, 0)] } } 31 0 (by decide) (by decide) (by decide)),
    done (h.2.2.2.2.1 { wMem with time := 20000000000, therm := { wMem.therm with tripAt := [(3, 5)] } } 3 (by decide) (by decide)),
    done (h.2.2.2.2.2.1 { wMem with time := 20000000000, therm := { wMem.therm with sleptAt := [(3, 5)] } } 3 [] 5 (by decide) (by decide) (by decide) (by decide)),
    done (h.2.2.2.2.2.2.1 wMem 3 (by decide)),
    done (h.2.2.2.2.2.2.2.1 { wMem with time := 1000000000000, therm := { wMem.therm with rot := [(3, ⟨0, 0, 0, false, 0, 0, false, 0⟩)] } } 3 ⟨0, 0, 0, false, 0, 0, false, 0⟩ (by decide) (by decide)),
    done (h.2.2.2.2.2.2.2.2.1 { wMem with time := 20000000000, power := { wMem.power with deepSince := some 0 } } 0 (by decide) (by decide)),
    done (h.2.2.2.2.2.2.2.2.2 { wMem with time := 20000000000, power := { wMem.power with clearSince := some 0, lowered := 1 } } 0 (by decide) (by decide) (by decide))⟩

end Sys2Proof.Tests
end

