-- ==== Sys2Proof/Tests/Witness5.lean ====
section
/-!
SUPPORT. Witnesses: for the statements about the flash array, health, the management session and its commands, security, side services,
power and reset, and for the frames and invariants, concrete states and operands that meet the hypotheses of each clause together.
-/

namespace Sys2Proof.Tests

open Sys2Proof Sys2Proof.Machine

set_option maxRecDepth 100000

/-- The peer of the sessions below, with an IPv4-mapped address. -/
def wPeer : Peer := ⟨0xFFFF * 2 ^ 80 + 7 * 2 ^ 96, 5000⟩

/-- A session with it. -/
def wSess : Session := { peer := wPeer, id := 7, heard := 0, sentAt := 0, nextEvent := (0, 0) }

/-- The port is served. -/
def wPort0 : State := setFlag (setMgmt wMem { wMem.mgmt with txDisabled := false }) 0x10 stMgmtLinkLinkUp true

/-- The port is served and the session is bound. -/
def wS : State := setMgmt wPort0 { wPort0.mgmt with session := some wSess }

/-- The header of the next message. -/
def wHdr : MsgHdr := ⟨wPeer, 7, 1, 0, 0⟩

/-- The state after its delivery. -/
def wU (s : State) (h : MsgHdr) : State :=
  let u := hearPeer (countFrame s) h
  match u.mgmt.session with
  | some y => setSession u (some { y with inSeq := y.inSeq + 1, ackOwed := some (y.ackOwed.getD (now u)) })
  | none => u

theorem delivered_of (s : State) (h : MsgHdr) (h1 : acceptsPeer s h.peer = true) (h2 : (sessionFor (countFrame s) h).isSome = true)
    (h3 : (hearPeer (countFrame s) h).mgmt.session.map (fun y => decide (h.seq.toNat = y.inSeq + 1)) = some true) :
    Delivered s h (wU s h) := by
  obtain ⟨x, hx⟩ := Option.isSome_iff_exists.1 h2
  cases hy : (hearPeer (countFrame s) h).mgmt.session with
  | none => rw [hy] at h3; cases h3
  | some y =>
    rw [hy] at h3
    exact ⟨h1, x, y, hx, hy, by simpa using h3, by simp only [wU, hy]⟩

theorem served_of (s : State) (c : CmdMsg) (op n : Nat) (h : Delivered s c.hdr (wU s c.hdr)) (h1 : c.hdr.chan = 0)
    (h2 : cmdFormOk c n = true) (h3 : cmdGate (wU s c.hdr) op = none) : Served s c op n (wU s c.hdr) := ⟨h, h1, h2, h3⟩

/-- A COMMAND with arguments `l`. -/
def wCmd (l : List Byte) : CmdMsg := ⟨wHdr, 8 + l.length, 0, 5, l⟩

/-- A loaded job without content. -/
def wJob (p : Option Plan) : Job := ⟨1, false, 0, [], [], p, [], []⟩

/-- The session with a job. -/
def wSJ (p : Option Plan) : State := { wS with job := some (wJob p) }

/-- A plan of two steps. -/
def wPlan : Plan := ⟨0, 0, 4, 2, []⟩

/-- A whole upload of a bundle with one section to copy, of no bytes. -/
def wBundle (crc : Word) : Upload := ⟨none, 96, crc, ((List.range 96).zip ([52] ++ [90] ++ [1] ++ List.replicate 5 0 ++ [1] ++ [0, 0, 0] ++ [203] ++ [167] ++ [179] ++ [74] ++ [96] ++ List.replicate 47 0 ++ [1] ++ [0] ++ [255, 255] ++ List.replicate 28 0)).map (fun e => (e.1, e.2)), 5⟩

/-- The session with an open upload. -/
def wUp (x : Upload) : State := setMgmt wS { wS.mgmt with upload := some x }

/-- The session with the presence jumper set. -/
def wSP : State := setFlag wS 2 stSecurityJumper true

/-- A row of core 5 that waits for a spare, with `n` spares of its part in use. -/
def wRows (r : RowReq) (n : Nat) : State :=
  { wMem with health := { wMem.health with rowQ := [r], rowUsed := [(partUse r, n)] } }

theorem witness_HealthCompletes_spares : Obligations.HealthCompletes →
    completes (exec .coreBringIn { wMem with health := { wMem.health with coreQ := [⟨5, false⟩] } }) = true ∧
    completes (exec (.selfTestDone 9 true) { wMem with health := { wMem.health with coreRun := some (⟨5, false⟩, 9) } }) = true ∧
    completes (exec (.selfTestDone 9 true) { wMem with health := { wMem.health with coreRun := some (⟨5, true⟩, 9) } }) = true ∧
    completes (exec (.selfTestDone 9 false) { wMem with health := { wMem.health with coreRun := some (⟨5, true⟩, 9) } }) = true ∧
    completes (exec (.selfTestDone 9 false) { wMem with health := { wMem.health with coreRun := some (⟨5, false⟩, 9) } }) = true ∧
    completes (exec (.rowSpareReplace 5) (wRows ⟨5, true, 3, 7, false⟩ 4)) = true ∧
    completes (exec (.rowSpareReplace 5) (wRows ⟨5, true, 3, 7, false⟩ 3)) = true ∧
    completes (exec (.rowSpareReplace 5) (wRows ⟨5, false, 3, 7, true⟩ 8)) = true ∧
    completes (exec (.rowSpareReplace 5) (wRows ⟨5, false, 3, 7, true⟩ 7)) = true ∧
    completes (exec (.mgrWatchdog 17) wMem) = true ∧
    completes (exec (.mgrCacheUe 17) wMem) = true ∧
    completes (exec .mgrSpareStart { wMem with health := { wMem.health with mgrQ := [2] } }) = true ∧
    completes (exec (.coreHang 5) { setCore wMem 5 { abandonedAt := some 0, passes := [wPass true] } with time := 1000000 }) = true ∧
    completes (exec (.coreHang 5) { setCore wMem 5 { abandonedAt := some 0, asyncs := [wOp (.dmaBm 0 0 16) false none] } with time := 1000000 }) = true :=
  fun h => ⟨done (h.1.1 { wMem with health := { wMem.health with coreQ := [⟨5, false⟩] } } ⟨5, false⟩ [] (by decide) (by decide) (by decide)),
    done ((h.1.2.1 { wMem with health := { wMem.health with coreRun := some (⟨5, false⟩, 9) } } 9 ⟨5, false⟩ (by decide)).1 (by decide)),
    done ((h.1.2.1 { wMem with health := { wMem.health with coreRun := some (⟨5, true⟩, 9) } } 9 ⟨5, true⟩ (by decide)).2.1 (by decide)),
    done ((h.1.2.1 { wMem with health := { wMem.health with coreRun := some (⟨5, true⟩, 9) } } 9 ⟨5, true⟩ (by decide)).2.2.1 (by decide)),
    done ((h.1.2.1 { wMem with health := { wMem.health with coreRun := some (⟨5, false⟩, 9) } } 9 ⟨5, false⟩ (by decide)).2.2.2 (by decide)),
    done ((h.1.2.2.1 (wRows ⟨5, true, 3, 7, false⟩ 4) 5 ⟨5, true, 3, 7, false⟩ 4 2 (by decide) (by decide) (by decide) (.inl (by decide))).1 (by decide)),
    done ((h.1.2.2.1 (wRows ⟨5, true, 3, 7, false⟩ 3) 5 ⟨5, true, 3, 7, false⟩ 4 2 (by decide) (by decide) (by decide) (.inl (by decide))).2 (by decide)),
    done ((h.1.2.2.1 (wRows ⟨5, false, 3, 7, true⟩ 8) 5 ⟨5, false, 3, 7, true⟩ 8 3 (by decide) (by decide) (by decide) (.inr (by decide))).1 (by decide)),
    done ((h.1.2.2.1 (wRows ⟨5, false, 3, 7, true⟩ 7) 5 ⟨5, false, 3, 7, true⟩ 8 3 (by decide) (by decide) (by decide) (.inr (by decide))).2 (by decide)),
    done (h.1.2.2.2.1 wMem 17).1,
    done (h.1.2.2.2.1 wMem 17).2,
    done (h.1.2.2.2.2.1 { wMem with health := { wMem.health with mgrQ := [2] } } 2 16 [] [17] (by decide) (by decide)),
    done (h.1.2.2.2.2.2 { setCore wMem 5 { abandonedAt := some 0, passes := [wPass true] } with time := 1000000 } 5 0 (by decide) (by decide)
      (.inr (by decide)) (by decide)),
    done (h.1.2.2.2.2.2 { setCore wMem 5 { abandonedAt := some 0, asyncs := [wOp (.dmaBm 0 0 16) false none] } with time := 1000000 } 5 0
      (by decide) (by decide) (.inl (by decide)) (by decide))⟩

theorem witness_HealthCompletes : Obligations.HealthCompletes →
    completes (exec .healthTick (setFld { wMem with health := { wMem.health with riskArmed := false } } 9 fStore1RiskLevel 0)) = true ∧
    completes (exec .healthTick (setFld wMem 9 fStore1RiskLevel 200)) = true ∧
    completes (exec .healthTick (setFld wMem 9 fStore1RiskLevel 0)) = true ∧
    completes (exec .healthTick (setFld wMem 9 fStore1RiskLevel 32)) = true ∧
    completes (exec .downtimePersist wMem) = true ∧
    completes (exec .systemAreaPersist wMem) = true :=
  fun h => ⟨done ((h.2.1 (setFld { wMem with health := { wMem.health with riskArmed := false } } 9 fStore1RiskLevel 0)).1 (by decide) (by decide)),
    done ((h.2.1 (setFld wMem 9 fStore1RiskLevel 200)).2.1 (by decide)),
    done ((h.2.1 (setFld wMem 9 fStore1RiskLevel 0)).2.2.1 (by decide) (by decide)),
    done ((h.2.1 (setFld wMem 9 fStore1RiskLevel 32)).2.2.2 (by decide) (by decide)),
    (let ⟨_, e, _⟩ := h.2.2.1 wMem; done e),
    (let ⟨_, e, _⟩ := h.2.2.2 wMem; done e)⟩

theorem witness_SessionCompletes : Obligations.SessionCompletes →
    completes (exec (.openSession ⟨wPeer, 0, 8, 3⟩) wPort0) = true ∧
    completes (exec (.openSession ⟨wPeer, 0, 8, 3⟩) wS) = true ∧
    completes (exec (.openSession ⟨⟨0xFFFF * 2 ^ 80, 6⟩, 0, 8, 3⟩) wS) = true ∧
    completes (exec (.closeSession wHdr [0, 0, 0, 0]) wS) = true ∧
    completes (exec (.keepalive wHdr) wS) = true ∧
    completes (exec (.dataMsg { wHdr with chan := 1 } [0, 0, 0, 0, 0, 0, 0, 0, 9]) wS) = true ∧
    completes (exec (.datagramBad .fcs) wS) = true ∧
    completes (exec (.datagramBad .badType) wS) = true ∧
    completes (exec (.datagramBad (.channelSequenced wHdr)) wS) = true ∧
    completes (exec (.commandUnknown (wCmd []) 0x99) wS) = true ∧
    completes (exec .ackKeepalive (setMgmt { wS with time := 100000000000 } { wS.mgmt with session := some { wSess with ackOwed := some 0 } })) = true ∧
    completes (exec .keepaliveTx (setMgmt { wS with time := 100000000000 } { wS.mgmt with session := some wSess })) = true ∧
    completes (exec .sessionIdleTimeout (setMgmt { wS with time := 10000000000000 } { wS.mgmt with session := some wSess })) = true ∧
    completes (exec .sessionResend (setMgmt { wS with time := 100000000000 } { wS.mgmt with session := some { wSess with unacked := [{ msg := ⟨wPeer, 6, 7, 1, 0, 0, []⟩, last := 0, resends := 20, entries := [] }] } })) = true ∧
    completes (exec .sessionResend (setMgmt { wS with time := 100000000000 } { wS.mgmt with session := some { wSess with unacked := [{ msg := ⟨wPeer, 6, 7, 1, 0, 0, []⟩, last := 0, resends := 3, entries := [] }] } })) = true ∧
    completes (exec .telemetryTx (setMgmt { wS with time := 100000000000 } { wS.mgmt with session := some wSess, telemetry := 100 })) = true :=
  fun h => ⟨done ((h.1.1 wPort0 ⟨wPeer, 0, 8, 3⟩ (by decide) (by decide) (by decide)).1 (by decide)),
    done ((h.1.1 wS ⟨wPeer, 0, 8, 3⟩ (by decide) (by decide) (by decide)).2.1 wSess (by decide) (by decide)),
    done ((h.1.1 wS ⟨⟨0xFFFF * 2 ^ 80, 6⟩, 0, 8, 3⟩ (by decide) (by decide) (by decide)).2.2 wSess (by decide) (by decide)),
    done ((h.1.2.1 wS wHdr [0, 0, 0, 0] wSess (by decide) (by decide) (by decide)).1 (by decide)),
    done (h.1.2.1 wS wHdr [0, 0, 0, 0] wSess (by decide) (by decide) (by decide)).2,
    done (h.1.2.2.1 wS (wU wS { wHdr with chan := 1 }) { wHdr with chan := 1 } [0, 0, 0, 0, 0, 0, 0, 0, 9] (delivered_of wS { wHdr with chan := 1 } (by decide) (by decide) (by decide)) (.inl (by decide)) (by decide)),
    done (h.1.2.2.2.1 wS (by decide)),
    done (h.1.2.2.2.2.1 wS .badType (by decide) (by decide) (by intro k e; cases e)),
    done (h.1.2.2.2.2.2.1 wS (wU wS wHdr) wHdr (delivered_of wS wHdr (by decide) (by decide) (by decide))),
    done (h.1.2.2.2.2.2.2 wS (wU wS wHdr) (wCmd []) 0x99 (delivered_of wS wHdr (by decide) (by decide) (by decide)) (by decide)),
    done (h.2.1 (setMgmt { wS with time := 100000000000 } { wS.mgmt with session := some { wSess with ackOwed := some 0 } }) { wSess with ackOwed := some 0 } 0 (by decide) (by decide) (by decide)),
    done (h.2.2.1 (setMgmt { wS with time := 100000000000 } { wS.mgmt with session := some wSess }) wSess (by decide) (by decide)),
    done (h.2.2.2.1 (setMgmt { wS with time := 10000000000000 } { wS.mgmt with session := some wSess }) wSess (by decide) (by decide)),
    done ((h.2.2.2.2.1 (setMgmt { wS with time := 100000000000 } { wS.mgmt with session := some { wSess with unacked := [{ msg := ⟨wPeer, 6, 7, 1, 0, 0, []⟩, last := 0, resends := 20, entries := [] }] } }) { wSess with unacked := [{ msg := ⟨wPeer, 6, 7, 1, 0, 0, []⟩, last := 0, resends := 20, entries := [] }] } { msg := ⟨wPeer, 6, 7, 1, 0, 0, []⟩, last := 0, resends := 20, entries := [] } (by decide)).1 (by decide) (by decide) (by decide)),
    done ((h.2.2.2.2.1 (setMgmt { wS with time := 100000000000 } { wS.mgmt with session := some { wSess with unacked := [{ msg := ⟨wPeer, 6, 7, 1, 0, 0, []⟩, last := 0, resends := 3, entries := [] }] } }) { wSess with unacked := [{ msg := ⟨wPeer, 6, 7, 1, 0, 0, []⟩, last := 0, resends := 3, entries := [] }] } { msg := ⟨wPeer, 6, 7, 1, 0, 0, []⟩, last := 0, resends := 3, entries := [] } (by decide)).2 (by decide) (by decide) (by decide)),
    done (h.2.2.2.2.2 (setMgmt { wS with time := 100000000000 } { wS.mgmt with session := some wSess, telemetry := 100 }) wSess (by decide) (by decide) (by decide))⟩

theorem witness_AccessCommandsComplete : Obligations.AccessCommandsComplete →
    completes (exec (.getInfo (wCmd [])) wS) = true ∧
    completes (exec (.regRead (wCmd [0, 0, 4, 0])) wS) = true ∧
    completes (exec (.regWrite (wCmd [0, 0, 40, 0, 0, 0, 0, 0])) wS) = true ∧
    completes (exec (.regReadK (wCmd [0, 0, 4, 0])) wS) = true ∧
    completes (exec (.regWriteK (wCmd [0, 0, 40, 0, 0, 0, 0, 0])) wS) = true ∧
    completes (exec (.mbxRead (wCmd [4, 0, 255, 0])) wS) = true ∧
    completes (exec (.mbxRead (wCmd [4, 0, 242, 0])) wS) = true ∧
    completes (exec (.mbxWrite (wCmd ([4, 0] ++ [242, 0] ++ List.replicate 32 0))) wS) = true ∧
    completes (exec (.mbxReadK (wCmd [4, 0, 242, 0])) wS) = true ∧
    completes (exec (.mbxWriteK (wCmd ([4, 0] ++ [242, 0] ++ List.replicate 32 0))) wS) = true :=
  fun h => ⟨done (h.1 wS (wU wS wHdr) (wCmd []) (served_of wS (wCmd []) 1 0 (delivered_of wS wHdr (by decide) (by decide) (by decide)) (by decide) (by decide) (by decide))),
    done ((h.2.1 wS (wU wS wHdr) _ (wCmd [0, 0, 4, 0]) 0x100 (by decide)).1 (served_of wS (wCmd [0, 0, 4, 0]) 2 4 (delivered_of wS wHdr (by decide) (by decide) (by decide)) (by decide) (by decide) (by decide)) (pairOf (by decide))),
    done ((h.2.1 wS (wU wS wHdr) _ (wCmd [0, 0, 40, 0, 0, 0, 0, 0]) 0 (by decide)).2.1 (served_of wS (wCmd [0, 0, 40, 0, 0, 0, 0, 0]) 3 8 (delivered_of wS wHdr (by decide) (by decide) (by decide)) (by decide) (by decide) (by decide)) (pairOf (by decide))),
    done ((h.2.1 wS (wU wS wHdr) _ (wCmd [0, 0, 4, 0]) 0x100 (by decide)).2.2.1 (served_of wS (wCmd [0, 0, 4, 0]) 6 4 (delivered_of wS wHdr (by decide) (by decide) (by decide)) (by decide) (by decide) (by decide)) (by decide) (pairOf (by decide))),
    done ((h.2.1 wS (wU wS wHdr) _ (wCmd [0, 0, 40, 0, 0, 0, 0, 0]) 0 (by decide)).2.2.2 (served_of wS (wCmd [0, 0, 40, 0, 0, 0, 0, 0]) 7 8 (delivered_of wS wHdr (by decide) (by decide) (by decide)) (by decide) (by decide) (by decide)) (by decide) (.inl (by decide)) (pairOf (by decide))),
    done ((h.2.2 wS (wU wS wHdr) (wCmd [4, 0, 255, 0]) .power (by decide) (by decide)).1 (served_of wS (wCmd [4, 0, 255, 0]) 4 4 (delivered_of wS wHdr (by decide) (by decide) (by decide)) (by decide) (by decide) (by decide)) (by decide)),
    done ((h.2.2 wS (wU wS wHdr) (wCmd [4, 0, 242, 0]) .power (by decide) (by decide)).2.1 (served_of wS (wCmd [4, 0, 242, 0]) 4 4 (delivered_of wS wHdr (by decide) (by decide) (by decide)) (by decide) (by decide) (by decide)) (by decide) (by decide)),
    done ((h.2.2 wS (wU wS wHdr) (wCmd ([4, 0] ++ [242, 0] ++ List.replicate 32 0)) .power (by decide) (by decide)).2.2.1 (served_of wS (wCmd ([4, 0] ++ [242, 0] ++ List.replicate 32 0)) 5 36 (delivered_of wS wHdr (by decide) (by decide) (by decide)) (by decide) (by decide) (by decide))),
    done ((h.2.2 wS (wU wS wHdr) (wCmd [4, 0, 242, 0]) .power (by decide) (by decide)).2.2.2.1 (served_of wS (wCmd [4, 0, 242, 0]) 8 4 (delivered_of wS wHdr (by decide) (by decide) (by decide)) (by decide) (by decide) (by decide)) (by decide) (by decide) (by decide)),
    done ((h.2.2 wS (wU wS wHdr) (wCmd ([4, 0] ++ [242, 0] ++ List.replicate 32 0)) .power (by decide) (by decide)).2.2.2.2 (served_of wS (wCmd ([4, 0] ++ [242, 0] ++ List.replicate 32 0)) 9 36 (delivered_of wS wHdr (by decide) (by decide) (by decide)) (by decide) (by decide) (by decide)) (by decide) (.inl (by decide)))⟩

theorem witness_JobAndServiceCommandsComplete_jobs : Obligations.JobAndServiceCommandsComplete →
    completes (exec (.jobLoad (wCmd [96, 0, 0, 0, 0, 0, 0, 0, 5, 0, 0, 0])) wS) = true ∧
    completes (exec .bundleComplete (wUp (wBundle 0xf73b1b10))) = true ∧
    completes (exec .bundleComplete (wUp (wBundle 0))) = true ∧
    completes (exec (.jobStart (wCmd [0, 0, 0, 0])) (wSJ none)) = true ∧
    completes (exec (.jobStop (wCmd [])) (wSJ none)) = true :=
  fun h => ⟨done (h.1.1 wS (wU wS wHdr) (wCmd [96, 0, 0, 0, 0, 0, 0, 0, 5, 0, 0, 0]) (served_of wS (wCmd [96, 0, 0, 0, 0, 0, 0, 0, 5, 0, 0, 0]) 16 12 (delivered_of wS wHdr (by decide) (by decide) (by decide)) (by decide) (by decide) (by decide)) (by decide) (by decide) (by decide)),
    done ((h.1.2.1 (wUp (wBundle 0xf73b1b10)) (wBundle 0xf73b1b10) (by decide) (by decide) (by decide)).1 (by decide) (by decide)),
    done ((h.1.2.1 (wUp (wBundle 0)) (wBundle 0) (by decide) (by decide) (by decide)).2 (by decide)),
    done (h.1.2.2.1 (wSJ none) (wU (wSJ none) wHdr) (wCmd [0, 0, 0, 0]) (served_of (wSJ none) (wCmd [0, 0, 0, 0]) 17 4 (delivered_of (wSJ none) wHdr (by decide) (by decide) (by decide)) (by decide) (by decide) (by decide)) (by decide) (by decide) (by decide) (by decide) (by decide)),
    done (h.1.2.2.2.1 (wSJ none) (wU (wSJ none) wHdr) (wCmd []) (served_of (wSJ none) (wCmd []) 18 0 (delivered_of (wSJ none) wHdr (by decide) (by decide) (by decide)) (by decide) (by decide) (by decide)) (by decide))⟩

theorem witness_JobAndServiceCommandsComplete : Obligations.JobAndServiceCommandsComplete →
    completes (exec .planStep (setFlag { wSJ (some wPlan) with planNext := some 6 } 0 stManagerJobRunning true)) = true ∧
    completes (exec .planStep (setFlag { wSJ (some wPlan) with planNext := some 4 } 0 stManagerJobRunning true)) = true ∧
    completes (exec (.netConfig (wCmd [136, 19, 0, 0, 0, 0, 0, 0, 16, 0, 60, 0])) wS) = true ∧
    completes (exec (.telemetrySet (wCmd [100, 0, 0, 0])) wS) = true ∧
    completes (exec (.ingestOpen (wCmd [0, 16, 0, 0, 0, 0, 0, 0, 0, 16, 0, 0, 0, 0, 0, 0, 64, 0, 0, 0, 0, 0, 0, 0, 0, 0, 0, 0, 8, 0, 0, 0, 0, 0, 0, 0])) (wSJ none)) = true ∧
    completes (exec (.eventsFrom (wCmd [0, 0, 0, 0, 0, 0, 0, 0])) wS) = true :=
  fun h => ⟨done ((h.1.2.2.2.2 (setFlag { wSJ (some wPlan) with planNext := some 6 } 0 stManagerJobRunning true) 6 (wJob (some wPlan)) wPlan (by decide) (by decide) (by decide) (by decide) (by decide)).1 (by decide) (by decide)),
    done ((h.1.2.2.2.2 (setFlag { wSJ (some wPlan) with planNext := some 4 } 0 stManagerJobRunning true) 4 (wJob (some wPlan)) wPlan (by decide) (by decide) (by decide) (by decide) (by decide)).2 (.inr (by decide))),
    done (h.2.1 wS (wU wS wHdr) (wCmd [136, 19, 0, 0, 0, 0, 0, 0, 16, 0, 60, 0]) (served_of wS (wCmd [136, 19, 0, 0, 0, 0, 0, 0, 16, 0, 60, 0]) 19 12 (delivered_of wS wHdr (by decide) (by decide) (by decide)) (by decide) (by decide) (by decide)) (by decide)),
    done (h.2.2.1 wS (wU wS wHdr) (wCmd [100, 0, 0, 0]) (served_of wS (wCmd [100, 0, 0, 0]) 20 4 (delivered_of wS wHdr (by decide) (by decide) (by decide)) (by decide) (by decide) (by decide)) (.inr (by decide))),
    done (h.2.2.2.1 (wSJ none) (wU (wSJ none) wHdr) (wCmd [0, 16, 0, 0, 0, 0, 0, 0, 0, 16, 0, 0, 0, 0, 0, 0, 64, 0, 0, 0, 0, 0, 0, 0, 0, 0, 0, 0, 8, 0, 0, 0, 0, 0, 0, 0]) (served_of (wSJ none) (wCmd [0, 16, 0, 0, 0, 0, 0, 0, 0, 16, 0, 0, 0, 0, 0, 0, 64, 0, 0, 0, 0, 0, 0, 0, 0, 0, 0, 0, 8, 0, 0, 0, 0, 0, 0, 0]) 21 36 (delivered_of (wSJ none) wHdr (by decide) (by decide) (by decide)) (by decide) (by decide) (by decide)) (by decide) (by decide) (by decide) (by decide) (by decide) (by decide) (by decide) (by decide)),
    done (h.2.2.2.2 wS (wU wS wHdr) (wCmd [0, 0, 0, 0, 0, 0, 0, 0]) { (wU wS wHdr).mgmt.session.getD wSess with inSeq := ((wU wS wHdr).mgmt.session.getD wSess).inSeq } (served_of wS (wCmd [0, 0, 0, 0, 0, 0, 0, 0]) 22 8 (delivered_of wS wHdr (by decide) (by decide) (by decide)) (by decide) (by decide) (by decide)) (by decide))⟩

theorem witness_StateCommandsComplete : Obligations.StateCommandsComplete →
    completes (exec (.dieSleepCmd (wCmd [5, 0, 0, 0])) wS) = true ∧
    completes (exec (.dieWakeCmd (wCmd [5, 0, 0, 0]) []) wS) = true ∧
    completes (exec (.standbyCmd (wCmd [])) wS) = true ∧
    completes (exec (.wakeCmd (wCmd []) []) wS) = true ∧
    completes (exec (.reset (wCmd [0, 0, 0, 0])) wS) = true ∧
    completes (exec (.reset (wCmd [1, 0, 0, 0])) wS) = true ∧
    completes (exec (.exportCmd (wCmd [9, 0, 0, 0, 3, 0])) wS) = true ∧
    completes (exec (.importCmd (wCmd [9, 0, 0, 0, 3, 0])) wS) = true ∧
    completes (exec (.clutch (wCmd [0, 0, 0, 0])) (setFld wS 0x31 stMembershipJstate jsManager)) = true :=
  fun h => ⟨done ((h.1 wS (wU wS wHdr) (wCmd [5, 0, 0, 0]) [] (by decide) (by decide)).1 (served_of wS (wCmd [5, 0, 0, 0]) 32 4 (delivered_of wS wHdr (by decide) (by decide) (by decide)) (by decide) (by decide) (by decide)) (by decide)),
    done ((h.1 wS (wU wS wHdr) (wCmd [5, 0, 0, 0]) [] (by decide) (by decide)).2 (served_of wS (wCmd [5, 0, 0, 0]) 33 4 (delivered_of wS wHdr (by decide) (by decide) (by decide)) (by decide) (by decide) (by decide))),
    done (h.2.1 wS (wU wS wHdr) (wCmd []) (served_of wS (wCmd []) 34 0 (delivered_of wS wHdr (by decide) (by decide) (by decide)) (by decide) (by decide) (by decide)) (by decide)),
    done (h.2.2.1 wS (wU wS wHdr) (wCmd []) [] (served_of wS (wCmd []) 35 0 (delivered_of wS wHdr (by decide) (by decide) (by decide)) (by decide) (by decide) (by decide))),
    done ((h.2.2.2.1 wS (wU wS wHdr) (wCmd [0, 0, 0, 0]) (served_of wS (wCmd [0, 0, 0, 0]) 36 4 (delivered_of wS wHdr (by decide) (by decide) (by decide)) (by decide) (by decide) (by decide))).1 (by decide)),
    done ((h.2.2.2.1 wS (wU wS wHdr) (wCmd [1, 0, 0, 0]) (served_of wS (wCmd [1, 0, 0, 0]) 36 4 (delivered_of wS wHdr (by decide) (by decide) (by decide)) (by decide) (by decide) (by decide))).2 (by decide)),
    done ((h.2.2.2.2.1 wS (wU wS wHdr) (wCmd [9, 0, 0, 0, 3, 0]) (by decide) (by decide)).1 (served_of wS (wCmd [9, 0, 0, 0, 3, 0]) 48 6 (delivered_of wS wHdr (by decide) (by decide) (by decide)) (by decide) (by decide) (by decide))),
    done ((h.2.2.2.2.1 wS (wU wS wHdr) (wCmd [9, 0, 0, 0, 3, 0]) (by decide) (by decide)).2 (served_of wS (wCmd [9, 0, 0, 0, 3, 0]) 49 6 (delivered_of wS wHdr (by decide) (by decide) (by decide)) (by decide) (by decide) (by decide)) (by decide)),
    done (h.2.2.2.2.2 (setFld wS 0x31 stMembershipJstate jsManager) (wU (setFld wS 0x31 stMembershipJstate jsManager) wHdr) (wCmd [0, 0, 0, 0]) (served_of (setFld wS 0x31 stMembershipJstate jsManager) (wCmd [0, 0, 0, 0]) 50 4 (delivered_of (setFld wS 0x31 stMembershipJstate jsManager) wHdr (by decide) (by decide) (by decide)) (by decide) (by decide) (by decide)) (by decide) (by decide))⟩

theorem witness_SecurityCommandsComplete : Obligations.SecurityCommandsComplete →
    completes (exec (.attest (wCmd [0, 0, 0, 0, 0, 0, 0, 0, 0, 0, 0, 0, 0, 0, 0, 0, 0, 0, 0, 0, 0, 0, 0, 0, 0, 0, 0, 0, 0, 0, 0, 0])) wS) = true ∧
    completes (exec .quoteReady { wS with sec := { wS.sec with building := some ([1], 3) } }) = true ∧
    completes (exec (.quoteRead (wCmd [0, 0, 0, 0])) { wS with sec := { wS.sec with quote := [1] } }) = true ∧
    completes (exec (.certRead (wCmd [1, 0, 0, 0, 147, 12, 0, 0])) wS) = true ∧
    completes (exec (.imageBegin (wCmd [1, 0, 0, 0, 21, 12, 0, 0])) wSP) = true ∧
    completes (exec (.imageCommit (wCmd [1, 0, 0, 0, 0, 0, 0, 0])) (setMgmt wSP { wSP.mgmt with upload := some ⟨some 1, 0, 0, [], 0⟩ })) = true ∧
    completes (exec (.imageErase (wCmd [1, 0, 0, 0])) wSP) = true ∧
    completes (exec (.svnCommitCmd (wCmd [])) (setFld wSP 2 fSecuritySvnRunning 1)) = true ∧
    completes (exec (.presenceStatus (wCmd [])) wS) = true ∧
    completes (exec (.debugAccess (wCmd [17, 0, 0, 0, 0, 0, 0, 0, 0, 0, 0, 0, 0, 0, 0, 0, 0, 0, 0, 0, 0, 0, 0, 0])) (setFlag wSP 2 stSecurityDebugEn true)) = true ∧
    completes (exec (.debugAccess (wCmd [17, 0, 0, 0, 1, 0, 0, 0, 0, 0, 0, 0, 0, 0, 0, 0, 0, 0, 0, 0, 0, 0, 0, 0])) (setFlag wSP 2 stSecurityDebugEn true)) = true :=
  fun h => ⟨done (h.1.1 wS (wU wS wHdr) (wCmd [0, 0, 0, 0, 0, 0, 0, 0, 0, 0, 0, 0, 0, 0, 0, 0, 0, 0, 0, 0, 0, 0, 0, 0, 0, 0, 0, 0, 0, 0, 0, 0]) (served_of wS (wCmd [0, 0, 0, 0, 0, 0, 0, 0, 0, 0, 0, 0, 0, 0, 0, 0, 0, 0, 0, 0, 0, 0, 0, 0, 0, 0, 0, 0, 0, 0, 0, 0]) 64 32 (delivered_of wS wHdr (by decide) (by decide) (by decide)) (by decide) (by decide) (by decide)) (by decide)),
    done (h.1.2.1 { wS with sec := { wS.sec with building := some ([1], 3) } } [1] 3 (by decide)),
    done (h.1.2.2.1 { wS with sec := { wS.sec with quote := [1] } } (wU { wS with sec := { wS.sec with quote := [1] } } wHdr) (wCmd [0, 0, 0, 0]) (served_of { wS with sec := { wS.sec with quote := [1] } } (wCmd [0, 0, 0, 0]) 65 4 (delivered_of { wS with sec := { wS.sec with quote := [1] } } wHdr (by decide) (by decide) (by decide)) (by decide) (by decide) (by decide)) (by decide) (by decide)),
    done (h.1.2.2.2 wS (wU wS wHdr) (wCmd [1, 0, 0, 0, 147, 12, 0, 0]) (served_of wS (wCmd [1, 0, 0, 0, 147, 12, 0, 0]) 66 8 (delivered_of wS wHdr (by decide) (by decide) (by decide)) (by decide) (by decide) (by decide)) (by decide) (by decide)),
    done (h.2.1 wSP (wU wSP wHdr) (wCmd [1, 0, 0, 0, 21, 12, 0, 0]) (served_of wSP (wCmd [1, 0, 0, 0, 21, 12, 0, 0]) 67 8 (delivered_of wSP wHdr (by decide) (by decide) (by decide)) (by decide) (by decide) (by decide)) (by decide) (by decide) (by decide) (by decide) (by decide) (by decide) (by decide) (by decide)),
    done (h.2.2.1 (setMgmt wSP { wSP.mgmt with upload := some ⟨some 1, 0, 0, [], 0⟩ }) (wU (setMgmt wSP { wSP.mgmt with upload := some ⟨some 1, 0, 0, [], 0⟩ }) wHdr) (wCmd [1, 0, 0, 0, 0, 0, 0, 0]) ⟨some 1, 0, 0, [], 0⟩ (served_of (setMgmt wSP { wSP.mgmt with upload := some ⟨some 1, 0, 0, [], 0⟩ }) (wCmd [1, 0, 0, 0, 0, 0, 0, 0]) 68 8 (delivered_of (setMgmt wSP { wSP.mgmt with upload := some ⟨some 1, 0, 0, [], 0⟩ }) wHdr (by decide) (by decide) (by decide)) (by decide) (by decide) (by decide)) (by decide) (fun _ => (by decide)) (by decide) (by decide) rfl (by decide)),
    done (h.2.2.2.1 wSP (wU wSP wHdr) (wCmd [1, 0, 0, 0]) (served_of wSP (wCmd [1, 0, 0, 0]) 69 4 (delivered_of wSP wHdr (by decide) (by decide) (by decide)) (by decide) (by decide) (by decide)) (by decide) (by decide) (by decide) (by decide) (by decide) (by decide)),
    done (h.2.2.2.2.1 (setFld wSP 2 fSecuritySvnRunning 1) (wU (setFld wSP 2 fSecuritySvnRunning 1) wHdr) (wCmd []) (served_of (setFld wSP 2 fSecuritySvnRunning 1) (wCmd []) 70 0 (delivered_of (setFld wSP 2 fSecuritySvnRunning 1) wHdr (by decide) (by decide) (by decide)) (by decide) (by decide) (by decide)) (by decide) (by decide)),
    done (h.2.2.2.2.2.1 wS (wU wS wHdr) (wCmd []) (served_of wS (wCmd []) 71 0 (delivered_of wS wHdr (by decide) (by decide) (by decide)) (by decide) (by decide) (by decide))),
    done ((h.2.2.2.2.2.2 (setFlag wSP 2 stSecurityDebugEn true) (wU (setFlag wSP 2 stSecurityDebugEn true) wHdr) (wCmd [17, 0, 0, 0, 0, 0, 0, 0, 0, 0, 0, 0, 0, 0, 0, 0, 0, 0, 0, 0, 0, 0, 0, 0]) (served_of (setFlag wSP 2 stSecurityDebugEn true) (wCmd [17, 0, 0, 0, 0, 0, 0, 0, 0, 0, 0, 0, 0, 0, 0, 0, 0, 0, 0, 0, 0, 0, 0, 0]) 72 24 (delivered_of (setFlag wSP 2 stSecurityDebugEn true) wHdr (by decide) (by decide) (by decide)) (by decide) (by decide) (by decide)) (by decide) (by decide) (by decide)).1 (by decide)),
    done ((h.2.2.2.2.2.2 (setFlag wSP 2 stSecurityDebugEn true) (wU (setFlag wSP 2 stSecurityDebugEn true) wHdr) (wCmd [17, 0, 0, 0, 1, 0, 0, 0, 0, 0, 0, 0, 0, 0, 0, 0, 0, 0, 0, 0, 0, 0, 0, 0]) (served_of (setFlag wSP 2 stSecurityDebugEn true) (wCmd [17, 0, 0, 0, 1, 0, 0, 0, 0, 0, 0, 0, 0, 0, 0, 0, 0, 0, 0, 0, 0, 0, 0, 0]) 72 24 (delivered_of (setFlag wSP 2 stSecurityDebugEn true) wHdr (by decide) (by decide) (by decide)) (by decide) (by decide) (by decide)) (by decide) (by decide) (by decide)).2 (by decide))⟩

theorem witness_PresenceAndSideServicesComplete : Obligations.PresenceAndSideServicesComplete →
    completes (exec .presencePress wMem) = true ∧
    completes (exec .presenceExpiry { wMem with sec := { wMem.sec with pressUntil := some 1000 } }) = true ∧
    completes (exec (.pinSample ⟨false, false, false, true, 5000, 0⟩) wMem) = true ∧
    completes (exec .sealBreak { wMem with time := 20000000, sec := { wMem.sec with sealOpenSince := some 10000000 } }) = true ∧
    completes (exec .smbusRefresh wMem) = true ∧
    completes (exec (.smbusRead 0xB false false) wMem) = true ∧
    completes (exec (.smbusRead 0xFF true true) wMem) = true ∧
    completes (exec (.pcsBlockLock true) wMem) = true ∧
    completes (exec (.pcsBlockLock false) wMem) = true ∧
    completes (exec .mgmtLos wMem) = true ∧
    completes (exec (.icmpEcho (.arp 0)) (setFlag wPort0 0x11 fMgmtSessionIp4Dhcp false)) = true ∧
    completes (exec (.dhcpv4 5 24) (setFlag wPort0 0x11 fMgmtSessionIp4Dhcp true)) = true :=
  fun h => ⟨done (h.1.1 wMem (by decide)),
    done (h.1.2.1 { wMem with sec := { wMem.sec with pressUntil := some 1000 } } 1000 (by decide) (by decide)),
    (let ⟨_, _, e, _⟩ := h.1.2.2.1 wMem ⟨false, false, false, true, 5000, 0⟩; done e),
    done (h.1.2.2.2 { wMem with time := 20000000, sec := { wMem.sec with sealOpenSince := some 10000000 } } 10000000 (by decide) (by decide) (.inl (by decide))),
    done (h.2.1.1 wMem),
    done (h.2.1.2.1 wMem 0xB 32 true (by decide)),
    done (h.2.1.2.2.1 wMem 0xFF true),
    done (h.2.1.2.2.2.1 wMem (by decide)),
    done (h.2.1.2.2.2.2.1 wMem).1,
    done (h.2.1.2.2.2.2.1 wMem).2,
    done (h.2.1.2.2.2.2.2.1 (setFlag wPort0 0x11 fMgmtSessionIp4Dhcp false) (.arp 0) _ (by decide) rfl),
    done (h.2.1.2.2.2.2.2.2 (setFlag wPort0 0x11 fMgmtSessionIp4Dhcp true) 5 24 (by decide) (by decide))⟩

theorem witness_ResetEventsComplete : Obligations.ResetEventsComplete →
    completes (exec (.powerOn 0x7FF) wMem) = true ∧
    completes (exec (.resetLLow 1000) wMem) = true ∧
    completes (exec (.resetLLow 99) wMem) = true ∧
    completes (exec (.resetLRelease 0) { wMem with sys := { wMem.sys with resetLow := true } }) = true ∧
    completes (exec (.coreRelease []) (setFld { wMem with mem := { wMem.mem with filled := true, chans := (List.range 128).map (fun c => (c, { failed := true })) } } 0 stManagerModuleState msBooting)) = true ∧
    completes (exec (.wardNap 31) wMem) = true ∧
    completes (exec (.wardWake 31) (setDisp (setFlag wMem (pgWard 31) stWardNap true) 3 { store := [⟨4, wTask, 0, .at 0 0 0, 0, 0, 0, none⟩] })) = true :=
  fun h => ⟨done (h.1 wMem 0x7FF),
    done ((h.2.1 wMem 1000).1 (by decide)),
    done ((h.2.1 wMem 99).2 (by decide)),
    done (h.2.2.1 { wMem with sys := { wMem.sys with resetLow := true } } 0 (by decide) (by decide)),
    done (h.2.2.2.1 (setFld { wMem with mem := { wMem.mem with filled := true, chans := (List.range 128).map (fun c => (c, { failed := true })) } } 0 stManagerModuleState msBooting) [] (by decide) (by decide) (by decide)),
    done (h.2.2.2.2.1 wMem 31 (by decide) (by decide) (by decide) (by decide) (by decide)),
    done (h.2.2.2.2.2 (setDisp (setFlag wMem (pgWard 31) stWardNap true) 3 { store := [⟨4, wTask, 0, .at 0 0 0, 0, 0, 0, none⟩] }) 31 (by decide) (by decide))⟩

/-! ### The flash array -/

theorem leastBy_some (key : Nat → Nat) : ∀ l : List Nat, l ≠ [] → ∃ b, leastBy key l = some b ∧ b ∈ l ∧ ∀ c, c ∈ l → key b ≤ key c
  | [], h => absurd rfl h
  | b :: r, _ => by
    by_cases hr : r = []
    · subst hr; exact ⟨b, rfl, by simp, by simp⟩
    · obtain ⟨c, hc, hm, hle⟩ := leastBy_some key r hr
      by_cases hk : key b ≤ key c
      · refine ⟨b, by simp [leastBy, hc, hk], by simp, ?_⟩
        intro d hd
        cases List.mem_cons.1 hd with
        | inl e => rw [e]
        | inr e => exact le_trans hk (hle d e)
      · refine ⟨c, by simp [leastBy, hc, hk], List.mem_cons_of_mem _ hm, ?_⟩
        intro d hd
        cases List.mem_cons.1 hd with
        | inl e => rw [e]; omega
        | inr e => exact hle d e

theorem le_foldl_max (f : Nat → Nat) : ∀ (l : List Nat) (m : Nat), m ≤ l.foldl (fun m b => max m (f b)) m ∧
    ∀ b, b ∈ l → f b ≤ l.foldl (fun m b => max m (f b)) m
  | [], m => ⟨le_refl _, by simp⟩
  | a :: r, m => by
    obtain ⟨h1, h2⟩ := le_foldl_max f r (max m (f a))
    refine ⟨le_trans (le_max_left _ _) h1, ?_⟩
    intro b hb
    cases List.mem_cons.1 hb with
    | inl e => rw [e]; exact le_trans (le_max_right _ _) h1
    | inr e => exact h2 b e

/-- A unit of clutch 9 in block 5 of flash die 0, with block 7 erased 2,000 times. -/
def wFlash : State := setFlag { wMem with store := { wMem.store with
  units := [⟨9, 0, 0, 0, 0, 5, 0, [], false⟩], dies := [(0, { erases := [(7, 2000)] })] } } 8 fStore0RefreshEn true

theorem usable_wFlash (b : Nat) (h : b < 8944) : b ∈ usableBlocks (flashOf wFlash 0) := by
  have e : flashOf wFlash 0 = { erases := [(7, 2000)] } := by decide
  rw [e]
  simp [usableBlocks, mapHas, mapFind, h]

theorem free_wFlash (b : Nat) (h : b < 8944) (h5 : b ≠ 5) : b ∈ freeBlocks wFlash 0 := by
  have e : wFlash.store.units = [⟨9, 0, 0, 0, 0, 5, 0, [], false⟩] := by decide
  refine List.mem_filter.2 ⟨usable_wFlash b h, ?_⟩
  simp [blockUnits, e, Ne.symm h5]

theorem witness_FlashMaintenanceCompletes_refresh : Obligations.FlashMaintenanceCompletes →
    completes (exec (.flashRefresh 0 8944 (.age 4000)) wFlash) = true ∧
    completes (exec (.flashRefresh 0 5 (.corrected 61)) wFlash) = true ∧
    completes (exec (.blockRetire 0 5 .programOrErase true) wFlash) = true ∧
    completes (exec (.blockRetire 0 5 (.corrected 91) false) wFlash) = true ∧
    completes (exec (.blockRetire 0 7 .eraseCount true) (setFlash wFlash 0 { erases := [(7, 40000)] })) = true ∧
    completes (exec (.flashDieFail 7) wFlash) = true := by
  intro h
  obtain ⟨c, hc, _, _⟩ := leastBy_some (erasesOf (flashOf wFlash 0)) (freeBlocks wFlash 0)
    (List.ne_nil_of_mem (free_wFlash 0 (by decide) (by decide)))
  exact ⟨done ((h.1 wFlash 0 8944 (.age 4000) (by decide) (by decide) (by decide) (.inl ⟨4000, rfl, by decide⟩)).1 (by decide) (by decide)),
    done ((h.1 wFlash 0 5 (.corrected 61) (by decide) (by decide) (by decide) (.inr ⟨61, rfl, by decide⟩)).2 c (.inl (by decide))
      (by decide) hc),
    done ((h.2.2.1 wFlash 0 5 .programOrErase true (by decide) (by decide)).1 rfl),
    done ((h.2.2.1 wFlash 0 5 (.corrected 91) false (by decide) (by decide)).2.1 91 rfl (by decide)),
    done ((h.2.2.1 (setFlash wFlash 0 { erases := [(7, 40000)] }) 0 7 .eraseCount true (by decide) (by decide)).2.2 rfl (by decide)),
    done (h.2.2.2 wFlash 7 (by decide))⟩

theorem witness_FlashMaintenanceCompletes_wear : Obligations.FlashMaintenanceCompletes →
    completes (exec (.wearLevel 0) wFlash) = true := by
  intro h
  have e5 : 5 ∈ (usableBlocks (flashOf wFlash 0)).filter (fun b => !(blockUnits wFlash 0 b).isEmpty) :=
    List.mem_filter.2 ⟨usable_wFlash 5 (by decide), by decide⟩
  obtain ⟨b, hb, _, _⟩ := leastBy_some (erasesOf (flashOf wFlash 0)) _ (List.ne_nil_of_mem e5)
  obtain ⟨c, hc, _, _⟩ := leastBy_some (fun b => (usableBlocks (flashOf wFlash 0)).foldl (fun m b => max m (erasesOf (flashOf wFlash 0) b)) 0
    - erasesOf (flashOf wFlash 0) b) (freeBlocks wFlash 0) (List.ne_nil_of_mem (free_wFlash 0 (by decide) (by decide)))
  obtain ⟨l, hl, _, hm⟩ := leastBy_some (erasesOf (flashOf wFlash 0)) (usableBlocks (flashOf wFlash 0))
    (List.ne_nil_of_mem (usable_wFlash 0 (by decide)))
  have h0 := hm 0 (usable_wFlash 0 (by decide))
  have h7 := (le_foldl_max (erasesOf (flashOf wFlash 0)) (usableBlocks (flashOf wFlash 0)) 0).2 7 (usable_wFlash 7 (by decide))
  have e0 : erasesOf (flashOf wFlash 0) 0 = 0 := by decide
  have e7 : erasesOf (flashOf wFlash 0) 7 = 2000 := by decide
  exact done (h.2.1 wFlash 0 b c l hb hc hl (by decide) (by decide) (lt_of_lt_of_le (show erasesOf (flashOf wFlash 0) l + 1000 < 2000 by omega) (e7 ▸ h7)))

/-! ### Frames and invariants -/

/-- Core 0 about to store with register S1 at 64, and to add a constant. -/
def wStore (op : BitVec 8) : State := wState (wA op 2 1 0 0 0 0 0) {}

theorem witness_RegisterInstructionFrame : Obligations.RegisterInstructionFrame →
    exec (.nop 0) (wState 0 {}) = .next (tileAt (wState 0 {}) 0 (wTile {}) (advance {})) →
    (coreOf (tileAt (wState 0 {}) 0 (wTile {}) (advance {})) 0).oc = (coreOf (wState 0 {}) 0).oc :=
  fun h e => (h _ _ 0 (.nop 0) (by simp) e (by decide)).2.2.2.2.2.2.2.2.2.2.2.2.1

theorem witness_OutOfOrderMessagesDropped : Obligations.OutOfOrderMessagesDropped →
    completes (exec (.dataMsg { wHdr with seq := 2 } []) wS) = true :=
  fun h => done ((h wS { wHdr with seq := 2 } wSess { wSess with heard := 1000 } (by decide) (by decide) (by decide) (by decide)).1 []
    (by decide))

theorem witness_SignatureIndexUsedOnce : Obligations.SignatureIndexUsedOnce → (otsUse wMem).1 = 0 :=
  fun h => (h wMem (by decide) (by decide) (by decide) (by decide) (by decide) (by decide)).1

theorem witness_MemoryAccessFrame : Obligations.MemoryAccessFrame →
    ∀ t, exec (.memoryWrite 500 [1, 2] []) wMem = .next t → memByte t.mem 499 = memByte wMem.mem 499 :=
  fun h t e => (h.1 wMem t 500 [1, 2] [] e).1 499 (.inl (by decide))

theorem witness_MemoryFormKept : Obligations.MemoryFormKept →
    ∀ t, Sys2Proof.Machine.step { wMem with pending := [.memoryWrite 500 [1, 2] []] } = .next t → t.mem.wf = true :=
  fun h t e => h { wMem with pending := [.memoryWrite 500 [1, 2] []] } t (by decide) (.inr ⟨_, [], rfl, trivial⟩) e

theorem witness_AddressesShareNoByte : Obligations.AddressesShareNoByte → ∃ x, locate wMem 77 = some x ∧ (77 : Nat) = 77 :=
  fun h => match e : locate wMem 77 with
    | some x => ⟨x, rfl, h wMem 77 77 x x e e rfl rfl rfl rfl rfl⟩
    | none => absurd e (by decide)

theorem witness_StoreInstructionFrame : Obligations.StoreInstructionFrame →
    (∀ t, exec (.sst 0) (wState (wA 0x15 2 1 0 0 0 0 0) {}) = .next t → (coreOf t 0).tile ≠ none →
      t.mem = (wState (wA 0x15 2 1 0 0 0 0 0) {}).mem) ∧
    (∀ t, exec (.vst 0) (wState (wA 0x45 2 1 0 0 0 0 0) {}) = .next t → (coreOf t 0).tile ≠ none →
      t.mem = (wState (wA 0x45 2 1 0 0 0 0 0) {}).mem) :=
  fun h => ⟨fun t e n => (h.1 _ _ t 0 _ _ (runs_wState _ _ _ rfl (by decide) (by decide)) e n).2.1,
    fun t e n => (h.2 _ _ t 0 _ _ (runs_wState _ _ _ rfl (by decide) (by decide)) e n).2.2.1⟩

theorem witness_IntegerLanes : Obligations.IntegerLanes → completes (exec (.vop 0) (wState (wA 0x40 2 1 1 0 0 16 0) {})) = true ∧
    completes (exec (.vext 0) (wState (wA 0x47 2 1 1 0 0 0 0) {})) = true :=
  fun h => ⟨done (h.2.1 _ _ 0 _ _ (runs_wState _ _ _ rfl (by decide) (by decide)) (by decide) (fits_of (by decide))),
    done (h.2.2 _ _ 0 _ _ (runs_wState _ _ _ rfl (by decide) (by decide)) (fits_of (by decide)))⟩

theorem witness_Bi4Elements : Obligations.Bi4Elements → ∀ (q : QDesc) (x : NoiseSite) (c : BitVec 4), q.bi4 = true →
    c ∈ (quantBlock q x 0 []).codes → -7 ≤ c.toInt := fun h q x c hq hc => (h.2 q x 0 [] hq c hc).1


theorem witness_WardNapOnlyIdle : Obligations.PresenceAndSideServicesComplete →
    ∀ t, exec (.wardNap 31) wMem = .next t → flag t (pgWard (31 : WardId)) stWardNap = true →
      ∀ g, g ∈ wardCores (31 : WardId) → (coreOf wMem g).passes = [] :=
  fun h t e f g hg => (h.2.2 wMem t 31 e (by decide) f g hg).1

/-! ### Clauses of one shape with clauses above -/

theorem witness_ScalarInstructionsComplete_rest : Obligations.ScalarInstructionsComplete →
    completes (exec (.nop 0) (wState 0 {})) = true ∧
    completes (exec (.addi 0) (wState (wL 0x11 1 2 0 0xFFFFFFFFFF) {})) = true ∧
    completes (exec (.lih 0) (wState (wL 0x12 1 0 0 0xFFFFFF) {})) = true ∧
    completes (exec (.time 0) (wState (wA 0x18 1 0 0 0 0 0 0) {})) = true :=
  fun h => ⟨done (h.1 _ _ 0 _ _ (runs_wState _ _ _ rfl (by decide) (by decide)) (fits_of (by decide))), done (h.2.2.1 _ _ 0 _ _ (runs_wState _ _ _ rfl (by decide) (by decide)) (fits_of (by decide))), done (h.2.2.2.1 _ _ 0 _ _ (runs_wState _ _ _ rfl (by decide) (by decide)) (fits_of (by decide))),
    done (h.2.2.2.2.1 _ _ 0 _ _ (runs_wState _ _ _ rfl (by decide) (by decide)) (fits_of (by decide)))⟩

theorem witness_VectorInstructionsComplete_rest : Obligations.VectorInstructionsComplete →
    completes (exec (.vsel 0) (wState (wA 0x42 1 2 3 0 1 0 0) {})) = true ∧
    completes (exec (.vcurve 0) (wState (wA 0x43 1 2 0 0 0 0 0) {})) = true :=
  fun h => ⟨done (h.1.2.1 _ _ 0 _ _ (runs_wState _ _ _ rfl (by decide) (by decide)) (fits_of (by decide))), done (h.2.1.2.1 _ _ 0 _ _ (runs_wState _ _ _ rfl (by decide) (by decide)) (fits_of (by decide)))⟩

theorem witness_AccessesComplete_stage : Obligations.AccessesComplete →
    completes (exec (.mailboxStage (.u 0) 0x68 0x50) wReady) = true :=
  fun h => done (h.1.2.2.2.2 wReady (.u 0) 0x68 .dispatcher 0x50 false (by decide) ⟨by decide, by decide, by decide⟩).2.2

end Sys2Proof.Tests
end

