-- ==== Sys2Proof/Tests/Slice0.lean ====
section
/-!
SUPPORT. The model's own tests: an ill-formed command for each check of WellFormed, tile words written out bit by bit, and the manual's
worked examples (their expected results are the manual's).
-/

namespace Sys2Proof.Tests

open Sys2Proof Sys2Proof.Machine

set_option maxRecDepth 100000

/-! ### Ill-formed commands -/

/-- A packet of one unit whose payload did not arrive. -/
def tShort : Packet := ⟨1, 5, 1, 8, 1, 0, 0, 0, 0, 0, true, []⟩

/-- What stands on eight lanes. -/
def tEight : LaneWord := List.replicate 8 []

theorem test_wf_accessWidth : Instr.wf (.registerWrite (.k 0) 0 12 0) = false ∧ Instr.wf (.rcRead (.k 0) 0 64) = false ∧
    Instr.wf (.rcRead (.k 0) 0 32) = true := by decide

theorem test_wf_unmappedPage : Instr.wf (.voteScan 7) = false ∧ Instr.wf (.mailboxRead (.k 0) 0x5C0 1 false) = false ∧
    Instr.wf (.eventNotify 0x5BF) = true := by decide

theorem test_wf_packetLength : Instr.wf (.rdReq tShort) = false ∧ Instr.wf (.rdReq { tShort with len := 0 }) = true := by decide

theorem test_wf_laneWord : Instr.wf (.dataFrame 0 tEight) = false ∧ Instr.wf (.idleFrame 0 (List.replicate 9 [])) = true ∧
    Instr.wf (.frameDiscard 0 (List.replicate 545 0 :: tEight)) = false := by decide

theorem test_wf_partnerShares : Instr.wf (.paramFrame 0 ⟨5, 3, [16, 16, 16], 0⟩) = false := by decide

theorem test_wf_upsets : Instr.wf (.memoryRead 0 4 [⟨0, 0, 8192, 1⟩]) = false ∧ Instr.wf (.memoryRead 0 4 [⟨0, 0, 8191, 0⟩]) = false := by decide

theorem test_wf_emptyAccess : Instr.wf (.memoryRead 0 0 []) = false ∧ Instr.wf (.memoryWrite 0 [] []) = false := by decide

theorem test_wf_alignMap : Instr.wf (.alignDone 0 (List.replicate 9 0)) = false := by decide

theorem test_wf_laneWindow : Instr.wf (.laneWindow 0 []) = false := by decide

theorem test_wf_marginWindow : Instr.wf (.marginWindow (.ward 0) []) = false := by decide

theorem test_wf_sensorPass : Instr.wf (.sensorPass 0 []) = false := by decide

theorem test_wf_payload : Instr.wf (.dataMsg wHdr (List.replicate 1409 0)) = false := by decide

theorem test_wf_open : Instr.wf (.openSession ⟨wPeer, 0, 1409, 0⟩) = false := by decide

theorem test_wf_command : Instr.wf (.getInfo ⟨wHdr, 9, 0, 5, []⟩) = false ∧ Instr.wf (.getInfo (wCmd [])) = true := by decide

theorem test_wf_opcode : Instr.wf (.commandUnknown (wCmd []) 0x49) = true ∧ Instr.wf (.commandUnknown (wCmd []) 0x48) = false := by decide

theorem test_wf_echo : Instr.wf (.icmpEcho (.echo4 0 (List.replicate 1473 0))) = false := by decide

theorem test_wf_prefix : Instr.wf (.dhcpv4 0 33) = false := by decide

theorem test_wf_failedCores : Instr.wf (.coreRelease [1, 1]) = false := by decide

/-! ### Tile words, bit by bit (R140, R142, R143) -/

/-- LI S3, -2: opcode 0x10, D = 3, the rest of the register fields 0, forty bits of immediate. -/
theorem test_word_li : decodeTile 0b0001000000011000000000001111111111111111111111111111111111111110#64 =
    .fmtL 0x10 3 0 0 0xFFFFFFFFFE := by decide

/-- LOOP S2, S1, 14: opcode 0x03, D = 2, A = 1, IMM = 14. -/
theorem test_word_loop : decodeTile 0b0000001100010000010000000000000000000000000000000000000000001110#64 =
    .fmtA 0x03 2 1 0 0 0 0 0 14 := by decide

/-- SST S5, S6 + 8 with width code 3: opcode 0x15, D = 5, A = 6, FN in bits 45 to 40. -/
theorem test_word_sst : decodeTile 0b0001010100101001100000110000000000000000000000000000000000001000#64 =
    .fmtL 0x15 5 6 3 8 := by decide

/-- VOP V1, V2, V3, V4 by FN 3 under M7 with MZ: opcode 0x40. -/
theorem test_word_vop : decodeTile 0b0100000000001000100001100100111100000011000000000000000000000000#64 =
    .fmtA 0x40 1 2 3 4 7 1 3 0 := by decide

/-- ACCRD V31, S1 + 0x1000 that clears the valid bits: opcode 0x32, FN 1. -/
theorem test_word_accrd : decodeTile 0b0011001011111000010000000000000000000001000000000001000000000000#64 =
    .fmtA 0x32 31 1 0 0 0 0 1 0x1000 := by decide

/-- WAITT S1, S2: opcode 0x61. Opcode 0x62 is reserved. -/
theorem test_word_waitt : decodeTile 0b0110000100001000100000000000000000000000000000000000000000000000#64 =
    .fmtA 0x61 1 2 0 0 0 0 0 0 ∧ (decodeTile (0b01100010#8 ++ 0#56)).legal = false := by decide

/-! ### Worked examples of the manual -/

/-- 02_registers.md: global core 1,000 has register page 0x4E8; it is core 88 of W3. -/
theorem test_core1000_page : pgCore 1000 = 0x4E8 ∧ coreDie 1000 = 3 ∧ 1000 - 304 * coreDie 1000 = 88 := by decide

/-- 08_memory.md: address 0x0E1_2345_6789 lies in channel 68, page 37,282, granule 5, word 49, byte 1. -/
theorem test_address_example : (locate wMem 0x0E123456789).map (fun l => (l.chan, l.page, l.gran, l.word, l.byte)) =
    some (68, 37282, 5, 49, 1) := by decide

/-- 07_dispatch_bell.md: ward 3 of W1 may take tasks from 15,511,478,825,998 under a ramp of eight steps of 250 ticks. -/
theorem test_ramp_example : rampTime 15511478825248 3 250 1 3 = 15511478825998 := by decide

/-- 03_formats.md: the block of the quantisation example, its outlier already taken out: scale 0x40 and these codes. -/
theorem test_quant_example :
    (quantBlock ⟨0x3F800000, 0x42200000, false, false, 1, 0, 0⟩ ⟨⟨0, 0, 0, 0⟩, 0, 0⟩ 0
      [0x40466666, 0xBF333333, 0x41400000, 0x3E4CCCCD, 0xC0BCCCCD, 0x3FB33333, 0x00000000, 0x40F33333, 0xC0100000, 0x3F666666, 0x00000000, 0x408CCCCD, 0xC1300000, 0x3E99999A, 0x40C00000, 0xBFE66666]).scale = 0x40 ∧
    (quantBlock ⟨0x3F800000, 0x42200000, false, false, 1, 0, 0⟩ ⟨⟨0, 0, 0, 0⟩, 0, 0⟩ 0
      [0x40466666, 0xBF333333, 0x41400000, 0x3E4CCCCD, 0xC0BCCCCD, 0x3FB33333, 0x00000000, 0x40F33333, 0xC0100000, 0x3F666666, 0x00000000, 0x408CCCCD, 0xC1300000, 0x3E99999A, 0x40C00000, 0xBFE66666]).codes =
      [0x3, 0x9, 0x7, 0x0, 0xD, 0x1, 0x0, 0x6, 0xA, 0x1, 0x0, 0x4, 0xF, 0x0, 0x5, 0xA] := by decide

/-- 03_formats.md: the dot product worked to the bit: the pair sum is 3.75, and the accumulate under RNE gives 16,777,224. -/
theorem test_dot_example :
    (let a : Half := ⟨[0x3, 0x9, 0x7, 0x0, 0xD, 0x1, 0x0, 0x6, 0xA, 0x1, 0x0, 0x4, 0xF, 0x0, 0x5, 0xA].map decodeE2m1, 0x40, false⟩
     let b : Half := ⟨((List.range 16).map (fun i => BitVec.ofNat 4 (0x3A410792260A5124 / 16 ^ i))).map decodeE2m1, 0x30, false⟩
     let z : Half := ⟨List.replicate 16 (decodeE2m1 0), 0, false⟩
     let p := pairSum .rne (halfSum .block a b) (halfSum .block z z)
     p = some 0x40700000 ∧ accumulate .rne false (.fin false 2 0) 0x4B800000 0x40700000 = 0x4B800004) := by decide

/-- 17_startup.md: the host's REG_READ of BUDGET, SEQ 5, is answered with SEQ 10, ACK 5 and 1,300 W (the example's
word has FREQ_MAX of the same word at 0). -/
def tBudget : State :=
  setFld (setMgmt wPort0 { wPort0.mgmt with session := some { wSess with id := 0x3C11, inSeq := 4, outSeq := 9 } }) 4 fPowerFreqMax 0

theorem test_budget_example :
    (match exec (.regRead ⟨⟨wPeer, 0x3C11, 5, 9, 0⟩, 12, 0, 0x77, [4, 0, 0, 1]⟩) tBudget with
      | .next t => t.mgmt.wire.map (fun m => (m.session, m.seq, m.ack, m.chan, m.payload))
      | _ => []) = [(0x3C11, 10, 5, 0, [0x02, 0, 0, 0, 0x77, 0, 0, 0, 0x14, 0x05, 0, 0])] := by decide

/-- 18_security.md: after the power loss the next index is 409,536 and H rises to 409,600 without a fuse. -/
def tOts : State :=
  fuseFld (fuseFld (setSec wMem { wMem.sec with otsHigh := 409536 }) 2 fSecurityOtsNext 409511) 2 fSecurityOtsFuses 100

theorem test_ots_example : (otsUse (otsBoot tOts)).1 = 409536 ∧ (otsUse (otsBoot tOts)).2.sec.otsHigh = 409600 ∧
    fld (otsUse (otsBoot tOts)).2 2 fSecurityOtsFuses = 100 := by decide

/-- The raise to 409,664 blows fuse 100 first. -/
theorem test_ots_fuse_example :
    (let s := otsUse (otsBoot (setSec tOts { tOts.sec with otsHigh := 409600 }))
     s.1 = 409600 ∧ fld s.2 2 fSecurityOtsFuses = 101 ∧ s.2.sec.otsHigh = 409664) := by decide

/-- 16_reliability.md: a score of 20,480 decays to 20,440, two crossings and a shed phase bring the risk to 223. -/
theorem test_risk_example :
    (match exec .healthTick { wMem with health := { wMem.health with scores := [(1, 20480)], cur := [(9, 2), (10, 1)] } } with
      | .next t => (fld t 6 fHealthRisk, mapGet (fun _ => 0) 1 t.health.scores)
      | _ => (0, 0)) = (223, 20440) := by decide

/-- CRC-32 of the nine digits (IEEE 802.3, the CRC that R530 names). -/
theorem test_crc32 : crc32 [0x31, 0x32, 0x33, 0x34, 0x35, 0x36, 0x37, 0x38, 0x39] = 0xCBF43926 := by decide

/-- The generator polynomial of RS(544,514), lowest degree first, without its leading 1 (IEEE 802.3 clause 91, the code that R252 names). -/
theorem test_rs_generator : rsGenerator = [523, 834, 128, 158, 185, 127, 392, 193, 610, 788, 361, 883, 503, 942, 385, 495, 720, 94, 132, 593,
    249, 282, 565, 108, 1, 552, 230, 187, 552, 575] := by decide +kernel

/-- SHA-256 of the three bytes of the standard's first example (FIPS 180-4). -/
theorem test_sha256 : (sha256Bytes [0x61, 0x62, 0x63]).take 4 = [0xBA, 0x78, 0x16, 0xBF] := by decide

end Sys2Proof.Tests
end

section
/-!
The register window (R4, R32): the place of every field in an aligned 32-bit word, and the bus error that answers an access of any other
width or alignment. The window lies above bulk memory and above the operand-cache windows, so an access that is no register access
finds nothing else at its address.
-/

namespace Sys2Proof.Machine

/-! ### Where the fields of a page lie -/

/-- The field stands at an aligned offset and inside the 32 bits of its word. -/
def fieldInWord (f : FieldDef) : Bool := decide (f.off % 4 = 0 ∧ f.lo + f.width ≤ 32)

/-- The header that every page shares (R39). -/
theorem fieldsCommon_inWord : fieldsCommon.all fieldInWord = true := by decide

/-- The tables of the chapters, block by block. -/
theorem blockFields_inWord (b : Block) : (blockFields b).all fieldInWord = true := by cases b <;> decide

theorem pageFields_inWord {b : Block} {f : FieldDef} (hf : f ∈ pageFields b) : f.off % 4 = 0 ∧ f.lo + f.width ≤ 32 := by
  have hall : (pageFields b).all fieldInWord = true := by
    rw [pageFields, List.all_append, fieldsCommon_inWord, blockFields_inWord, Bool.and_self]
  exact of_decide_eq_true (List.all_eq_true.mp hall f hf)

/-! ### The two commands that carry an address -/

theorem exec_registerWrite (m : Master) (a : BitVec 44) (width : Nat) (v : BitVec 32) (s : State) :
    exec (.registerWrite m a width v) s = .next (addrWrite s m a.toNat width v.toNat) := rfl

theorem exec_rcRead (m : Master) (a : BitVec 44) (width : Nat) (s : State) :
    exec (.rcRead m a width) s = .next (addrRead s m a.toNat width) := rfl

/-! ### What a register-window address reaches -/

theorem regAddr_eq_none_of_misfit {a width : Nat} (h : width ≠ 32 ∨ a % 4 ≠ 0) : regAddr a width = none :=
  if_neg fun ⟨_, _, hw, ha⟩ => h.elim (· hw) (· ha)

/-- The operand-cache windows end below the register window. -/
theorem ocAddr_eq_none_of_regBase_le {a : Nat} (h : regBase ≤ a) (s : State) (n : Nat) : ocAddr s a n = none := by
  have hout : ¬ (ocBase ≤ a ∧ a < ocBase + 1216 * 0x200000) := by
    simp only [regBase, ocBase] at h ⊢
    omega
  exact if_neg hout

/-- Bulk memory ends below the register window. -/
theorem inBulk_eq_false_of_regBase_le {a : Nat} (h : regBase ≤ a) : inBulk a = false :=
  decide_eq_false (Nat.not_lt.mpr (le_trans (by decide : bulkEnd ≤ regBase) h))

/-! ### An access of the window that is no register access -/

theorem addrWrite_misfit {a width : Nat} (ha : regBase ≤ a) (h : width ≠ 32 ∨ a % 4 ≠ 0) (s : State) (m : Master) (value : Nat) :
    addrWrite s m a width value = busError s m a true := by
  simp [addrWrite, regAddr_eq_none_of_misfit h, ocAddr_eq_none_of_regBase_le ha, inBulk_eq_false_of_regBase_le ha]

theorem addrRead_misfit {a width : Nat} (ha : regBase ≤ a) (h : width ≠ 32 ∨ a % 4 ≠ 0) (s : State) (m : Master) :
    addrRead s m a width = busError s m a false := by
  simp [addrRead, regAddr_eq_none_of_misfit h, ocAddr_eq_none_of_regBase_le ha, inBulk_eq_false_of_regBase_le ha]

/-- Settles O5: each field's place is read off the tables; a misfit access is no register access, and its address is neither an operand
cache's nor in bulk memory, so the bus error is all that is left. -/
theorem registerWindowWidth : Obligations.RegisterWindowWidth := by
  refine ⟨fun b f hf => pageFields_inWord hf, fun s m a width v hlo _ hmisfit => ⟨?_, ?_⟩⟩
  · rw [exec_registerWrite, addrWrite_misfit hlo hmisfit]
  · rw [exec_rcRead, addrRead_misfit hlo hmisfit]

end Sys2Proof.Machine
end

section
/-!
Fields of a register word: a field reads back what was put into it, cut to its width, and no other field of the page changes (R4, R7).
-/

namespace Sys2Proof.Machine

/-! ### Bits of a word -/

/-- The three parts of a word into which a value was inserted: the bits below it, the value, and the bits above it. -/
theorem insertBits_eq (w lo width v : Nat) :
    insertBits w lo width v = w % 2 ^ lo + 2 ^ lo * (v % 2 ^ width + 2 ^ width * (w / 2 ^ (lo + width))) := by
  have hlow := Nat.mod_add_div w (2 ^ lo)
  have hhigh := Nat.mod_add_div (w / 2 ^ lo) (2 ^ width)
  rw [Nat.div_div_eq_div_mul, ← Nat.pow_add] at hhigh
  simp only [insertBits, bitsOf]
  generalize w / 2 ^ lo % 2 ^ width = old at hhigh ⊢
  rw [← hhigh] at hlow
  have hw : w = w % 2 ^ lo + 2 ^ lo * (2 ^ width * (w / 2 ^ (lo + width))) + old * 2 ^ lo := by
    calc w = w % 2 ^ lo + 2 ^ lo * (old + 2 ^ width * (w / 2 ^ (lo + width))) := hlow.symm
      _ = _ := by ring
  calc w - old * 2 ^ lo + v % 2 ^ width * 2 ^ lo
      = w % 2 ^ lo + 2 ^ lo * (2 ^ width * (w / 2 ^ (lo + width))) + v % 2 ^ width * 2 ^ lo := by
        rw [Nat.sub_eq_of_eq_add hw]
    _ = _ := by ring

/-- Bits within the low `k` of a number depend on those alone. -/
theorem bitsOf_mod_two_pow {lo width k : Nat} (h : lo + width ≤ k) (x : Nat) : bitsOf (x % 2 ^ k) lo width = bitsOf x lo width := by
  simp only [bitsOf, ← Nat.mod_mul_right_div_self, ← Nat.pow_add, Nat.mod_mod_of_dvd _ (Nat.pow_dvd_pow 2 h)]

theorem bitsOf_insertBits_same (w lo width v : Nat) : bitsOf (insertBits w lo width v) lo width = v % 2 ^ width := by
  rw [insertBits_eq, bitsOf, Nat.add_mul_div_left _ _ (Nat.two_pow_pos lo), Nat.div_eq_of_lt (Nat.mod_lt _ (Nat.two_pow_pos lo)),
    Nat.zero_add, Nat.add_mul_mod_self_left, Nat.mod_mod]

theorem insertBits_mod_low (w lo width v : Nat) : insertBits w lo width v % 2 ^ lo = w % 2 ^ lo := by
  rw [insertBits_eq, Nat.add_mul_mod_self_left, Nat.mod_mod]

theorem insertBits_div_high (w lo width v : Nat) : insertBits w lo width v / 2 ^ (lo + width) = w / 2 ^ (lo + width) := by
  rw [insertBits_eq, Nat.pow_add, ← Nat.div_div_eq_div_mul, Nat.add_mul_div_left _ _ (Nat.two_pow_pos lo),
    Nat.div_eq_of_lt (Nat.mod_lt _ (Nat.two_pow_pos lo)), Nat.zero_add, Nat.add_mul_div_left _ _ (Nat.two_pow_pos width),
    Nat.div_eq_of_lt (Nat.mod_lt _ (Nat.two_pow_pos width)), Nat.zero_add]

/-- Bits below or above an inserted value read as before. -/
theorem bitsOf_insertBits_disjoint {lo width lo' width' : Nat} (h : lo' + width' ≤ lo ∨ lo + width ≤ lo') (w v : Nat) :
    bitsOf (insertBits w lo width v) lo' width' = bitsOf w lo' width' := by
  rcases h with hbelow | habove
  · rw [← bitsOf_mod_two_pow hbelow, insertBits_mod_low, bitsOf_mod_two_pow hbelow]
  · obtain ⟨k, rfl⟩ := Nat.exists_eq_add_of_le habove
    simp only [bitsOf, Nat.pow_add 2 (lo + width) k, ← Nat.div_div_eq_div_mul, insertBits_div_high]

/-! ### Fields of a page -/

theorem fld_setFld_same {f : FieldDef} (h : f.lo + f.width ≤ 32) (s : State) (page v : Nat) :
    fld (setFld s page f v) page f = v % 2 ^ f.width := by
  rw [fld, setFld, regWord_setRegWord_same, BitVec.toNat_ofNat, bitsOf_mod_two_pow h, bitsOf_insertBits_same]

/-- A field of other bits of the same word reads as before. -/
theorem fld_setFld_disjoint {f g : FieldDef} (hg : g.lo + g.width ≤ 32) (hoff : g.off = f.off)
    (h : g.lo + g.width ≤ f.lo ∨ f.lo + f.width ≤ g.lo) (s : State) (page v : Nat) : fld (setFld s page f v) page g = fld s page g := by
  rw [fld, fld, setFld, hoff, regWord_setRegWord_same, BitVec.toNat_ofNat, bitsOf_mod_two_pow hg, bitsOf_insertBits_disjoint h]

/-- A flag is read from its word alone. -/
theorem flag_eq_of_regWord_eq {s t : State} {page : Nat} {f : FieldDef} (h : regWord t page f.off = regWord s page f.off) :
    flag t page f = flag s page f := by
  have hfld : fld t page f = fld s page f := by rw [fld, fld, h]
  unfold flag
  rw [hfld]

end Sys2Proof.Machine
end

section
/-!
The mailbox of a page (R47 to R53): which operation a write of MBX_SEL starts, what its status shows, and what an operation that a guard
refuses leaves.
-/

namespace Sys2Proof.Machine

theorem RegsOnly.trans {s t u : State} (hst : RegsOnly s t) (htu : RegsOnly t u) : RegsOnly s u := by
  unfold RegsOnly at *
  rw [htu, hst]

theorem regsOnly_raise (s : State) (page bit : Nat) : RegsOnly s (raise s page bit) := rfl

theorem accepted_eq_of_regsOnly {s u : State} (h : RegsOnly s u) :
    accepted u = { s with regs := (accepted u).regs, mailbox := (accepted u).mailbox, resp := .done } :=
  congrArg accepted h

/-- The answer to an access is no register. -/
@[simp] theorem regWord_accepted (s : State) (page off : Nat) : regWord (accepted s) page off = regWord s page off := rfl

/-- The buffers of a mailbox are no registers. -/
@[simp] theorem regWord_setMailbox (s : State) (page q off : Nat) (x : Mailbox) : regWord (setMailbox s page x) q off = regWord s q off := rfl

/-! ### The write of MBX_SEL -/

/-- A write of MBX_SEL that is served starts the operation that its bits name. -/
theorem rowWrite_mbxSel {s : State} {m : Master} {page : Nat} {b : Block} (hb : pageBlock page = some b)
    (hr : reaches m page = true) (hs : pageServed s page = true) (value : Nat) :
    rowWrite s m page 0xE0 value = accepted (mailboxOp s m b page (value % 2 ^ 16) (value.testBit 16) (value.testBit 31)) := by
  simp [rowWrite, regPut, accepted, hb, hr, hs]

/-- The fields of MBX_SEL are apart: VALUE_ID, PART and WRITE read back from the word that joins them. -/
theorem mbxSel_fields (vid : BitVec 16) (part write : Bool) :
    let sel := vid.toNat + write.toNat * 2 ^ 31 + part.toNat * 2 ^ 16
    sel % 2 ^ 16 = vid.toNat ∧ sel.testBit 16 = part ∧ sel.testBit 31 = write := by
  intro sel
  have hvid := vid.isLt
  have hpart := part.toNat_le
  have hwrite := write.toNat_le
  have hbit16 : sel / 2 ^ 16 % 2 = part.toNat := by omega
  have hbit31 : sel / 2 ^ 31 % 2 = write.toNat := by omega
  refine ⟨by omega, ?_, ?_⟩
  · rw [Nat.testBit_eq_decide_div_mod_eq, hbit16]
    simp only [Bool.toNat_eq_one, Bool.decide_eq_true]
  · rw [Nat.testBit_eq_decide_div_mod_eq, hbit31]
    simp only [Bool.toNat_eq_one, Bool.decide_eq_true]

section Served

variable {s : State} {m : Master} {p : BitVec 12} {b : Block}
  (hb : pageBlock p.toNat = some b) (hr : reaches m p.toNat = true) (hs : pageServed s p.toNat = true)

include hb hr hs

theorem exec_mailboxRead (vid : BitVec 16) (part : Bool) :
    exec (.mailboxRead m p vid part) s = .next (accepted (mailboxOp s m b p.toNat vid.toNat part false)) := by
  obtain ⟨hvid, hpart, hwrite⟩ := mbxSel_fields vid part false
  have hexec : exec (.mailboxRead m p vid part) s =
      .next (rowWrite s m p.toNat 0xE0 (vid.toNat + false.toNat * 2 ^ 31 + part.toNat * 2 ^ 16)) := by cases part <;> rfl
  rw [hexec, rowWrite_mbxSel hb hr hs, hvid, hpart, hwrite]

theorem exec_mailboxWrite (vid : BitVec 16) :
    exec (.mailboxWrite m p vid) s = .next (accepted (mailboxOp s m b p.toNat vid.toNat false true)) := by
  obtain ⟨hvid, hpart, hwrite⟩ := mbxSel_fields vid false true
  have hexec : exec (.mailboxWrite m p vid) s =
      .next (rowWrite s m p.toNat 0xE0 (vid.toNat + true.toNat * 2 ^ 31 + false.toNat * 2 ^ 16)) := rfl
  rw [hexec, rowWrite_mbxSel hb hr hs, hvid, hpart, hwrite]

theorem exec_mailboxStage (vid : BitVec 16) :
    exec (.mailboxStage m p vid) s = .next (accepted (mailboxOp s m b p.toNat vid.toNat true true)) := by
  obtain ⟨hvid, hpart, hwrite⟩ := mbxSel_fields vid true true
  have hexec : exec (.mailboxStage m p vid) s =
      .next (rowWrite s m p.toNat 0xE0 (vid.toNat + true.toNat * 2 ^ 31 + true.toNat * 2 ^ 16)) := rfl
  rw [hexec, rowWrite_mbxSel hb hr hs, hvid, hpart, hwrite]

end Served

/-! ### The status of an operation -/

theorem flag_valid_setMbxStat (s : State) (page vid words : Nat) (err : Bool) :
    flag (setMbxStat s page vid words err) page fCommonValid = true := by
  simp (disch := decide) only [flag, setMbxStat, setFlag, fld_setFld_disjoint, fld_setFld_same]
  rfl

theorem flag_err_setMbxStat (s : State) (page vid words : Nat) (err : Bool) :
    flag (setMbxStat s page vid words err) page fCommonErr = err := by
  simp (disch := decide) only [flag, setMbxStat, setFlag, fld_setFld_disjoint, fld_setFld_same]
  cases err <;> rfl

/-- MBX_STAT is none of the data words. -/
theorem regWord_mbxStat_setMbxWords (s : State) (page : Nat) (l : List Nat) : regWord (setMbxWords s page l) page 0xE4 = regWord s page 0xE4 := by
  have hne (i : Nat) : regKey page 0xE4 ≠ regKey page (mbxData i) := by unfold regKey mbxData; omega
  simp only [setMbxWords, List.range_succ, List.range_zero, List.nil_append, List.cons_append, List.foldl_cons, List.foldl_nil,
    regWord_setRegWord_other (hne _)]

/-! ### An operation that a guard refuses -/

/-- The state in which an operation on the value `d` has named it and shown its status (R48). -/
def mbxOpened (s : State) (page : Nat) (d : WideDef) (part : Bool) : State :=
  setMbxStat (setFlag (setFld s page fCommonValueId d.vid) page fCommonPart part) page d.vid d.words false

/-- A refused operation as it ends: GUARD_DENIED is raised and the snapshot is gone; a read shows zeros. -/
def mbxRefused (s : State) (page : Nat) (d : WideDef) (part write : Bool) : State :=
  let u := setMailbox (raise (mbxOpened s page d part) page evCommonGuardDenied) page { mailboxOf s page with snap := none }
  if write then u else setMbxWords u page []

theorem mailboxOp_refused {s : State} {m : Master} {b : Block} {page : Nat} {d : WideDef} {part write : Bool}
    (hd : (blockWides b).find? (fun x => x.vid == d.vid) = some d) (hm : mayAccess s m d.grd = false)
    (hpart : part = true → 6 < d.words) (hwrite : write = true → d.acc = .rw) :
    mailboxOp s m b page d.vid part write = mbxRefused s page d part write := by
  have hwritable : (write && d.acc != .rw) = false := by
    cases write with
    | false => rfl
    | true => rw [hwrite rfl]; rfl
  have hlong : (part && decide (d.words ≤ 6)) = false := by
    cases part with
    | false => rfl
    | true => exact decide_eq_false (Nat.not_le.mpr (hpart rfl))
  have hguard := (mbxOnly_opened page s d.vid d.words part false).mayAccess_eq m d.grd
  rw [hm] at hguard
  simp only [mailboxOp, hd, hwritable, hlong, Bool.or_self, hguard, guardDenied, mbxRefused, mbxOpened, Bool.false_eq_true, if_false,
    Bool.not_false, if_true]

/-- Nothing that follows the event in a refused operation leaves the mailbox. -/
theorem mbxOnly_mbxRefused (s : State) (page : Nat) (d : WideDef) (part write : Bool) :
    MbxOnly page (raise (mbxOpened s page d part) page evCommonGuardDenied) (mbxRefused s page d part write) := by
  have hbox := mbxOnly_setMailbox page (raise (mbxOpened s page d part) page evCommonGuardDenied) { mailboxOf s page with snap := none }
  unfold mbxRefused
  cases write with
  | true => exact hbox
  | false => exact hbox.trans (mbxOnly_setMbxWords page _ [])

theorem regWord_mbxStat_mbxRefused (s : State) (page : Nat) (d : WideDef) (part write : Bool) :
    regWord (mbxRefused s page d part write) page 0xE4 = regWord (mbxOpened s page d part) page 0xE4 := by
  have hraise : regWord (raise (mbxOpened s page d part) page evCommonGuardDenied) page 0xE4 = regWord (mbxOpened s page d part) page 0xE4 :=
    regWord_setRegWord_other (by unfold regKey; omega) _ _
  unfold mbxRefused
  cases write with
  | true => rw [if_pos rfl, regWord_setMailbox, hraise]
  | false => rw [if_neg Bool.false_ne_true, regWord_mbxStat_setMbxWords, regWord_setMailbox, hraise]

theorem mbxWord_mbxRefused_read (s : State) (page : Nat) (d : WideDef) (part : Bool) {i : Nat} (hi : i < 6) :
    mbxWord (accepted (mbxRefused s page d part false)) page i = 0 := by
  rw [mbxWord, regWord_accepted, ← mbxWord]
  simp only [mbxRefused, Bool.false_eq_true, if_false, mbxWord_setMbxWords _ page [] i hi, List.getD_nil, Nat.zero_mod]

/-- `t` is left by a mailbox operation in `s` that a guard refused (R53): complete without an error, GUARD_DENIED raised, all else but
the page's mailbox registers as before. -/
def MbxDenied (page : Nat) (s t : State) : Prop :=
  flag t page fCommonValid = true ∧ flag t page fCommonErr = false ∧
  regWord t page 0x24 = (regWord s page 0x24 ||| BitVec.ofNat 32 (2 ^ evCommonGuardDenied)) ∧
  t = { s with regs := t.regs, mailbox := t.mailbox, resp := .done } ∧
  ∀ q o, q < 4096 → o < 4096 → (q ≠ page ∨ (o ≠ 0x24 ∧ (o < 0xE0 ∨ 0x100 ≤ o))) → regWord t q o = regWord s q o

theorem mbxDenied_mbxRefused (s : State) (page : Nat) (d : WideDef) (part write : Bool) :
    MbxDenied page s (accepted (mbxRefused s page d part write)) := by
  obtain ⟨hopenRest, hopenWords⟩ : MbxOnly page s (mbxOpened s page d part) := mbxOnly_opened page s d.vid d.words part false
  obtain ⟨hendRest, hendWords⟩ := mbxOnly_mbxRefused s page d part write
  have hstat : regWord (accepted (mbxRefused s page d part write)) page 0xE4 = regWord (mbxOpened s page d part) page 0xE4 :=
    (regWord_accepted _ page 0xE4).trans (regWord_mbxStat_mbxRefused s page d part write)
  refine ⟨?valid, ?noErr, ?event, ?rest, ?frame⟩
  case valid =>
    exact (flag_eq_of_regWord_eq hstat).trans (flag_valid_setMbxStat _ page d.vid d.words false)
  case noErr =>
    exact (flag_eq_of_regWord_eq hstat).trans (flag_err_setMbxStat _ page d.vid d.words false)
  case event =>
    rw [regWord_accepted]
    calc regWord (mbxRefused s page d part write) page 0x24
        = regWord (raise (mbxOpened s page d part) page evCommonGuardDenied) page 0x24 := hendWords page 0x24 (by decide) (.inr (by decide))
      _ = (regWord (mbxOpened s page d part) page 0x24 ||| BitVec.ofNat 32 (2 ^ evCommonGuardDenied)) := regWord_setRegWord_same ..
      _ = _ := by rw [hopenWords page 0x24 (by decide) (.inr (by decide))]
  case rest =>
    exact accepted_eq_of_regsOnly ((hopenRest.trans (regsOnly_raise _ page evCommonGuardDenied)).trans hendRest)
  case frame =>
    intro q o _ ho hout
    have hmbx : q ≠ page ∨ o < 0xE0 ∨ 0x100 ≤ o := hout.imp_right And.right
    have hevent : regKey q o ≠ regKey page 0x24 := fun he => by
      obtain ⟨hq, ho⟩ := regKey_inj (by decide) ho he
      exact hout.elim (· hq) (·.1 ho)
    rw [regWord_accepted]
    calc regWord (mbxRefused s page d part write) q o
        = regWord (raise (mbxOpened s page d part) page evCommonGuardDenied) q o := hendWords q o ho hmbx
      _ = regWord (mbxOpened s page d part) q o := regWord_setRegWord_other hevent _ _
      _ = regWord s q o := hopenWords q o ho hmbx

/-- Settles O8: each of the three commands is one write of MBX_SEL, and the operation that it starts ends refused. -/
theorem guardedMailboxValues : Obligations.GuardedMailboxValues := by
  intro s m p b d hb hr hs hd hvid hm
  have hid : (BitVec.ofNat 16 d.vid).toNat = d.vid := by rw [BitVec.toNat_ofNat, Nat.mod_eq_of_lt hvid]
  have hdenied (part write : Bool) := mbxDenied_mbxRefused s p.toNat d part write
  refine ⟨fun part hpart => ⟨_, ?read, hdenied part false, fun i hi => mbxWord_mbxRefused_read s p.toNat d part hi⟩,
    fun hrw => ⟨_, ?write, hdenied false true⟩, fun hrw hw => ⟨_, ?stage, hdenied true true⟩⟩
  case read => rw [exec_mailboxRead hb hr hs, hid, mailboxOp_refused hd hm hpart (absurd · Bool.false_ne_true)]
  case write => rw [exec_mailboxWrite hb hr hs, hid, mailboxOp_refused hd hm (absurd · Bool.false_ne_true) fun _ => hrw]
  case stage => rw [exec_mailboxStage hb hr hs, hid, mailboxOp_refused hd hm (fun _ => hw) fun _ => hrw]

end Sys2Proof.Machine
end

section
/-!
The operand-cache windows (R32, R33): one of 2 MiB for each core, of which the first 1.5 MiB hold the core's cache.
-/

namespace Sys2Proof.Machine

/-! ### What an address of a window reaches -/

/-- Address `o` of the window of core `g`. -/
def ocWindow (g : CoreId) (o : Nat) : Nat := ocBase + 0x200000 * g.val + o

/-- The windows end below the register window. -/
theorem ocWindow_lt_regBase (g : CoreId) {o : Nat} (ho : o < 0x200000) : ocWindow g o < regBase := by
  have hg := g.isLt
  simp only [ocWindow, ocBase, regBase]
  omega

theorem ocWindow_toNat (g : CoreId) {o : Nat} (ho : o < 0x200000) :
    (BitVec.ofNat 44 (0x80000000000 + 0x200000 * g.val + o)).toNat = ocWindow g o :=
  (BitVec.toNat_ofNat ..).trans (Nat.mod_eq_of_lt (lt_trans (ocWindow_lt_regBase g ho) (by decide)))

theorem regAddr_eq_none_of_lt_regBase {a : Nat} (h : a < regBase) (width : Nat) : regAddr a width = none :=
  if_neg fun ⟨hlo, _⟩ => absurd hlo (Nat.not_le.mpr h)

/-- The windows begin above bulk memory. -/
theorem inBulk_ocWindow (g : CoreId) (o : Nat) : inBulk (ocWindow g o) = false := by
  have hle : bulkEnd ≤ ocBase := by decide
  exact decide_eq_false (Nat.not_lt.mpr (by unfold ocWindow; omega))

/-- An address of a window names its core and the offset in it; the cache is there below 0x180000 while the core has power. -/
theorem ocAddr_ocWindow (s : State) (g : CoreId) {o : Nat} (ho : o < 0x200000) (n : Nat) :
    ocAddr s (ocWindow g o) n =
      if o + n ≤ 0x180000 ∧ dieAwake s (coreDie g) = true ∧ modState s ≠ msStandby then some (g.val, o) else none := by
  have hg := g.isLt
  have hin : ocBase ≤ ocWindow g o ∧ ocWindow g o < ocBase + 1216 * 0x200000 := by simp only [ocWindow]; omega
  have hcore : (ocWindow g o - ocBase) / 0x200000 = g.val := by simp only [ocWindow]; omega
  have hoff : (ocWindow g o - ocBase) % 0x200000 = o := by simp only [ocWindow]; omega
  simp only [ocAddr, if_pos hin, hcore, hoff]

/-! ### Accesses of 1, 2 and 4 bytes -/

section Access

variable {s : State} {m : Master} {a n : Nat} (hm : isTile m = false) (hn : n = 1 ∨ n = 2 ∨ n = 4) (ha : a < regBase)

include hm hn

/-- An access of 1, 2 or 4 bytes by a master other than a tile goes on to the address (R33, R38). -/
theorem not_tile_or_missized : ¬ (isTile m = true ∨ n = 0 ∨ 4 < n) := by
  simp only [hm, Bool.false_eq_true, false_or]
  omega

include ha

theorem addrWrite_oc {g o : Nat} (hoc : ocAddr s a n = some (g, o)) (value : Nat) :
    addrWrite s m a (8 * n) value = accepted (setCore s g (ocWrite (coreOf s g) o (leBytes n value))) := by
  simp only [addrWrite, regAddr_eq_none_of_lt_regBase ha, Nat.mul_div_cancel_left n (by decide : 0 < 8),
    if_neg (not_tile_or_missized hm hn), hoc, accepted]

theorem addrRead_oc {g o : Nat} (hoc : ocAddr s a n = some (g, o)) :
    addrRead s m a (8 * n) = { meetOc s g o n with resp := .bytes (ocRead (coreOf s g) o n) } := by
  simp only [addrRead, regAddr_eq_none_of_lt_regBase ha, Nat.mul_div_cancel_left n (by decide : 0 < 8),
    if_neg (not_tile_or_missized hm hn), hoc]

theorem addrWrite_unmapped (hoc : ocAddr s a n = none) (hbulk : inBulk a = false) (value : Nat) :
    addrWrite s m a (8 * n) value = busError s m a true := by
  simp only [addrWrite, regAddr_eq_none_of_lt_regBase ha, Nat.mul_div_cancel_left n (by decide : 0 < 8),
    if_neg (not_tile_or_missized hm hn), hoc, hbulk, Bool.false_and, Bool.false_eq_true, if_false]

theorem addrRead_unmapped (hoc : ocAddr s a n = none) (hbulk : inBulk a = false) : addrRead s m a (8 * n) = busError s m a false := by
  simp only [addrRead, regAddr_eq_none_of_lt_regBase ha, Nat.mul_div_cancel_left n (by decide : 0 < 8),
    if_neg (not_tile_or_missized hm hn), hoc, hbulk, Bool.false_and, Bool.false_eq_true, if_false]

end Access

/-- Settles O10: the address of a window is no register's and none of bulk memory, so the window's own bound and the core's power decide
between the cache and the bus error. -/
theorem operandCacheWindow : Obligations.OperandCacheWindow := by
  intro s m g o n v hm hn hend
  have ho : o < 0x200000 := by omega
  have ha := ocWindow_lt_regBase g ho
  have hoc := ocAddr_ocWindow s g ho n
  simp only [exec_registerWrite, exec_rcRead, ocWindow_toNat g ho]
  refine ⟨fun hcache hawake hstate => ?_, fun hbeyond => ?_⟩
  · rw [if_pos ⟨hcache, hawake, hstate⟩] at hoc
    exact ⟨congrArg _ (addrRead_oc hm hn ha hoc), congrArg _ (addrWrite_oc hm hn ha hoc v.toNat)⟩
  · rw [if_neg fun ⟨hcache, _⟩ => absurd hcache (Nat.not_le.mpr hbeyond)] at hoc
    have hbulk := inBulk_ocWindow g o
    exact ⟨congrArg _ (addrRead_unmapped hm hn ha hoc hbulk), congrArg _ (addrWrite_unmapped hm hn ha hoc hbulk v.toNat)⟩

end Sys2Proof.Machine
end

section
/-!
BI4, the 4-bit integer element (R65): what its codes decode to, and which of them the quantiser writes. The quantiser clamps a rounded
magnitude to 7 (R79) and writes it in two's complement under its sign, so the code of -8 is never written.
-/

namespace Sys2Proof.Machine

/-! ### Decoding -/

theorem decodeBi4_eq (b : BitVec 4) : decodeBi4 b = .fin (decide (b.toInt < 0)) b.toInt.natAbs 0 := by
  rw [← BitVec.msb_eq_toInt]
  rfl

/-! ### The codes that the quantiser writes -/

/-- A format whose overflow code is no greater than its largest finite one gives no code past that. -/
theorem limitCode_le {f : Fmt} (h : f.overCode ≤ f.maxCode) (c : Nat) : limitCode f c ≤ f.maxCode := by
  unfold limitCode
  split
  · exact h
  · omega

/-- A magnitude of 3 bits under a sign, in two's complement. -/
theorem toInt_bi4_signMag (neg : Bool) {c : Nat} (hc : c ≤ 7) :
    (BitVec.ofNat 4 (if neg then 16 - c else c)).toInt = if neg then -(c : Int) else c := by
  rw [BitVec.toInt_eq_toNat_cond, BitVec.toNat_ofNat]
  cases neg
  case false => simp only [Bool.false_eq_true, if_false]; omega
  case true => simp only [if_true]; omega

theorem quantElem_bi4_bounds {q : QDesc} (hq : q.bi4 = true) (rnd : Rnd) (mant : Nat) (exp : Int) (x : Word) :
    -7 ≤ (quantElem q rnd mant exp x).toInt ∧ (quantElem q rnd mant exp x).toInt ≤ 7 := by
  simp only [quantElem, hq, if_true]
  split
  case h_1 neg m e _ mt et _ _ =>
    have hc : limitCode fmtInt4 (magCode fmtInt4 rnd m (mant * mt) (e - exp - et)) ≤ 7 := limitCode_le (by decide) _
    split
    · decide
    · rw [toInt_bi4_signMag neg hc]
      split <;> omega
  case h_2 => decide

/-- A code of a quantised block is 0, as all are where the block has no finite scale, or the code of one of its elements (R79). -/
theorem mem_quantBlock_codes {q : QDesc} {site : NoiseSite} {j : Nat} {xs : List Word} {c : BitVec 4}
    (hc : c ∈ (quantBlock q site j xs).codes) : c = 0 ∨ ∃ rnd mant exp, ∃ x ∈ xs, c = quantElem q rnd mant exp x := by
  unfold quantBlock at hc
  split at hc
  · exact .inl (List.eq_of_mem_replicate hc)
  · dsimp only at hc
    split at hc
    · split at hc
      · obtain ⟨x, hx, rfl⟩ := List.mem_map.mp hc
        exact .inr ⟨_, _, _, _, List.fst_mem_of_mem_zipIdx hx, rfl⟩
      · exact .inl (List.eq_of_mem_replicate hc)
    · exact .inl (List.eq_of_mem_replicate hc)

/-- Settles O14: the quantiser's codes are the element codes, whose magnitude is clamped to 7, and 0. -/
theorem bi4Elements : Obligations.Bi4Elements := by
  refine ⟨fun b => ⟨decodeBi4_eq b, BitVec.le_toInt b, Int.le_of_lt_add_one (BitVec.toInt_lt (x := b))⟩, fun q site j xs hq c hc => ?_⟩
  obtain rfl | ⟨rnd, mant, exp, x, -, rfl⟩ := mem_quantBlock_codes hc
  · decide
  · exact quantElem_bi4_bounds hq rnd mant exp x

end Sys2Proof.Machine
end

section
/-!
Integer lanes (R165): what each integer code of VOP makes of a lane, as arithmetic on naturals and integers, and what VOP and VEXT leave
of a tile. An integer code counts nothing, since only the FP32 codes below 8 are counted (R89).
-/

namespace Sys2Proof.Machine

/-! ### The lanes of the integer codes -/

section Lanes
variable (a b c : Vec) (i : Nat)

theorem vopLane_iadd_toNat : (vopLane 16 a b c i).toNat = ((lane a i).toNat + (lane b i).toNat) % 2 ^ 32 :=
  BitVec.toNat_add _ _

theorem vopLane_isub_toNat : (vopLane 17 a b c i).toNat = (2 ^ 32 - (lane b i).toNat + (lane a i).toNat) % 2 ^ 32 :=
  BitVec.toNat_sub _ _

/-- IMUL: the low 32 bits of the product. -/
theorem vopLane_imul_toNat : (vopLane 18 a b c i).toNat = (lane a i).toNat * (lane b i).toNat % 2 ^ 32 :=
  BitVec.toNat_mul _ _

/-- The shift to the left by five bits of Vb is a multiplication by a power of two modulo 2^32. -/
theorem vopLane_shl_toNat : (vopLane 22 a b c i).toNat = (lane a i).toNat * 2 ^ ((lane b i).toNat % 32) % 2 ^ 32 := by
  have hlane : vopLane 22 a b c i = lane a i <<< ((lane b i).toNat % 32) := rfl
  rw [hlane, BitVec.toNat_shiftLeft, Nat.shiftLeft_eq]

/-- The logical shift to the right by five bits of Vb is a division of the unsigned value. -/
theorem vopLane_shr_toNat : (vopLane 23 a b c i).toNat = (lane a i).toNat / 2 ^ ((lane b i).toNat % 32) := by
  have hlane : vopLane 23 a b c i = lane a i >>> ((lane b i).toNat % 32) := rfl
  rw [hlane, BitVec.toNat_ushiftRight, Nat.shiftRight_eq_div_pow]

/-- The arithmetic shift to the right by five bits of Vb is a division of the signed value, rounded down. -/
theorem vopLane_sar_toInt : (vopLane 24 a b c i).toInt = (lane a i).toInt / 2 ^ ((lane b i).toNat % 32) := by
  have hlane : vopLane 24 a b c i = (lane a i).sshiftRight ((lane b i).toNat % 32) := rfl
  rw [hlane, BitVec.toInt_sshiftRight, Int.shiftRight_eq_div_pow]
  norm_cast

/-- PERM: six bits of its index name the lane. -/
theorem vopLane_perm : vopLane 34 a b c i = lane a ((lane b i).toNat % 64) := rfl

end Lanes

/-! ### What VOP and VEXT leave of a tile -/

/-- The lanes that a VOP computes from the registers of a tile, before MK and MZ choose among them. -/
def vopValue (x : Ctx) (f : TileFields) : Vec := vecOf (vopLane f.fn (getV x f.a) (getV x f.b) (getV x f.c))

/-- VOP writes Vd under MK and MZ; an FP32 code also counts the selected lanes that are not finite (R89, R163). -/
theorem completes_vop : Completes .vop 0x40
    (fun s g t f => if vopIsFp f.fn then addCounts s g (countFp32s (selLanes (getM t.ctx f.mask) (vopValue t.ctx f))) else s)
    (fun _ _ t f => putV t.ctx f.d (maskVec (getM t.ctx f.mask) f.mz (getV t.ctx f.d) (lane (vopValue t.ctx f)))) :=
  completes_of_issue fun _ _ => rfl

/-- VEXT writes Sd with the lane that six bits of Sb name, zero-extended (R142). -/
theorem completesReg_vext : CompletesReg .vext 0x47
    (fun _ _ t f => putS t.ctx f.d ((lane (getV t.ctx f.a) ((getS t.ctx f.b).toNat % 64)).zeroExtend 64)) :=
  completes_of_issue fun _ _ => rfl

theorem vopIsFp_eq_false_of_integer {fn : Nat} (h : 16 ≤ fn) : vopIsFp fn = false :=
  decide_eq_false (by omega)

/-- Settles O13: the lanes are 32-bit words, and an integer code of VOP skips the count of values that are not finite. -/
theorem integerLanes : Obligations.IntegerLanes := by
  refine ⟨fun a b c i => ⟨vopLane_iadd_toNat a b c i, vopLane_isub_toNat a b c i, vopLane_imul_toNat a b c i, vopLane_shl_toNat a b c i,
    vopLane_shr_toNat a b c i, vopLane_sar_toInt a b c i, vopLane_perm a b c i⟩, ?vop, completesReg_vext⟩
  case vop =>
    intro s0 s g t i hruns hint f x hfits
    have hvop := completes_vop s0 s g t i hruns hfits
    simp only [vopIsFp_eq_false_of_integer hint, Bool.false_eq_true, if_false] at hvop
    exact hvop

end Sys2Proof.Machine
end

section
/-!
A step and the word of a tile instruction: a step with nothing queued is one tick (R202), and the fields of a tile word and the word are two
readings of the same 64 bits (R140).
-/

namespace Sys2Proof.Machine

/-! ### Steps -/

/-- Settles O1: a step with a queue is, by its definition, the front command on the rest. -/
theorem stepRunsFront : Obligations.StepRunsFront := fun _ _ _ => rfl

/-- What a tick changes: the time by at most two counts, by one count unless it is a multiple of 5,000, and the state of the slewing. -/
theorem tick_eq (s : State) : ∃ (k : Nat) (n : Net), tick s = { s with time := s.time + BitVec.ofNat 64 k, net := n } ∧ k ≤ 2 ∧
    (now s % 5000 ≠ 0 → k = 1) := by
  simp only [tick, now]
  split
  · exact ⟨1, s.net, rfl, by decide, fun _ => rfl⟩
  next hslew =>
    have hat : s.time.toNat % 5000 = 0 := not_not.mp hslew
    split
    · exact ⟨2, _, rfl, by decide, fun h => absurd hat h⟩
    · split
      · exact ⟨0, _, by simp; rfl, by decide, fun h => absurd hat h⟩
      · exact ⟨1, _, rfl, by decide, fun _ => rfl⟩

/-- Settles O2: with an empty queue the step is a tick. -/
theorem idleStepTicks : Obligations.IdleStepTicks := by
  intro s hempty
  obtain ⟨k, n, htick, hk, hone⟩ := tick_eq s
  refine ⟨tick s, k, ?_, ?_⟩
  · simp only [step, hempty]
  · rw [htick]
    exact ⟨rfl, hk, hone, rfl, rfl, rfl, rfl, rfl, rfl, hempty⟩

/-! ### Tile words -/

theorem decodeTile_fmtA {op : BitVec 8} (h : opIsL op = false) (d a b c : BitVec 5) (mk : BitVec 3) (mz : BitVec 1) (fn : BitVec 8)
    (imm : BitVec 24) : decodeTile (encodeTile (.fmtA op d a b c mk mz fn imm)) = .fmtA op d a b c mk mz fn imm := by
  have cut (start len : Nat) : BitVec.extractLsb' start len (encodeTile (.fmtA op d a b c mk mz fn imm)) =
      BitVec.extractLsb' (n := 8 + 5 + 5 + 5 + 5 + 3 + 1 + 8 + 24) start len (op ++ d ++ a ++ b ++ c ++ mk ++ mz ++ fn ++ imm) := rfl
  simp (disch := decide) only [decodeTile, cut, BitVec.extractLsb'_append_eq_of_le, BitVec.extractLsb'_append_eq_right,
    BitVec.extractLsb'_eq_self, Nat.reduceSub, h, Bool.false_eq_true, if_false]

theorem decodeTile_fmtL {op : BitVec 8} (h : opIsL op = true) (d a : BitVec 5) (fn : BitVec 6) (imm : BitVec 40) :
    decodeTile (encodeTile (.fmtL op d a fn imm)) = .fmtL op d a fn imm := by
  have cut (start len : Nat) : BitVec.extractLsb' start len (encodeTile (.fmtL op d a fn imm)) =
      BitVec.extractLsb' (n := 8 + 5 + 5 + 6 + 40) start len (op ++ d ++ a ++ fn ++ imm) := rfl
  simp (disch := decide) only [decodeTile, cut, BitVec.extractLsb'_append_eq_of_le, BitVec.extractLsb'_append_eq_right,
    BitVec.extractLsb'_eq_self, Nat.reduceSub, h, if_true]

/-- The fields of a word, of either format, stand side by side and cover it. -/
theorem encodeTile_decodeTile (w : Dword) : encodeTile (decodeTile w) = w := by
  have glue {len₁ len₂ start₁ start₂ : Nat} := @BitVec.extractLsb'_append_extractLsb'_eq_extractLsb' 64 start₂ start₁ len₁ len₂ w
  simp only [decodeTile]
  split
  · simp (disch := decide) only [encodeTile, glue]
    exact BitVec.extractLsb'_eq_self
  · simp (disch := decide) only [encodeTile, glue]
    exact BitVec.extractLsb'_eq_self

theorem formatOk_decodeTile (w : Dword) : (decodeTile w).formatOk = true := by
  simp only [decodeTile]
  split
  · assumption
  · next h => simpa [TileWord.formatOk] using h

/-- Settles O11: the opcode says which format a word has, and within a format the fields are adjacent. -/
theorem tileWordsJoinAndSplit : Obligations.TileWordsJoinAndSplit := by
  refine ⟨fun i hi => ?_, fun w => ⟨encodeTile_decodeTile w, formatOk_decodeTile w⟩⟩
  cases i with
  | fmtA op d a b c mk mz fn imm => exact decodeTile_fmtA (by simpa [TileWord.formatOk] using hi) d a b c mk mz fn imm
  | fmtL op d a fn imm => exact decodeTile_fmtL hi d a fn imm

end Sys2Proof.Machine
end

section
/-!
A codeword crosses the lanes of a map: each logical lane carries every W-th symbol, in order, and a receiver that takes the lanes in turn
has the codeword again (R252, R259).
-/

namespace Sys2Proof.Machine

/-- The symbols of a word that logical lane `j` of `W` carries, each with its place in the word. -/
def laneShare (W j : Nat) (w : List Nat) : List (Nat × Nat) := w.zipIdx.filter (fun e => e.2 % W == j)

theorem laneShare_concat (W j : Nat) (w : List Nat) (x : Nat) :
    laneShare W j (w ++ [x]) = laneShare W j w ++ if w.length % W = j then [(x, w.length)] else [] := by
  simp only [laneShare, List.zipIdx_append, List.filter_append, List.zipIdx_singleton, List.filter_cons, List.filter_nil, Nat.zero_add,
    beq_iff_eq]

/-- The lane whose turn comes after `n` symbols is the one whose share then grows. -/
theorem dvd_add_turn {W j : Nat} (hj : j < W) (n : Nat) : W ∣ n + (W - 1 - j) + 1 ↔ n % W = j := by
  have hr := Nat.mod_lt n (by omega : 0 < W)
  have hsplit : n + (W - 1 - j) + 1 = W * (n / W) + (n % W + (W - j)) := by
    have := Nat.div_add_mod n W
    omega
  rw [hsplit, Nat.dvd_add_right (Nat.dvd_mul_right W (n / W))]
  constructor
  · rintro ⟨c, hc⟩
    have hc1 : c = 1 := by
      rcases c with _ | _ | c
      · omega
      · rfl
      · have : W * (c + 1 + 1) = W * c + 2 * W := by ring
        omega
    rw [hc1] at hc
    omega
  · rintro rfl
    exact ⟨1, by omega⟩

theorem length_laneShare {W j : Nat} (hj : j < W) (w : List Nat) : (laneShare W j w).length = (w.length + (W - 1 - j)) / W := by
  induction w using List.reverseRecOn with
  | nil => rw [List.length_nil, Nat.zero_add, Nat.div_eq_of_lt (by omega)]; rfl
  | append_singleton w x ih =>
    rw [laneShare_concat, List.length_append, ih, List.length_append, List.length_singleton,
      show w.length + 1 + (W - 1 - j) = w.length + (W - 1 - j) + 1 by omega, Nat.succ_div]
    congr 1
    simp only [dvd_add_turn hj]
    split <;> rfl

/-- Symbol `s` of a word is the next one of lane `s mod W`. -/
theorem getElem?_laneShare {W : Nat} (hW : 0 < W) (w : List Nat) {s : Nat} (hs : s < w.length) :
    (laneShare W (s % W) w)[s / W]? = some (w[s], s) := by
  induction w using List.reverseRecOn with
  | nil => simp at hs
  | append_singleton w x ih =>
    rw [laneShare_concat]
    by_cases hlt : s < w.length
    · obtain ⟨hin, heq⟩ := List.getElem?_eq_some_iff.mp (ih hlt)
      rw [List.getElem?_append_left hin, ih hlt, List.getElem_append_left hlt]
    · obtain rfl : s = w.length := by simp only [List.length_append, List.length_singleton] at hs; omega
      have hlen : (laneShare W (w.length % W) w).length = w.length / W := by
        have hr := Nat.mod_lt w.length hW
        have hsplit : w.length + (W - 1 - w.length % W) = W - 1 + W * (w.length / W) := by
          have := Nat.div_add_mod w.length W
          omega
        rw [length_laneShare hr, hsplit, Nat.add_mul_div_left _ _ hW, Nat.div_eq_of_lt (by omega), Nat.zero_add]
      rw [List.getElem?_append_right hlen.le, hlen, Nat.sub_self]
      simp

/-- The lane that a map gives to logical lane `j` carries the share of `j` and nothing else. -/
theorem onLanes_getD {map : List Nat} (hnodup : map.Nodup) (hmap : ∀ l, l ∈ map → l < 9) {j : Nat} (hj : j < map.length) (w : List Nat) :
    (onLanes map w).getD (map.getD j 9) [] = (laneShare map.length j w).map (fun e => BitVec.ofNat 10 e.1) := by
  have hget (i : Nat) (hi : i < map.length) : map.getD i 9 = map[i] := by
    rw [List.getD_eq_getElem?_getD, List.getElem?_eq_getElem hi, Option.getD_some]
  have hturn (e : Nat × Nat) : (map.getD (e.2 % map.length) 9 == map.getD j 9) = (e.2 % map.length == j) := by
    rw [hget _ (Nat.mod_lt _ (by omega)), hget j hj, Bool.eq_iff_iff, beq_iff_eq, beq_iff_eq]
    exact hnodup.getElem_inj_iff
  have hlane : map.getD j 9 < 9 := hget j hj ▸ hmap _ (List.getElem_mem hj)
  simp only [onLanes, laneShare, List.getD_eq_getElem?_getD (l := List.map _ (List.range 9)), List.getElem?_map,
    List.getElem?_range hlane, Option.map_some, Option.getD_some, hturn]

/-- The lanes of a map bring a codeword as it was sent. -/
theorem offLanes_onLanes {map : List Nat} (hne : map ≠ []) (hnodup : map.Nodup) (hmap : ∀ l, l ∈ map → l < 9) {w : List Nat}
    (hlen : w.length = 544) (hsym : symbols w) : offLanes map (onLanes map w) = w := by
  have hW : 0 < map.length := List.length_pos_of_ne_nil hne
  apply List.ext_getElem
  · simp [offLanes, hlen]
  · intro s _ hs
    have hsmall : w[s] < 2 ^ 10 := hsym _ (List.getElem_mem hs)
    simp only [offLanes, List.getElem_map, List.getElem_range, onLanes_getD hnodup hmap (Nat.mod_lt s hW),
      List.getD_eq_getElem?_getD (l := List.map _ (laneShare _ _ _)), List.getElem?_map, getElem?_laneShare hW w hs, Option.map_some,
      Option.getD_some, BitVec.toNat_ofNat, Nat.mod_eq_of_lt hsmall]

theorem length_codeword (f : Frame) : (codeword f).length = 544 := by
  rw [codeword, rsEncode, List.length_append, length_frameSymbols, length_rsParity]

theorem symbols_codeword (f : Frame) : symbols (codeword f) := by
  intro x hx
  rw [codeword, rsEncode, List.mem_append] at hx
  exact hx.elim (symbols_frameSymbols f x) (symbols_rsParity (symbols_frameSymbols f) x)

/-- Settles O60: the lanes bring the codeword, the codeword its message, and the message the frame. -/
theorem framesCrossTheLink : Obligations.FramesCrossTheLink := by
  intro map f hne _ hnodup hmap hfull
  unfold hear
  rw [offLanes_onLanes hne hnodup hmap (length_codeword f) (symbols_codeword f)]
  simp only [codeword, rsDecode_rsEncode (length_frameSymbols f), readMessage_frameSymbols hfull]

end Sys2Proof.Machine
end

section
/-!
Accesses to bulk memory change memory, counters, events and the health monitor only (R220 to R222, R224), and the commands of the memory
family keep the form in which memory is stored (R223).
-/

namespace Sys2Proof.Machine

/-! ### What an access may change -/

/-- `t` differs from `s` in memory, in registers and mailbox values (counters, events, UE_LAST) and in the health monitor only. -/
def MemOnly (s t : State) : Prop := t = { s with regs := t.regs, wide := t.wide, mem := t.mem, health := t.health }

theorem MemOnly.refl (s : State) : MemOnly s s := rfl

theorem MemOnly.trans {s t u : State} (hst : MemOnly s t) (htu : MemOnly t u) : MemOnly s u := by
  unfold MemOnly at *
  rw [htu, hst]

theorem memOnly_foldl {β γ : Type} (p : γ → State) (f : γ → β → γ) (hf : ∀ x b, MemOnly (p x) (p (f x b))) (l : List β) (x : γ) :
    MemOnly (p x) (p (l.foldl f x)) := by
  induction l generalizing x with
  | nil => exact .refl _
  | cons b l ih => exact (hf x b).trans (ih _)

section updates
variable {s t : State} (h : MemOnly s t)
include h

theorem MemOnly.setMem (m : Mem) : MemOnly s (setMem t m) := h.trans rfl
theorem MemOnly.setHealth (x : Health) : MemOnly s (setHealth t x) := h.trans rfl
theorem MemOnly.setChan (c : Nat) (x : Chan) : MemOnly s (setChan t c x) := h.trans rfl
theorem MemOnly.noteInput (i n : Nat) : MemOnly s (noteInput t i n) := h.trans rfl
theorem MemOnly.raise (page bit : Nat) : MemOnly s (raise t page bit) := h.trans rfl
theorem MemOnly.setWide (page : Nat) (d : WideDef) (v : Wide) : MemOnly s (setWide t page d v) := h.trans rfl
theorem MemOnly.setFld (page : Nat) (f : FieldDef) (v : Nat) : MemOnly s (setFld t page f v) := h.trans rfl

theorem MemOnly.raiseIf (c : Bool) (page bit : Nat) : MemOnly s (raiseIf c t page bit) := by
  cases c with
  | false => exact h
  | true => exact h.raise page bit

theorem MemOnly.bumpBy (page : Nat) (f : FieldDef) (n : Nat) : MemOnly s (bumpBy t page f n) := by
  unfold Machine.bumpBy
  split
  · exact h
  · exact h.setFld _ _ _

theorem MemOnly.bump (page : Nat) (f : FieldDef) : MemOnly s (bump t page f) := h.bumpBy page f 1

theorem MemOnly.freshSlot (d slot : Nat) : MemOnly s (freshSlot t d slot) := by
  unfold Machine.freshSlot
  split
  · exact h
  · exact h.setMem _

theorem MemOnly.storeEntry (l : List LogEntry) (e : LogEntry) (d : Nat) : MemOnly s (storeEntry t l e d) := by
  unfold Machine.storeEntry
  dsimp only
  exact ((h.setHealth _).freshSlot _ _).raiseIf _ _ _

theorem MemOnly.noteHead : MemOnly s (noteHead t) := by
  unfold Machine.noteHead
  split
  · exact h
  · exact h.setWide _ _ _

theorem MemOnly.makeEntry (page bit kind : Nat) (data : List Nat) : MemOnly s (makeEntry t page bit kind data) := by
  unfold Machine.makeEntry
  dsimp only
  refine MemOnly.noteHead ?_
  split
  · exact (h.setHealth _).storeEntry _ _ _
  · split
    · exact (((h.setHealth _).setHealth _).bump _ _).raiseIf _ _ _
    · exact (h.setHealth _).setHealth _

theorem MemOnly.logSpare (cls unit result : Nat) : MemOnly s (logSpare t cls unit result) := by
  unfold Machine.logSpare logEntry
  split
  · exact h.setHealth _
  · exact h.makeEntry _ _ _ _

theorem MemOnly.addCandidate (r : RowRef) : MemOnly s (addCandidate t r) := by
  unfold Machine.addCandidate dropSpare
  dsimp only
  split
  · exact h
  · split
    · exact (((h.setMem _).setHealth _).logSpare _ _ _).raise _ _
    · exact h.setMem _

theorem MemOnly.countCe (chan slot off : Nat) : MemOnly s (countCe t chan slot off) := by
  unfold Machine.countCe
  dsimp only
  split
  · exact ((((h.bump _ _).raise _ _).noteInput _ _).setChan _ _).addCandidate _
  · exact (((h.bump _ _).raise _ _).noteInput _ _).setChan _ _

theorem MemOnly.checkWord (r : WordRef) : MemOnly s (checkWord t r).1 := by
  unfold Machine.checkWord
  split
  · exact h
  · exact (h.setMem _).countCe _ _ _
  · exact h

theorem MemOnly.pageDecode (r : WordRef) : MemOnly s (pageDecode t r) := by
  unfold Machine.pageDecode
  dsimp only
  split
  · exact h
  · exact ((((h.setMem _).bump _ _).raise _ _).noteInput _ _).trans (memOnly_foldl id _ (fun x _ => (MemOnly.refl x).addCandidate _) _ _)

theorem MemOnly.poisonWord (r : WordRef) (scrub : Bool) : MemOnly s (poisonWord t r scrub) := by
  unfold Machine.poisonWord
  dsimp only
  split
  · split
    · exact h.addCandidate _
    · exact h
  · exact (((((h.setMem _).bump _ _).raise _ _).setWide _ _ _).noteInput _ _).addCandidate _

theorem MemOnly.poisonWords (l : List (WordRef × Bool)) (scrub : Bool) : MemOnly s (l.foldl (fun s x => Machine.poisonWord s x.1 scrub) t) :=
  h.trans (memOnly_foldl (fun x => x) _ (fun x w => (MemOnly.refl x).poisonWord w.1 scrub) l t)

theorem MemOnly.checkWords (l : List WordRef) : MemOnly s (checkWords t l).1 := by
  unfold Machine.checkWords
  split
  · exact h
  · have hfirst := h.trans (memOnly_foldl Prod.fst
      (fun (a : State × List (WordRef × Bool)) r => ((Machine.checkWord a.1 r).1, a.2 ++ [(r, (Machine.checkWord a.1 r).2)]))
      (fun a r => (MemOnly.refl a.1).checkWord r) l (t, []))
    dsimp only
    split
    · exact hfirst
    · refine (hfirst.trans ?_).trans (memOnly_foldl Prod.fst _ ?_ _ (_, []))
      · refine memOnly_foldl Prod.fst _ (fun a r => ?_) _ (_, [])
        split
        · exact .refl _
        · exact (MemOnly.refl a.1).pageDecode r
      · intro a x
        split
        · exact .refl _
        · exact (MemOnly.refl a.1).checkWord x.1

theorem MemOnly.memRead (a n : Nat) : MemOnly s (memRead t a n).1 := by
  unfold Machine.memRead
  split
  · exact h
  · dsimp only
    split
    · exact h.checkWords _
    · exact (h.checkWords _).poisonWords _ _

theorem MemOnly.memWrite (a : Nat) (l : List Byte) : MemOnly s (memWrite t a l).1 := by
  unfold Machine.memWrite
  dsimp only
  split
  · exact h
  · split
    · exact (h.checkWords _).setMem _
    · exact (h.checkWords _).poisonWords _ _

theorem MemOnly.applyUpsets (l : List Upset) : MemOnly s (applyUpsets t l) := h.setMem _

end updates

/-- The parts that an access leaves as they were, whatever it answers. -/
theorem MemOnly.kept {s t : State} (h : MemOnly s t) (r : Resp) :
    ({ t with resp := r } : State).cores = s.cores ∧ ({ t with resp := r } : State).disps = s.disps ∧
    ({ t with resp := r } : State).ports = s.ports ∧ ({ t with resp := r } : State).time = s.time ∧
    ({ t with resp := r } : State).pending = s.pending := by
  rw [h]
  exact ⟨rfl, rfl, rfl, rfl, rfl⟩

/-! ### The two rows of an access -/

theorem exec_memoryWrite (addr : BitVec 44) (data : List (BitVec 8)) (ups : List Upset) (s : State) :
    exec (.memoryWrite addr data ups) s = .next { (memWrite (applyUpsets s ups) addr.toNat data).1 with
      resp := if (memWrite (applyUpsets s ups) addr.toNat data).2 then .done else .busError } := rfl

theorem exec_memoryRead (addr : BitVec 44) (len : Nat) (ups : List Upset) (s : State) :
    exec (.memoryRead addr len ups) s = .next { (memRead (applyUpsets s ups) addr.toNat len).1 with
      resp := ((memRead (applyUpsets s ups) addr.toNat len).2.map Resp.bytes).getD .busError } := by
  change Host.Outcome.next _ = _
  dsimp only
  split <;> simp [*]

theorem memByte_applyUpsets (s : State) (ups : List Upset) (a : Nat) : memByte (applyUpsets s ups).mem a = memByte s.mem a :=
  (applyUpsets_bytes s ups).memByte a

/-- Settles O17: a write stores its bytes or, with a bus error, none; checks and poison leave data bytes, and nothing of an access reaches
past memory, counters, events and the health monitor. -/
theorem memoryAccessFrame : Obligations.MemoryAccessFrame := by
  refine ⟨fun s t addr data ups hexec => ?_, fun s t addr len ups hexec => ?_⟩
  · rw [exec_memoryWrite] at hexec
    obtain rfl := Host.Outcome.next.inj hexec
    refine ⟨fun a ha => ?_, fun hdone i hi => ?_, fun herr a => ?_,
      (((MemOnly.refl s).applyUpsets ups).memWrite _ _).kept _⟩
    · exact (memWrite_outside _ _ _ _ ha).trans (memByte_applyUpsets s ups a)
    · cases hok : (memWrite (applyUpsets s ups) addr.toNat data).2 with
      | true => exact (memWrite_inside _ _ _ _ hok hi).trans (List.getElem_eq_getD 0)
      | false => simp [hok] at hdone
    · cases hok : (memWrite (applyUpsets s ups) addr.toNat data).2 with
      | true => simp [hok] at herr
      | false =>
        obtain ⟨_, _, _, hfail⟩ := memWrite_bytes (applyUpsets s ups) addr.toNat data
        exact ((hfail hok).memByte a).trans (memByte_applyUpsets s ups a)
  · rw [exec_memoryRead] at hexec
    obtain rfl := Host.Outcome.next.inj hexec
    exact ⟨fun a => ((memRead_bytes _ _ _).memByte a).trans (memByte_applyUpsets s ups a),
      (((MemOnly.refl s).applyUpsets ups).memRead _ _).kept _⟩

/-! ### Rows, pages and channels leave the data bytes -/

/-- The data bytes of `t` are those of `s`. -/
structure DataKept (s t : State) : Prop where
  bytes : SameBytes s.mem t.mem

theorem DataKept.refl (s : State) : DataKept s s := ⟨SameBytes.rfl' _⟩

theorem DataKept.of_mem_eq {s t u : State} (h : DataKept s t) (hmem : u.mem = t.mem) : DataKept s u := ⟨hmem ▸ h.bytes⟩

section updates
variable {s t : State} (h : DataKept s t)
include h

theorem DataKept.setMem (m : Mem) (hm : SameBytes t.mem m := by exact ⟨rfl, rfl⟩) : DataKept s (setMem t m) := ⟨h.bytes.trans hm⟩
theorem DataKept.setChan (c : Nat) (x : Chan) : DataKept s (setChan t c x) := ⟨h.bytes.trans ⟨rfl, rfl⟩⟩
theorem DataKept.setFld (page : Nat) (f : FieldDef) (v : Nat) : DataKept s (setFld t page f v) := h.of_mem_eq (setFld_mem _ _ _ _)
theorem DataKept.setFlag (page : Nat) (f : FieldDef) (b : Bool) : DataKept s (setFlag t page f b) := h.of_mem_eq (setFlag_mem _ _ _ _)
theorem DataKept.setWide (page : Nat) (d : WideDef) (v : Wide) : DataKept s (setWide t page d v) := h.of_mem_eq (setWide_mem _ _ _ _)
theorem DataKept.setHealth (x : Health) : DataKept s (setHealth t x) := h.of_mem_eq (setHealth_mem _ _)
theorem DataKept.raise (page bit : Nat) : DataKept s (raise t page bit) := h.of_mem_eq (raise_mem _ _ _)
theorem DataKept.raiseIf (c : Bool) (page bit : Nat) : DataKept s (raiseIf c t page bit) := h.of_mem_eq (raiseIf_mem _ _ _ _)
theorem DataKept.bump (page : Nat) (f : FieldDef) : DataKept s (bump t page f) := h.of_mem_eq (bump_mem _ _ _)
theorem DataKept.report (page : Nat) (l : List Nat) : DataKept s (report t page l) := h.of_mem_eq rfl
theorem DataKept.takeFree (n : Nat) : DataKept s (takeFree t n).2 := h.of_mem_eq rfl
theorem DataKept.logSpare (cls unit result : Nat) : DataKept s (logSpare t cls unit result) := ⟨h.bytes.trans (logEntry_bytes _ _ _ _ _)⟩

theorem DataKept.spareIn (cls unit : Nat) : DataKept s (spareIn t cls unit) :=
  (((h.setHealth _).bump _ _).raise _ _).logSpare _ _ _

theorem DataKept.checkPage (chan page slot : Nat) (scrub : Bool) : DataKept s (checkPage t chan page slot scrub) :=
  ⟨h.bytes.trans (checkPage_bytes _ _ _ _ _)⟩

theorem DataKept.correctRow (r : RowRef) : DataKept s (correctRow t r) :=
  ⟨h.bytes.trans (sameBytes_foldl State.mem _ (fun _ _ => checkWords_bytes _ _) _ t)⟩

theorem DataKept.installRemap (r : RowRef) (i : Nat) (e : RemapEntry) : DataKept s (installRemap t r i e) := by
  unfold Machine.installRemap
  exact (((h.setChan _ _).raise _ _).spareIn _ _).raiseIf _ _ _

theorem DataKept.freeRetired : DataKept s (freeRetired t) := by
  unfold Machine.freeRetired
  split
  · exact h
  · exact (h.setMem _).setChan _ _

theorem DataKept.startRetire (r : RowRef) (entry : Option Nat) : DataKept s (startRetire t r entry) := h.setMem _

theorem DataKept.retireRow (r : RowRef) (entry : Option Nat) : DataKept s (retireRow t r entry) := by
  have hlog (u : State) (hu : DataKept s u) : DataKept s (if entry.isNone then Machine.logSpare u 4 r.chan 2 else u) := by
    split
    · exact hu.logSpare _ _ _
    · exact hu
  have hfree (u : State) (hu : DataKept s u) : DataKept s (if u.mem.retireQ.isEmpty then Machine.freeRetired u else u) := by
    split
    · exact hu.freeRetired
    · exact hu
  unfold Machine.retireRow
  split
  · exact h
  · exact hfree _ (hlog _ ((h.setMem _).startRetire _ _))

theorem DataKept.remapRow (r : RowRef) (spareFails : Bool) : DataKept s (remapRow t r spareFails) := by
  unfold Machine.remapRow
  dsimp only
  split
  · split
    · exact h.retireRow _ _
    · split
      · exact h.setChan _ _
      · exact (((h.setChan _ _).setMem _).correctRow _).installRemap _ _ _
  · split
    · exact h.setChan _ _
    · exact (((h.setChan _ _).setMem _).correctRow _).installRemap _ _ _
  · exact h.retireRow _ _
  · exact h.retireRow _ _

theorem DataKept.unbackPage (chan page : Nat) : DataKept s (unbackPage t chan page) := by
  unfold Machine.unbackPage shrinkRegion
  have hmark := (((((h.report (pgMem (chan / 8)) (pageSpan t chan page)).setChan chan { chanOf t chan with
    unbacked := mapSet (fun _ => false) page true (chanOf t chan).unbacked }).raise (pgMem (chan / 8)) evMemCtlPoolEmpty).raise
    (pgMem (chan / 8)) evMemCtlUnbacked).logSpare 5 chan 2)
  dsimp only
  split
  · exact ((hmark.bump _ _).setWide _ _ _).raise _ _
  · exact hmark

theorem DataKept.retirePage (chan page : Nat) : DataKept s (retirePage t chan page) := by
  unfold Machine.retirePage
  dsimp only
  split
  · exact h.unbackPage _ _
  · exact (((((h.checkPage _ _ _ _).setMem _).setChan _ _).raise _ _).spareIn _ _).raiseIf _ _ _

theorem DataKept.failChannel (ch : Nat) : DataKept s (failChannel t ch) := by
  have hfail (u : State) (hu : DataKept s u) (d : Nat) : DataKept s
      (if (u.mem.replanPending.any (fun c => c / 32 == d) || decide (failedCh u d ≠ 0x3F)) = true then
        Machine.raise (Machine.setFlag u 0x50 (ilField fInterleaveUnfit0 d) true) 0x50 evInterleaveCapacityShrunk
      else Machine.raise (Machine.setMem u { u.mem with replanPending := u.mem.replanPending ++ [ch] }) 0x50 evInterleaveReplanPending) := by
    split
    · exact (hu.setFlag _ _ _).raise _ _
    · exact (hu.setMem _).raise _ _
  exact hfail _ (((h.setChan _ _).setFld _ _ _).raise _ _) _

theorem DataKept.repairChan (ch : Nat) : DataKept s (repairChan t ch) := by
  unfold Machine.repairChan
  dsimp only
  split
  · exact h
  · exact ((h.takeFree _).setChan _ _).raiseIf _ _ _

end updates

/-! ### Every row keeps the form -/

theorem DataKept.wf {s t : State} (h : DataKept s t) (hwf : s.mem.wf = true) : t.mem.wf = true := h.bytes.wf hwf

theorem applyUpsets_kept (s : State) (ups : List Upset) : DataKept s (applyUpsets s ups) := ⟨applyUpsets_bytes s ups⟩

theorem fill_wf (m : Mem) : ({ m with filled := true, data := [], opens := [], poison := [], flips := [] } : Mem).wf = true := rfl

theorem execScrubSlot_kept {s t : State} {ch : ChanId} {ups : List Upset} (h : exec (.scrubSlot ch ups) s = .next t) : DataKept s t := by
  obtain rfl := Host.Outcome.next.inj h
  split
  · exact .refl s
  · have hadvanced (x : Chan) := (applyUpsets_kept s ups).setChan ch x
    dsimp only
    split
    · exact hadvanced _
    · exact (hadvanced _).checkPage _ _ _ _

theorem execRowRemap_kept {s t : State} {fails : Bool} (h : exec (.rowRemap fails) s = .next t) : DataKept s t := by
  obtain rfl := Host.Outcome.next.inj h
  split
  · exact .refl s
  · split
    · exact .refl s
    · exact (DataKept.refl s).remapRow _ _

theorem execPageRetire_kept {s t : State} (h : exec .pageRetire s = .next t) : DataKept s t := by
  obtain rfl := Host.Outcome.next.inj h
  split
  · exact .refl s
  · dsimp only
    split
    · exact (((DataKept.refl s).setMem _).retirePage _ _).freeRetired
    · exact ((DataKept.refl s).setMem _).retirePage _ _

theorem execChannelFail_kept {s t : State} {ch : ChanId} (h : exec (.channelFail ch) s = .next t) : DataKept s t := by
  obtain rfl := Host.Outcome.next.inj h
  split
  · exact (DataKept.refl s).failChannel ch
  · exact .refl s

theorem execMr4Read_kept {s t : State} {ch : ChanId} {v : BitVec 5} (h : exec (.mr4Read ch v) s = .next t) : DataKept s t := by
  obtain rfl := Host.Outcome.next.inj h
  split
  · exact (DataKept.refl s).setChan ch _
  · exact .refl s

theorem execChannelTraining_kept {s t : State} {ch : ChanId} {rate : Option (Fin 3)} (h : exec (.channelTraining ch rate) s = .next t) :
    DataKept s t := by
  obtain rfl := Host.Outcome.next.inj h
  split
  · exact .refl s
  · split
    · have hrate (x : Chan) (f : FieldDef) (v : Nat) := ((DataKept.refl s).setChan ch x).setFld (pgMem (ch / 8)) f v
      dsimp only
      split
      · exact hrate _ _ _
      · exact (hrate _ _ _).repairChan ch
    · exact (DataKept.refl s).failChannel ch

/-- Settles O18: accesses store bytes one by one, the other rows move codes, tables and counters but no data byte, and the fill leaves no
byte listed. -/
theorem memoryFormKept : Obligations.MemoryFormKept := by
  rintro s t hwf (hempty | ⟨c, rest, hqueue, hfamily⟩) hstep
  · obtain ⟨k, n, htick, -, -⟩ := tick_eq s
    simp only [step, hempty] at hstep
    obtain rfl := Host.Outcome.next.inj hstep
    rw [htick]
    exact hwf
  · simp only [step, hqueue] at hstep
    have hwf' : ({ s with pending := rest } : State).mem.wf = true := hwf
    generalize ({ s with pending := rest } : State) = s' at hstep hwf'
    cases c with
    | memoryRead =>
      rw [exec_memoryRead] at hstep
      obtain rfl := Host.Outcome.next.inj hstep
      exact memRead_wf _ _ _ ((applyUpsets_kept _ _).wf hwf')
    | memoryWrite =>
      rw [exec_memoryWrite] at hstep
      obtain rfl := Host.Outcome.next.inj hstep
      exact memWrite_wf _ _ _ ((applyUpsets_kept _ _).wf hwf')
    | memoryAdderUpdate =>
      obtain rfl := Host.Outcome.next.inj hstep
      exact adderUpdate_wf _ _ _ _ hwf'
    | fillComplete =>
      obtain rfl := Host.Outcome.next.inj hstep
      split
      · exact hwf'
      · exact fill_wf _
    | scrubSlot => exact (execScrubSlot_kept hstep).wf hwf'
    | rowRemap => exact (execRowRemap_kept hstep).wf hwf'
    | pageRetire => exact (execPageRetire_kept hstep).wf hwf'
    | channelFail => exact (execChannelFail_kept hstep).wf hwf'
    | mr4Read => exact (execMr4Read_kept hstep).wf hwf'
    | channelTraining => exact (execChannelTraining_kept hstep).wf hwf'
    | _ => exact False.elim hfamily

end Sys2Proof.Machine
end

section
/-!
The decoding of a bulk-memory address is one to one: the channel hash is undone by the granule's index, and a re-plan puts the failed channel's
granules beyond those that stay (R215, R235).
-/

namespace Sys2Proof.Machine

/-! ### The channel hash -/

theorem chanHash_lt (g : Nat) : chanHash g < 32 := by
  have hxor {a b : Nat} (ha : a < 32) (hb : b < 32) : a ^^^ b < 32 := Nat.xor_lt_two_pow (n := 5) ha hb
  have hmod (x : Nat) : x % 32 < 32 := Nat.mod_lt _ (by decide)
  exact hxor (hxor (hxor (hxor (hxor (hmod _) (hmod _)) (hmod _)) (hmod _)) (hmod _)) (hmod _)

/-- What the index of a granule on its channel contributes to the channel's number. -/
def hashTail (i : Nat) : Nat := (i % 32) ^^^ (i / 2 ^ 5 % 32) ^^^ (i / 2 ^ 10 % 32) ^^^ (i / 2 ^ 15 % 32) ^^^ (i / 2 ^ 20 % 32)

theorem chanHash_eq (g : Nat) : chanHash g = g % 32 ^^^ hashTail (g / 32) := by
  simp only [chanHash, hashTail, Nat.div_div_eq_div_mul, Nat.xor_assoc]
  rfl

theorem granule_inj {g h : Nat} (hchan : chanHash g = chanHash h) (hidx : g / 32 = h / 32) : g = h := by
  rw [chanHash_eq, chanHash_eq, hidx] at hchan
  have hlow : g % 32 = h % 32 := Nat.xor_left_injective hchan
  omega

/-! ### The re-plan of a region -/

theorem replanMap_chan_lt {c : Nat} (hc : c < 32) (f i : Nat) : (replanMap f c i).1 < 32 := by
  unfold replanMap
  split
  · dsimp only
    split <;> omega
  · exact hc

/-- Below the first index of the moved granules a re-plan maps no two places to one. -/
theorem replanMap_inj {f c c' i i' : Nat} (hi : i < 28442624) (hi' : i' < 28442624) (h : replanMap f c i = replanMap f c' i') :
    c = c' ∧ i = i' := by
  unfold replanMap at h
  split at h <;> split at h
  · next hc hc' =>
    dsimp only at h
    split at h <;> split at h <;> simp only [Prod.mk.injEq] at h <;> omega
  · simp only [Prod.mk.injEq] at h
    omega
  · simp only [Prod.mk.injEq] at h
    omega
  · simpa only [Prod.mk.injEq] using h

/-- Channel of its die and index on it of granule `g` of region `d`. -/
def regionPlace (s : State) (d g : Nat) : Nat × Nat :=
  if regionReplanned s d then replanMap (failedCh s d) (chanHash g) (g / 32) else (chanHash g, g / 32)

theorem regionPlace_chan_lt (s : State) (d g : Nat) : (regionPlace s d g).1 < 32 := by
  unfold regionPlace
  split
  · exact replanMap_chan_lt (chanHash_lt g) _ _
  · exact chanHash_lt g

/-- The granules of a region that have bytes: all, or after a re-plan those below 0x6C80000000. -/
def granuleServed (s : State) (d g : Nat) : Prop := regionReplanned s d = true → g / 32 < 28442624

theorem regionPlace_inj {s : State} {d g h : Nat} (hg : granuleServed s d g) (hh : granuleServed s d h)
    (heq : regionPlace s d g = regionPlace s d h) : g = h := by
  unfold regionPlace at heq
  split at heq
  · next hre =>
    obtain ⟨hchan, hidx⟩ := replanMap_inj (hg hre) (hh hre) heq
    exact granule_inj hchan hidx
  · simp only [Prod.mk.injEq] at heq
    exact granule_inj heq.1 heq.2

/-! ### Addresses -/

/-- The parts of a decoded address. -/
theorem locate_some {s : State} {a : Nat} {x : Loc} (h : locate s a = some x) :
    granuleServed s (a / regionSize) (a % regionSize / 512) ∧
    x.chan = 32 * (a / regionSize) + (regionPlace s (a / regionSize) (a % regionSize / 512)).1 ∧
    8 * x.page + x.gran = (regionPlace s (a / regionSize) (a % regionSize / 512)).2 ∧
    8 * x.word + x.byte = a % regionSize % 512 := by
  unfold locate at h
  simp only at h
  split at h
  · simp at h
  · split at h
    · simp at h
    · next hin =>
      obtain rfl := Option.some.inj h
      refine ⟨fun hre => ?_, rfl, Nat.div_add_mod _ 8, Nat.div_add_mod _ 8⟩
      simp only [hre, Bool.true_and, decide_eq_true_eq] at hin
      omega

/-- Settles O19: channel and index give the die and the granule, word and byte the place in it. -/
theorem addressesShareNoByte : Obligations.AddressesShareNoByte := by
  intro s a b x y hx hy hchan hpage hgran hword hbyte
  obtain ⟨hga, hca, hpa, hwa⟩ := locate_some hx
  obtain ⟨hgb, hcb, hpb, hwb⟩ := locate_some hy
  rw [hchan, hcb] at hca
  rw [hpage, hgran, hpb] at hpa
  rw [hword, hbyte, hwb] at hwa
  have hla := regionPlace_chan_lt s (a / regionSize) (a % regionSize / 512)
  have hlb := regionPlace_chan_lt s (b / regionSize) (b % regionSize / 512)
  have hdie : a / regionSize = b / regionSize := by omega
  rw [hdie] at hga hca hpa
  have hplace : regionPlace s (b / regionSize) (a % regionSize / 512) = regionPlace s (b / regionSize) (b % regionSize / 512) :=
    Prod.ext (by omega) hpa.symm
  have hgranule := regionPlace_inj hga hgb hplace
  have ha := Nat.div_add_mod a regionSize
  have hb := Nat.div_add_mod b regionSize
  rw [hdie] at ha
  have hoff : a % regionSize = b % regionSize := by omega
  rw [hoff] at ha
  exact ha.symm.trans hb

end Sys2Proof.Machine
end

section
/-!
The rows of bulk memory complete as their rules say (R213, R214, R220, R221, R223, R225, R228, R229, R234, R236).
-/

namespace Sys2Proof.Machine

theorem exec_memoryAdderUpdate (fn : Fin 6) (addr : BitVec 44) (v : BitVec 64) (s : State) :
    exec (.memoryAdderUpdate fn addr v) s = .next { (adderUpdate s fn addr.toNat v.toNat).1 with
      resp := if (adderUpdate s fn addr.toNat v.toNat).2 then .done else .busError } := rfl

/-- The state after the scrubber's turn at a channel, before the page in its slot is checked (R225). -/
theorem execScrubSlot_due {s : State} {ch : ChanId} {ups : List Upset} (hawake : dieAwake s (ch / 32) = true) (hstate : modState s ≠ msStandby)
    (hserves : chanServes s ch = true) (hen : flag s (pgMem (ch / 8)) fMemCtlScrubEn = true) (hdue : (chanOf s ch).scrubAt ≤ now s) :
    exec (.scrubSlot ch ups) s = .next (
      let u := applyUpsets s ups
      let c := chanOf u ch
      let next := (c.scrubNext + 1) % slotCount
      let due := if c.scrubAt = 0 then now u else c.scrubAt
      let v := setChan u ch { c with
        scrubNext := next, scrubAt := due + scrubStep u ch, ceRows := if next = 0 then [] else c.ceRows }
      match pageOfSlot v ch c.scrubNext with
      | none => v
      | some page => checkPage v ch page c.scrubNext true) := by
  change execScrubSlot ch ups s = _
  unfold execScrubSlot
  simp only [hawake, hserves, hen, Nat.not_lt.mpr hdue, hstate, decide_false, Bool.not_true, Bool.or_false, Bool.false_eq_true, if_false] <;> rfl

theorem exec_rowRemap {s : State} {r : RowRef} {rest : List RowRef} (fails : Bool) (hq : s.mem.queue = r :: rest)
    (hfree : (pagesOfRow s (logicalRow s r)).any (fun p => s.mem.retireQ.contains (r.chan, p)) = false) :
    exec (.rowRemap fails) s = .next (remapRow s r fails) := by
  change execRowRemap fails s = _
  simp only [execRowRemap, hq, hfree, Bool.false_eq_true, if_false]

theorem exec_pageRetire {s : State} {chan page : Nat} {rest : List (Nat × Nat)} (hq : s.mem.retireQ = (chan, page) :: rest) :
    exec .pageRetire s = .next (
      let u := retirePage (setMem s { s.mem with retireQ := rest }) chan page
      if rest.isEmpty then freeRetired u else u) := by
  change execPageRetire s = _
  simp only [execPageRetire, hq]

theorem exec_channelTraining_trained {s : State} {ch : ChanId} (r : Fin 3) (hok : (chanOf s ch).failed = false)
    (hawake : dieAwake s (ch / 32) = true) : exec (.channelTraining ch (some r)) s = .next (
      let u := setFld (setChan s ch { chanOf s ch with rate := some r.val }) (pgMem (ch / 8)) { fMemCtlRate0 with lo := 2 * (ch % 8) } r
      if s.mem.filled then u else repairChan u ch) := by
  change execChannelTraining ch (some r) s = _
  simp only [execChannelTraining, hok, hawake, Bool.not_true, Bool.or_false, Bool.false_eq_true, if_false] <;> rfl

/-- Settles O35: each row is its function of the model where the row's conditions hold. -/
theorem memoryCommandsComplete : Obligations.MemoryCommandsComplete := by
  refine ⟨⟨?read, ?write, ?add, ?readFails⟩, ?scrub, ?remap, ?retire, ?fail, ?mr4, ?trained, ?untrained, ?fill⟩
  case read =>
    intro s u addr len ups b h
    rw [exec_memoryRead, h]
    rfl
  case write =>
    intro s u addr data ups h
    rw [exec_memoryWrite, h]
    rfl
  case add =>
    intro s u fn addr v h
    rw [exec_memoryAdderUpdate, h]
    rfl
  case readFails =>
    intro s u addr len ups h
    rw [exec_memoryRead, h]
    rfl
  case scrub =>
    intro s ch ups page hawake hstate hserves hen hdue u c next due v hpage
    rw [execScrubSlot_due hawake hstate hserves hen hdue]
    simp only
    rw [hpage]
  case remap => exact fun s fails r rest hq hfree => exec_rowRemap fails hq hfree
  case retire => exact fun s chan page rest hq => exec_pageRetire hq
  case fail =>
    intro s ch h
    change execChannelFail ch s = _
    simp only [execChannelFail, h, if_true]
  case mr4 =>
    intro s ch v h
    change execMr4Read ch v s = _
    simp only [execMr4Read, h, if_true]
  case trained => exact fun s ch r hok hawake => exec_channelTraining_trained r hok hawake
  case untrained =>
    intro s ch hok hawake
    change execChannelTraining ch none s = _
    simp only [execChannelTraining, hok, hawake, Bool.not_true, Bool.or_false, Bool.false_eq_true, if_false]
  case fill =>
    intro s hempty hchans
    have hall : ((List.range 128).all fun c => (chanOf s c).failed || (chanOf s c).rate.isSome) = true := by
      simp only [List.all_eq_true, List.mem_range, Bool.or_eq_true, Option.isSome_iff_ne_none]
      exact hchans
    change execFillComplete s = _
    simp only [execFillComplete, hempty, hall, Bool.not_true, Bool.or_false, Bool.false_eq_true, if_false]

end Sys2Proof.Machine
end

section
/-!
Register accesses by address (R4, R8, R12, R36, R38, R44, R54): what an access of an aligned 32-bit word of the register window comes to, where
the page answers, and where it does not.
-/

namespace Sys2Proof.Machine

/-! ### Addresses of the register window -/

/-- The address of a register. -/
def regAddress (p : BitVec 12) (off : Nat) : BitVec 44 := BitVec.ofNat 44 (regBase + 4096 * p.toNat + off)

theorem regAddress_toNat (p : BitVec 12) {off : Nat} (h : off < 4096) : (regAddress p off).toNat = regBase + 4096 * p.toNat + off := by
  have hp := p.isLt
  rw [regAddress, BitVec.toNat_ofNat, Nat.mod_eq_of_lt]
  unfold regBase
  omega

theorem regAddr_regAddress (p : BitVec 12) {off : Nat} (h : off < 4096) (halign : off % 4 = 0) :
    regAddr (regAddress p off).toNat 32 = some (p.toNat, off) := by
  have hp := p.isLt
  rw [regAddress_toNat p h, regAddr, if_pos (by unfold regBase; omega)]
  have hpage : (regBase + 4096 * p.toNat + off - regBase) / 4096 = p.toNat := by omega
  have hoff : (regBase + 4096 * p.toNat + off - regBase) % 4096 = off := by omega
  rw [hpage, hoff]

/-! ### Pages that do not answer -/

section Unanswered
variable {s : State} {m : Master} {page : Nat} (h : reaches m page = false ∨ pageServed s page = false)
include h

theorem regPut_unanswered (off value : Nat) : regPut s m page off value = (s, false) := by
  unfold regPut
  split
  · rfl
  · rcases h with h | h <;> simp only [h, Bool.not_false, Bool.or_true, Bool.true_or, if_true]

theorem regGet_unanswered (off : Nat) : regGet s m page off = (s, none) := by
  unfold regGet
  split
  · rfl
  · rcases h with h | h <;> simp only [h, Bool.not_false, Bool.or_true, Bool.true_or, if_true]

end Unanswered

theorem busError_keeps (s : State) (m : Master) (a : Nat) (st : Bool) :
    (busError s m a st).regs = s.regs ∧ (busError s m a st).wide = s.wide ∧ (busError s m a st).mem = s.mem ∧
      (busError s m a st).resp = .busError := by
  unfold busError
  dsimp only
  split <;> exact ⟨rfl, rfl, rfl, rfl⟩

/-- Settles O6: an aligned address of the window names its page, and the one path of register accesses ends in the bus error. -/
theorem unansweredPages : Obligations.UnansweredPages := by
  intro s m p off v hoff halign h a
  have haddr : regAddr a.toNat 32 = some (p.toNat, off) := regAddr_regAddress p hoff halign
  refine ⟨?_, ?_, busError_keeps s m a.toNat⟩
  · rw [exec_registerWrite, addrWrite, haddr]
    simp only [regPut_unanswered h, Bool.false_eq_true, if_false]
  · rw [exec_rcRead, addrRead, haddr]
    simp only [regGet_unanswered h]

/-! ### Writes that a guard refuses -/

theorem mapErase_mapErase {α : Type} (k : Nat) (m : SMap α) : mapErase k (mapErase k m) = mapErase k m := by
  induction m with
  | nil => rfl
  | cons e r ih =>
    by_cases he : e.1 = k
    · simp only [mapErase, he, if_true, ih]
    · simp only [mapErase, he, if_false, ih]

/-- Setting a key twice to one value sets it once. -/
theorem mapSet_mapSet_same {α : Type} [DecidableEq α] (d : Nat → α) (k : Nat) (v : α) (m : SMap α) :
    mapSet d k v (mapSet d k v m) = mapSet d k v m := by
  by_cases hv : v = d k
  · simp only [mapSet, if_pos hv, mapErase_mapErase]
  · simp only [mapSet, if_neg hv, mapPut_mapPut]

theorem setRegWord_setRegWord_same (s : State) (page off : Nat) (w : Word) :
    setRegWord (setRegWord s page off w) page off w = setRegWord s page off w := by
  unfold setRegWord
  rw [mapSet_mapSet_same]

/-- An event that stands already is raised without effect. -/
theorem raise_raise (s : State) (page e : Nat) : raise (raise s page e) page e = raise s page e := by
  have hword : (regWord s page 0x24 ||| BitVec.ofNat 32 (2 ^ e)) ||| BitVec.ofNat 32 (2 ^ e) = regWord s page 0x24 ||| BitVec.ofNat 32 (2 ^ e) := by
    rw [BitVec.or_assoc, BitVec.or_self]
  unfold raise
  rw [regWord_setRegWord_same, hword, setRegWord_setRegWord_same]

/-- Refused fields, however many, raise one GUARD_DENIED. -/
theorem foldl_writeField_denied (b : Block) (page value : Nat) (l : List FieldDef) (ok : FieldDef → Bool) (hne : l ≠ [])
    (hdenied : ∀ f ∈ l, ok f = false) (s : State) :
    l.foldl (fun x f => writeField x b page value f (ok f)) s = raise s page evCommonGuardDenied := by
  induction l generalizing s with
  | nil => exact absurd rfl hne
  | cons f l ih =>
    have hfirst : writeField s b page value f (ok f) = raise s page evCommonGuardDenied := by
      rw [hdenied f (.head _)]
      rfl
    rw [List.foldl_cons, hfirst]
    cases l with
    | nil => rfl
    | cons g l => rw [ih (List.cons_ne_nil g l) (fun f hf => hdenied f (.tail _ hf)), raise_raise]

/-- Settles O7: every field of the word is refused, and GUARD_DENIED is raised once however many there are. -/
theorem guardedWritesDenied : Obligations.GuardedWritesDenied := by
  intro s m p b off v hb hr hs hlow hhigh halign hne hdenied
  have haddr : regAddr (regAddress p off).toNat 32 = some (p.toNat, off) := regAddr_regAddress p hhigh halign
  have hrow := rowWrite_fields (off := off) (value := v.toNat) hb hr hs (by omega) (by omega) (by omega)
  rw [foldl_writeField_denied b p.toNat v.toNat _ _ hne hdenied] at hrow
  have hput : addrWrite s m (regAddress p off).toNat 32 v.toNat = rowWrite s m p.toNat off v.toNat := by
    rw [addrWrite, haddr, rowWrite, regAddress_toNat p hhigh]
  rw [exec_registerWrite]
  exact congrArg _ (hput.trans hrow)

/-! ### Reads of EVENT and of EVENT_PEEK -/

/-- No block shows live values in EVENT. -/
theorem liveFields_event (s : State) (b : Block) (page : Nat) : liveFields s b page 0x24 = [] := by
  cases b <;> rfl

theorem presentWord_event (s : State) (b : Block) (page : Nat) : presentWord s b page 0x24 = (regWord s page 0x24).toNat := by
  have hoff : (if 0x24 = 0x2C then 0x24 else 0x24) = 0x24 := rfl
  rw [presentWord, hoff, liveFields_event]
  rfl

theorem presentWord_eventPeek (s : State) (b : Block) (page : Nat) : presentWord s b page 0x2C = (regWord s page 0x24).toNat :=
  presentWord_event s b page

/-- EVENT_PEEK is no field of its own. -/
theorem fieldsAt_eventPeek (b : Block) : fieldsAt b 0x2C = [] := by
  cases b <;> rfl

section Events
variable {s : State} {m : Master} {page : Nat} {b : Block} (hb : pageBlock page = some b) (hr : reaches m page = true)
  (hs : pageServed s page = true)
include hb hr hs

theorem regGet_event (hvote : mapFind (regKey page 0x24) s.triple = none) :
    regGet s m page 0x24 = (setRegWord s page 0x24 0, some (regWord s page 0x24).toNat) := by
  simp only [regGet, hb, hr, hs, voteKey, hvote, presentWord_event, Bool.not_true, Bool.or_self, Bool.false_eq_true, if_false, if_true]

theorem regGet_eventPeek (hvote : mapFind (regKey page 0x2C) s.triple = none) :
    regGet s m page 0x2C = (s, some (regWord s page 0x24).toNat) := by
  simp only [regGet, hb, hr, hs, voteKey, hvote, presentWord_eventPeek, fieldsAt_eventPeek, Bool.not_true, Bool.or_self, Bool.false_eq_true,
    if_false, List.filter_nil, List.foldl_nil, List.isEmpty_nil, if_true] <;> rfl

end Events

/-- Settles O9: the word returned is the word cleared; EVENT_PEEK shows EVENT's word and has no bit to clear. -/
theorem eventReads : Obligations.EventReads := by
  intro s m p b hb hr hs hevent hpeek read
  have haddr {off : Nat} (hoff : off < 4096) (halign : off % 4 = 0) := regAddr_regAddress p hoff halign
  refine ⟨?event, ?peek, fun e _ => ?next, fun q o _ ho hne => ?others⟩
  case event =>
    rw [exec_rcRead]
    change Host.Outcome.next (addrRead s m (regAddress p 0x24).toNat 32) = _
    simp only [addrRead, haddr (off := 0x24) (by decide) (by decide), regGet_event hb hr hs hevent, BitVec.ofNat_toNat, BitVec.setWidth_eq] <;> rfl
  case peek =>
    rw [exec_rcRead]
    change Host.Outcome.next (addrRead s m (regAddress p 0x2C).toNat 32) = _
    simp only [addrRead, haddr (off := 0x2C) (by decide) (by decide), regGet_eventPeek hb hr hs hpeek, BitVec.ofNat_toNat, BitVec.setWidth_eq]
  case next =>
    have hclear : regWord read p.toNat 0x24 = 0 := regWord_setRegWord_same ..
    rw [raise, regWord_setRegWord_same, hclear]
    exact BitVec.zero_or
  case others =>
    refine regWord_setRegWord_other (fun hkey => ?_) s 0
    obtain ⟨hq, ho⟩ := regKey_inj (by decide) ho hkey
    exact hne.elim (· hq) (· ho)

end Sys2Proof.Machine
end

section
/-!
The state at power-on (R5, R40, R41): every field, mailbox value and part of the module as reset leaves it. One word differs from its table: the
STRAPS word, where the default of REFCLK_SRC stands.
-/

namespace Sys2Proof.Machine

/-! ### The tables, block by block -/

/-- Whether a field of a block reads its own reset value from the word in which every field of the page stands at its reset value. -/
def resetsAsTabled (b : Block) (f : FieldDef) : Bool :=
  decide (f.off ∉ [0, 4, 8, 0x28] ∧ f.off < 4096 ∧
    bitsOf (BitVec.ofNat 32 (fieldsReset (pageFields b) f.off)).toNat f.lo f.width = f.reset % 2 ^ f.width)

theorem blockFields_resetsAsTabled (b : Block) : (blockFields b).all (resetsAsTabled b) = true := by
  cases b <;> decide +kernel

/-- Whether a mailbox value is the one of its VALUE_ID in its block, and fits its 256 bits. -/
def wideTabled (b : Block) (d : WideDef) : Bool :=
  decide ((blockWides b).find? (fun x => x.vid == d.vid) = some d ∧ d.vid < 65536 ∧ d.reset < 2 ^ 256)

theorem blockWides_wideTabled (b : Block) : (blockWides b).all (wideTabled b) = true := by
  cases b <;> decide +kernel

/-- The other straps of the word in which REFCLK_SRC stands read 0, as their table says. -/
theorem straps_reset : fieldsStraps.all (fun f =>
    decide (f.off = 0x100 → f ≠ fStrapsRefclkSrc → bitsOf 0x400 f.lo f.width = f.reset % 2 ^ f.width)) = true := by
  decide +kernel

/-! ### What a register and a mailbox value read at reset -/

/-- Every word but that of the straps reads as its table says. -/
theorem regWord_reset {page off : Nat} (h : regKey page off ≠ 0x1100) :
    regWord State.reset page off = regDefault (regKey page off) := by
  simp only [regWord, State.reset, mapGet, mapFind, if_neg h.symm, Option.getD_none]

theorem regWord_reset_straps : regWord State.reset 1 0x100 = 0x400 := rfl

theorem regDefault_regKey {page off : Nat} (hoff : off < 4096) : regDefault (regKey page off) = BitVec.ofNat 32 (resetWordNat page off) := by
  have hpage : (page * 4096 + off) / 4096 = page := by omega
  have hlow : (page * 4096 + off) % 4096 = off := by omega
  rw [regDefault, regKey, hpage, hlow]

theorem resetWordNat_field {page off : Nat} {b : Block} (hb : pageBlock page = some b) (hoff : off ∉ [0, 4, 8, 0x28]) :
    resetWordNat page off = fieldsReset (pageFields b) off := by
  simp only [List.mem_cons, List.not_mem_nil, or_false, not_or] at hoff
  obtain ⟨h0, h4, h8, h28⟩ := hoff
  simp only [resetWordNat, hb, if_neg h0, if_neg h4, if_neg h8, if_neg h28]

theorem fld_reset {p : BitVec 12} {b : Block} {f : FieldDef} (hb : pageBlock p.toNat = some b) (hf : f ∈ blockFields b)
    (hne : f ≠ fStrapsRefclkSrc) : fld State.reset p.toNat f = f.reset % 2 ^ f.width := by
  obtain ⟨hplace, hlt, hreset⟩ := of_decide_eq_true (List.all_eq_true.mp (blockFields_resetsAsTabled b) f hf)
  by_cases hkey : regKey p.toNat f.off = 0x1100
  · obtain ⟨hpage, hoff⟩ := regKey_inj (p := 1) (o := 0x100) (by decide) hlt hkey
    rw [hpage] at hb
    obtain rfl : Block.straps = b := Option.some.inj hb
    have hstrap := of_decide_eq_true (List.all_eq_true.mp straps_reset f hf) hoff hne
    rw [fld, hpage, hoff, regWord_reset_straps]
    exact hstrap
  · rw [fld, regWord_reset hkey, regDefault_regKey hlt, resetWordNat_field hb hplace, hreset]

/-- TYPE and INSTANCE fit their word. -/
theorem blockId_lt (b : Block) {page : Nat} (h : page < 4096) : blockId b page < 2 ^ 32 := by
  have hbound : 0x13 + (page + 3) * 2 ^ 16 < 2 ^ 32 := by omega
  refine Nat.lt_of_le_of_lt ?_ hbound
  unfold blockId
  refine Nat.add_le_add ?_ (Nat.mul_le_mul_right _ ?_)
  · cases b <;> dsimp only <;> decide
  · cases b <;> dsimp only <;> omega

theorem regWord_reset_header {p : BitVec 12} {b : Block} (hb : pageBlock p.toNat = some b) :
    (regWord State.reset p.toNat 0).toNat = blockId b p.toNat ∧ regWord State.reset p.toNat 4 = 0x100 := by
  have hkey (off : Nat) (h : off < 8) : regKey p.toNat off ≠ 0x1100 := fun hkey =>
    absurd (regKey_inj (p := 1) (o := 0x100) (by decide) (by omega) hkey).2 (by omega)
  constructor
  · rw [regWord_reset (hkey 0 (by decide)), regDefault_regKey (by decide), BitVec.toNat_ofNat, Nat.mod_eq_of_lt] <;>
      simp only [resetWordNat, hb, if_true]
    exact blockId_lt b p.isLt
  · rw [regWord_reset (hkey 4 (by decide)), regDefault_regKey (by decide)]
    simp only [resetWordNat, hb]
    rfl

theorem wideVal_reset {p : BitVec 12} {b : Block} {d : WideDef} (hb : pageBlock p.toNat = some b) (hd : d ∈ blockWides b) :
    (wideVal State.reset p.toNat d).toNat = d.reset := by
  obtain ⟨hfind, hvid, hlt⟩ := of_decide_eq_true (List.all_eq_true.mp (blockWides_wideTabled b) d hd)
  have hpage : (p.toNat * 65536 + d.vid) / 65536 = p.toNat := by omega
  have hid : (p.toNat * 65536 + d.vid) % 65536 = d.vid := by omega
  have hval : wideVal State.reset p.toNat d = BitVec.ofNat 256 d.reset := by
    change wideDefault (wideKey p.toNat d.vid) = _
    simp only [wideDefault, wideKey, hpage, hid, hb, hfind]
  rw [hval, BitVec.toNat_ofNat, Nat.mod_eq_of_lt hlt]

/-- Settles O4: the tables are checked block by block; the rest of the state at reset is written out in the model. -/
theorem resetState : Obligations.ResetState :=
  ⟨fun _ _ _ hb hf hne => fld_reset hb hf hne, by decide, fun _ _ hb => regWord_reset_header hb, fun _ _ _ hb hd => wideVal_reset hb hd,
    by decide +kernel, rfl, rfl, fun _ => ⟨rfl, rfl⟩, rfl, rfl, rfl⟩

end Sys2Proof.Machine
end

section
/-!
No command stops the block but for the two that name a page (R46, R60).
-/

namespace Sys2Proof.Machine

theorem exec_voteScan (p : BitVec 12) (s : State) : exec (.voteScan p) s =
    if (pageBlock p.toNat).isNone then .fault .noSuchUnit
    else .next (((s.triple.filter (fun e => e.1 / 4096 == p.toNat)).map (·.1)).foldl voteKey s) := rfl

/-- Every other command ends in a next state, whatever the state in which it runs. -/
theorem completes_exec (c : Instr) (s : State) (hscan : ∀ p, c ≠ .voteScan p) (hnotify : ∀ p, c ≠ .eventNotify p) :
    completes (exec c s) = true := by
  cases c with
  | voteScan p => exact absurd rfl (hscan p)
  | eventNotify p => exact absurd rfl (hnotify p)
  | joinReq pk =>
    change completes (execJoinReq pk s) = true
    unfold execJoinReq
    split <;> rfl
  | _ => rfl

/-- An answer that is a fault where a page is not mapped, and a next state where it is. -/
theorem faults_iff_unmapped {o : Host.Outcome State Fault Refusal} {page : Nat} {t : State}
    (h : o = if (pageBlock page).isNone then .fault .noSuchUnit else .next t) :
    (o = .fault .noSuchUnit ↔ pageBlock page = none) ∧ (completes o = true ↔ pageBlock page ≠ none) := by
  subst h
  cases pageBlock page with
  | none => exact ⟨⟨fun _ => rfl, fun _ => rfl⟩, ⟨(nomatch ·), fun hne => absurd rfl hne⟩⟩
  | some b => exact ⟨⟨(nomatch ·), (nomatch ·)⟩, ⟨fun _ => Option.some_ne_none b, fun _ => rfl⟩⟩

/-- Settles O3: a case for every command; the two that name a page ask first whether it is mapped. -/
theorem onlyUnmappedPagesFault : Obligations.OnlyUnmappedPagesFault :=
  ⟨completes_exec, fun p s => faults_iff_unmapped (exec_voteScan p s), fun p s => faults_iff_unmapped (o := exec (.eventNotify p) s) rfl⟩

end Sys2Proof.Machine
end

section
/-!
What a tile instruction leaves unchanged (R137, R139, R142, R143, R174): the correction of the bits that it meets as it is read, the move to
the next instruction, and the end of a tile that breaks a rule.
-/

namespace Sys2Proof.Machine

/-! ### What an instruction on registers may change -/

/-- `t` differs from `s` in core `g`, in the health monitor and in REG_CE_COUNT and EVENT of the core's page only, and core `g` in its tile and in
its flipped bits only. -/
structure SeqFrame (g : Nat) (s t : State) : Prop where
  rest : t = { s with regs := t.regs, health := t.health, cores := t.cores }
  others : ∀ h, h ≠ g → coreOf t h = coreOf s h
  own : coreOf t g = { coreOf s g with tile := (coreOf t g).tile, soft := (coreOf t g).soft }
  regs : ∀ q o, o < 4096 → q ≠ pgCore g ∨ (o ≠ 0x24 ∧ o ≠ fCoreRegCeCount.off) → regWord t q o = regWord s q o

theorem SeqFrame.refl (g : Nat) (s : State) : SeqFrame g s s := ⟨rfl, fun _ _ => rfl, rfl, fun _ _ _ _ => rfl⟩

theorem SeqFrame.trans {g : Nat} {s t u : State} (hst : SeqFrame g s t) (htu : SeqFrame g t u) : SeqFrame g s u where
  rest := by rw [htu.rest, hst.rest]
  others h hne := (htu.others h hne).trans (hst.others h hne)
  own := by rw [htu.own, hst.own]
  regs q o ho hq := (htu.regs q o ho hq).trans (hst.regs q o ho hq)

theorem SeqFrame.setCore {g : Nat} {s : State} {c : Core} (hc : c = { coreOf s g with tile := c.tile, soft := c.soft }) :
    SeqFrame g s (setCore s g c) where
  rest := rfl
  others h hne := coreOf_setCore_other hne s c
  own := by rw [coreOf_setCore_same]; exact hc
  regs _ _ _ _ := rfl

theorem SeqFrame.setTile (g : Nat) (s : State) (t : Tile) : SeqFrame g s (setTile s g t) := .setCore rfl

theorem SeqFrame.noteInput (g : Nat) (s : State) (i n : Nat) : SeqFrame g s (noteInput s i n) :=
  ⟨rfl, fun _ _ => rfl, rfl, fun _ _ _ _ => rfl⟩

theorem SeqFrame.setRegWord {g : Nat} (s : State) {off : Nat} (hoff : off = 0x24 ∨ off = fCoreRegCeCount.off) (w : Word) :
    SeqFrame g s (setRegWord s (pgCore g) off w) where
  rest := rfl
  others _ _ := rfl
  own := rfl
  regs q o ho hq := by
    have hlt : off < 4096 := by rcases hoff with h | h <;> rw [h] <;> decide
    refine regWord_setRegWord_other (fun hkey => ?_) s w
    obtain ⟨rfl, rfl⟩ := regKey_inj hlt ho hkey
    exact hq.elim (fun h => h rfl) fun ⟨h24, hce⟩ => hoff.elim h24 hce

theorem SeqFrame.bump (g : Nat) (s : State) : SeqFrame g s (bump s (pgCore g) fCoreRegCeCount) :=
  .setRegWord s (.inr rfl) _

theorem SeqFrame.raise (g : Nat) (s : State) (e : Nat) : SeqFrame g s (raise s (pgCore g) e) := .setRegWord s (.inl rfl) _

theorem SeqFrame.regCe (g : Nat) (s : State) : SeqFrame g s (regCe s g) :=
  ((SeqFrame.bump g s).trans (.noteInput g _ 3 1)).trans (.raise g _ evCoreRegCe)

/-! ### The bits that an instruction meets -/

/-- Whether a flipped bit lies in the instruction buffer or in a register. -/
def inSequencer : SoftError → Bool
  | .code _ | .scalar _ | .vector _ _ => true
  | .cache _ | .acc _ _ _ _ => false

theorem SeqFrame.countSoft {g : Nat} (s : State) {e : SoftError} (h : inSequencer e = true) : SeqFrame g s (countSoft s g e) := by
  cases e with
  | cache w => exact nomatch h
  | acc a slot row i => exact nomatch h
  | code i => exact .regCe g s
  | scalar r => exact .regCe g s
  | vector r i => exact .regCe g s

theorem SeqFrame.countSofts {g : Nat} (l : List SoftError) (h : ∀ e ∈ l, inSequencer e = true) (s : State) :
    SeqFrame g s (l.foldl (fun s e => Machine.countSoft s g e) s) := by
  induction l generalizing s with
  | nil => exact .refl g s
  | cons e l ih => exact (SeqFrame.countSoft s (h e (.head _))).trans (ih (fun x hx => h x (.tail _ hx)) _)

theorem SeqFrame.meet {g : Nat} (s : State) {p : SoftError → Bool} (hp : ∀ e, p e = true → inSequencer e = true) :
    SeqFrame g s (meet s g p) := by
  unfold Machine.meet
  dsimp only
  split
  · exact (SeqFrame.setCore rfl).trans (.countSofts _ (fun e he => hp e (List.mem_filter.mp he).2) _)
  · exact .refl g s

/-- What an instruction names as its sources lies in the register files. -/
theorem inSequencer_of_inSources {op : Nat} {f : TileFields} {e : SoftError} (h : inSources op f e = true) : inSequencer e = true := by
  cases e with
  | code i => rfl
  | scalar r => rfl
  | vector r i => rfl
  | cache w => simp [inSources, inScalar, inVector] at h
  | acc a slot row i => simp [inSources, inScalar, inVector] at h

theorem SeqFrame.meetFiles {g : Nat} (s : State) (t : Tile) {p : SoftError → Bool} (hp : ∀ e, p e = true → inSequencer e = true) :
    SeqFrame g s (meetFiles s g t p).1 := by
  unfold Machine.meetFiles
  split
  · exact (SeqFrame.countSofts _ (fun e he => hp e (List.mem_filter.mp he).2) s).trans (.setTile g _ _)
  · exact .refl g s

theorem SeqFrame.readSources (g : Nat) (s : State) (t : Tile) (i : TileWord) : SeqFrame g s (readSources s g t i).1 := by
  have hword : SeqFrame g s (Machine.meet s g (fun e => match e with
    | .code k => decide (k.val = t.ctx.pc)
    | _ => false)) := .meet s fun e he => by
      cases e with
      | code k => rfl
      | _ => exact nomatch he
  unfold Machine.readSources
  dsimp only
  split
  · exact hword.trans (.meetFiles _ t fun e => inSequencer_of_inSources)
  · exact hword

/-! ### A tile that ends -/

theorem coreOf_recordFail (s : State) (g cause pc addr code : Nat) (ref : Word) (h : Nat) :
    coreOf (recordFail s g cause pc addr code ref) h = coreOf s h := by
  simp only [coreOf, recordFail, raise_cores, bump_cores, setWide_cores, setFld_cores]

theorem endRunning_tile (c : Core) : (endRunning c).tile = none := by
  unfold endRunning
  split
  · assumption
  · rfl

/-- A tile that fails is gone. -/
theorem tile_tileFail (s : State) (g cause pc addr code : Nat) : (coreOf (tileFail s g cause pc addr code) g).tile = none := by
  unfold tileFail
  split
  · assumption
  · dsimp only
    have hreport (s : State) (k : EndKind) (entry : Nat) : coreOf (addReport s g k entry) g = coreOf s g := rfl
    rw [hreport, coreOf_recordFail, coreOf_setCore_same, endRunning_tile]

/-- A tile that goes on has the registers that its instruction left. -/
theorem moveOn_of_tile {s : State} {g pc : Nat} {t : Tile} {x : Ctx} (h : (coreOf (moveOn s g t pc x) g).tile ≠ none) :
    moveOn s g t pc x = tileAt s g t x := by
  by_cases hx : x.pc ≥ t.task.len
  · simp only [moveOn, if_pos hx] at h
    exact absurd (tile_tileFail _ g _ _ _ _) h
  · exact moveOn_lt s g t pc x (Nat.lt_of_not_le hx)

/-- An instruction that does not end its tile: either no tile issues it, and nothing happens, or its effect follows the reading of its
sources. -/
theorem issue_of_tile {s : State} {g op : Nat} {eff : State → Tile → TileWord → State} (h : (coreOf (issue s g op eff) g).tile ≠ none) :
    issue s g op eff = s ∨ ∃ t w, issuing s g = some t ∧
      issue s g op eff = eff (readSources s g t (decodeTile w)).1 (readSources s g t (decodeTile w)).2 (decodeTile w) := by
  unfold issue at *
  split at h
  · exact .inl rfl
  · next t ht =>
    split at h
    · exact absurd (tile_tileFail s g _ _ _ _) h
    · next w hw =>
      dsimp only at *
      split at h
      · split at h
        · next hlisted hlegal => exact .inr ⟨t, w, ht, by simp only [if_pos hlisted, if_pos hlegal]⟩
        · exact absurd (tile_tileFail _ g _ _ _ _) h
      · next hlisted => exact .inl (by simp only [if_neg hlisted])

/-! ### Instructions on registers alone -/

/-- An effect that goes on with other registers or ends the tile. -/
def OnRegisters (g : Nat) (eff : State → Tile → TileWord → State) : Prop :=
  ∀ s t i, (coreOf (eff s t i) g).tile ≠ none → ∃ x, eff s t i = tileAt s g t x

theorem onRegisters_finish (g : Nat) (x : State → Tile → TileWord → Ctx) : OnRegisters g (fun s t i => finish s g t (x s t i)) :=
  fun _ _ _ h => ⟨_, moveOn_of_tile h⟩

theorem onRegisters_moveOn (g : Nat) (x : State → Tile → TileWord → Ctx) :
    OnRegisters g (fun s t i => moveOn s g t t.ctx.pc (x s t i)) :=
  fun _ _ _ h => ⟨_, moveOn_of_tile h⟩

/-- Where one of two effects is chosen, both go on with other registers or end the tile. -/
theorem onRegisters_ite {g : Nat} {p : State → Tile → TileWord → Prop} [∀ s t i, Decidable (p s t i)]
    {e f : State → Tile → TileWord → State} (he : OnRegisters g e) (hf : OnRegisters g f) :
    OnRegisters g (fun s t i => if p s t i then e s t i else f s t i) := by
  intro s t i h
  dsimp only at h ⊢
  split at h
  · next hp => rw [if_pos hp]; exact he s t i h
  · next hp => rw [if_neg hp]; exact hf s t i h

theorem onRegisters_tileFail (g : Nat) (cause pc addr code : State → Tile → TileWord → Nat) :
    OnRegisters g (fun s t i => tileFail s g (cause s t i) (pc s t i) (addr s t i) (code s t i)) :=
  fun s _ _ h => absurd (tile_tileFail s g _ _ _ _) h

/-- What an instruction on registers alone leaves. -/
theorem frame_issue {s : State} {g op : Nat} {eff : State → Tile → TileWord → State} (heff : OnRegisters g eff)
    (h : (coreOf (issue s g op eff) g).tile ≠ none) :
    SeqFrame g s (issue s g op eff) ∧ ((coreOf s g).soft = [] → (∀ k, (coreOf s g).tile = some k → k.ctx.soft = []) →
      (issue s g op eff).regs = s.regs ∧ (issue s g op eff).health = s.health) := by
  obtain hsame | ⟨t, w, ht, heq⟩ := issue_of_tile h
  · rw [hsame]
    exact ⟨.refl g s, fun _ _ => ⟨rfl, rfl⟩⟩
  · rw [heq] at h ⊢
    obtain ⟨x, hx⟩ := heff _ _ _ h
    rw [hx]
    refine ⟨(SeqFrame.readSources g s t _).trans (.setTile g _ _), fun hsoft htile => ?_⟩
    rw [readSources_clean _ hsoft (htile t (issuing_some ht).1)]
    exact ⟨rfl, rfl⟩

theorem onRegisters_loop (g : CoreId) : ∃ eff, OnRegisters g eff ∧ ∀ s, exec (.loop g) s = .next (issue s g 0x03 eff) := by
  have hfail (cause : Nat) : OnRegisters g (fun s t _ => tileFail s g cause t.ctx.pc 0 0) :=
    onRegisters_tileFail g (fun _ _ _ => cause) (fun _ t _ => t.ctx.pc) (fun _ _ _ => 0) fun _ _ _ => 0
  exact ⟨_, onRegisters_ite (hfail causeStack) (onRegisters_ite (hfail causeCodeRange)
    (onRegisters_ite (onRegisters_moveOn g _) (onRegisters_moveOn g _))), fun _ => rfl⟩

theorem onRegisters_call (g : CoreId) : ∃ eff, OnRegisters g eff ∧ ∀ s, exec (.call g) s = .next (issue s g 0x04 eff) :=
  ⟨_, onRegisters_ite (onRegisters_tileFail g (fun _ _ _ => causeStack) (fun _ t _ => t.ctx.pc) (fun _ _ _ => 0) fun _ _ _ => 0)
    (onRegisters_moveOn g _), fun _ => rfl⟩

theorem onRegisters_ret (g : CoreId) : ∃ eff, OnRegisters g eff ∧ ∀ s, exec (.ret g) s = .next (issue s g 0x05 eff) := by
  refine ⟨_, ?_, fun s => rfl⟩
  intro s t i
  dsimp only
  split
  · exact fun h => absurd (tile_tileFail s g _ _ _ _) h
  · exact fun h => ⟨_, moveOn_of_tile h⟩

/-- The command issues an instruction of core `g` on registers alone. -/
def IssuesOnRegisters (g : CoreId) (c : Instr) : Prop :=
  ∃ op eff, OnRegisters g eff ∧ ∀ s, exec c s = .next (issue s g op eff)

theorem issuesOnRegisters (g : CoreId) : ∀ c ∈ [Instr.nop g, .li g, .addi g, .lih g, .time g, .jmp g, .br g, .loop g, .call g, .ret g,
    .vcmp g, .vsel g, .vext g, .mop g, .vbcast g], IssuesOnRegisters g c := by
  have hfinish {c : Instr} {op : Nat} {x : State → Tile → TileWord → Ctx}
      (h : ∀ s, exec c s = .next (issue s g op fun s t i => finish s g t (x s t i))) : IssuesOnRegisters g c :=
    ⟨op, _, onRegisters_finish g x, h⟩
  simp only [List.forall_mem_cons]
  exact ⟨hfinish fun _ => rfl, hfinish fun _ => rfl, hfinish fun _ => rfl, hfinish fun _ => rfl, hfinish fun _ => rfl,
    ⟨_, _, onRegisters_moveOn g _, fun _ => rfl⟩,
    ⟨_, _, onRegisters_ite (onRegisters_moveOn g _) (onRegisters_finish g _), fun _ => rfl⟩,
    ⟨_, onRegisters_loop g⟩, ⟨_, onRegisters_call g⟩, ⟨_, onRegisters_ret g⟩, hfinish fun _ => rfl, hfinish fun _ => rfl,
    hfinish fun _ => rfl, hfinish fun _ => rfl, hfinish fun _ => rfl, fun _ h => absurd h List.not_mem_nil⟩

/-- Settles O15: each of the commands issues an effect that goes on with other registers or ends the tile. -/
theorem registerInstructionFrame : Obligations.RegisterInstructionFrame := by
  intro s t g c hc hexec htile
  obtain ⟨op, eff, heff, hissue⟩ := issuesOnRegisters g c hc
  obtain rfl := Host.Outcome.next.inj ((hissue s).symm.trans hexec)
  obtain ⟨⟨hrest, hothers, hown, hregs⟩, hclean⟩ := frame_issue heff htile
  have hstate {α : Type} (f : State → α) := congrArg f hrest
  have hcore {α : Type} (f : Core → α) := congrArg f hown
  exact ⟨hstate State.wide, hstate State.mem, hstate State.disps, hstate State.ports,
    hstate State.net, hstate State.ledgers, hstate State.upds, hstate State.store,
    hstate State.time, hstate State.mgmt, hstate State.pending, hothers, hcore Core.oc,
    hcore Core.acc, hcore Core.staging, hcore Core.asyncs, hcore Core.passes, hcore Core.shadow,
    fun q o _ ho hq => hregs q o ho hq, hclean⟩

end Sys2Proof.Machine
end

section
/-!
What SST and VST leave of the operand cache (R139, R143, R174): no byte outside those that they store.
-/

namespace Sys2Proof.Machine

/-! ### Bytes of the operand cache -/

theorem mapGet_ocStore_outside {o a : Nat} (bytes : List Byte) (h : o < a ∨ a + bytes.length ≤ o) (m : SMap Byte) :
    mapGet (fun _ => (0 : Byte)) o (ocStore m a bytes) = mapGet (fun _ => (0 : Byte)) o m := by
  induction bytes generalizing a m with
  | nil => rfl
  | cons b r ih =>
    rw [List.length_cons] at h
    rw [ocStore, ih (by omega), mapGet_mapSet_other (by omega)]

theorem ocByte_ocWrite_outside {o a : Nat} {bytes : List Byte} (h : o < a ∨ a + bytes.length ≤ o) (c : Core) :
    ocByte (ocWrite c a bytes) o = ocByte c o := by
  unfold ocWrite
  split
  · rfl
  · exact mapGet_ocStore_outside bytes h c.oc

/-- The lanes that VST stores: lane `k` of the vector, where its mask bit stands, at the address of that lane. -/
def storeLanes (mask : Dword) (v : Vec) (a : Nat) (lanes : List Nat) (c : Core) : Core :=
  lanes.foldl (fun c k => if mask.getLsbD k then ocWrite c (a + 4 * k) (leBytes 4 (lane v k).toNat) else c) c

theorem ocByte_storeLanes {o a : Nat} {mask : Dword} {v : Vec} {lanes : List Nat}
    (h : ∀ k ∈ lanes, mask.getLsbD k = true → o < a + 4 * k ∨ a + 4 * k + 4 ≤ o) (c : Core) :
    ocByte (storeLanes mask v a lanes c) o = ocByte c o := by
  induction lanes generalizing c with
  | nil => rfl
  | cons k lanes ih =>
    have hrest := ih (fun j hj => h j (.tail _ hj))
    rw [storeLanes, List.foldl_cons, ← storeLanes, hrest]
    split
    · next hk => exact ocByte_ocWrite_outside (by rw [length_leBytes]; exact h k (.head _) hk) c
    · rfl

/-! ### A store of the running tile -/

/-- A store that does not end its tile puts its bytes and goes on. -/
theorem tileStore_of_tile {s : State} {g a align len : Nat} {t : Tile} {free : Bool} {put : Core → Core}
    (h : (coreOf (tileStore s g t a align len free put) g).tile ≠ none) :
    tileStore s g t a align len free put = tileAt (setCore s g (put (coreOf s g))) g t (advance t.ctx) := by
  unfold tileStore at *
  split at h
  · exact absurd (tile_tileFail s g _ _ _ _) h
  · next hok => rw [if_neg hok]; exact moveOn_of_tile h

/-- A store changes the operand cache of its core and nothing else of the module but the tile. -/
theorem tileStore_frame {s : State} {g a align len : Nat} {t : Tile} {free : Bool} {put : Core → Core}
    (h : (coreOf (tileStore s g t a align len free put) g).tile ≠ none) :
    (∀ o, ocByte (coreOf (tileStore s g t a align len free put) g) o = ocByte (put (coreOf s g)) o) ∧
      (tileStore s g t a align len free put).mem = s.mem ∧ (tileStore s g t a align len free put).regs = s.regs ∧
      ∀ k, k ≠ g → coreOf (tileStore s g t a align len free put) k = coreOf s k := by
  rw [tileStore_of_tile h]
  refine ⟨fun o => ?_, rfl, rfl, fun k hk => ?_⟩
  · rw [tileAt, coreOf_setTile_same, coreOf_setCore_same]
    rfl
  · rw [tileAt, setTile, coreOf_setCore_other hk, coreOf_setCore_other hk]

/-- Settles O16: both instructions are one store, and what it puts leaves every other byte. -/
theorem storeInstructionFrame : Obligations.StoreInstructionFrame := by
  constructor
  case left =>
    intro s0 s t g k i hruns hexec htile a
    have hissue : exec (.sst g) s0 = .next (issue s0 g 0x15 _) := rfl
    rw [issue_runs hruns] at hissue
    obtain rfl := Host.Outcome.next.inj (hissue.symm.trans hexec)
    obtain ⟨hbytes, hmem, hregs, hcores⟩ := tileStore_frame htile
    exact ⟨fun o ho => (hbytes o).trans (ocByte_ocWrite_outside (by rw [length_leBytes]; exact ho) _), hmem, hregs, hcores⟩
  case right =>
    intro s0 s t g k i hruns hexec htile a
    have hissue : exec (.vst g) s0 = .next (issue s0 g 0x45 _) := rfl
    rw [issue_runs hruns] at hissue
    obtain rfl := Host.Outcome.next.inj (hissue.symm.trans hexec)
    obtain ⟨hbytes, hmem, hregs, hcores⟩ := tileStore_frame htile
    refine ⟨fun o ho => (hbytes o).trans (ocByte_storeLanes (fun j hj _ => ?_) _), fun j hj hmask b hb => ?_, hmem, hregs, hcores⟩
    · have := List.mem_range.mp hj
      omega
    · refine (hbytes _).trans (ocByte_storeLanes (fun n hn hset => ?_) _)
      have hne : n ≠ j := fun h => by rw [h, hmask] at hset; exact nomatch hset
      omega

end Sys2Proof.Machine
end

section
/-!
The index of a one-time signature (R507): the high mark that is kept before an index is used lies above it, so that the index from which the
module goes on after a power loss does too.
-/

namespace Sys2Proof.Machine

/-! ### Fields of the security page -/

/-- A field of another word reads as before. -/
theorem fld_setFld_otherWord {f g : FieldDef} (hf : f.off < 4096) (hg : g.off < 4096) (hne : g.off ≠ f.off) (s : State) (page v : Nat) :
    fld (setFld s page f v) page g = fld s page g := by
  rw [fld, fld, setFld, regWord_setRegWord_other fun hkey => hne (regKey_inj hf hg hkey).2]

/-- The copy of a fused field in the system area is no register. -/
theorem fld_fuseFld (s : State) (page : Nat) (f : FieldDef) (v q : Nat) (g : FieldDef) : fld (fuseFld s page f v) q g = fld (setFld s page f v) q g :=
  rfl

theorem fuseFld_sec (s : State) (page : Nat) (f : FieldDef) (v : Nat) : (fuseFld s page f v).sec = s.sec := rfl

/-- OTS_NEXT reads what was put into it, as far as its 21 bits hold it. -/
theorem otsNext_fuseFld_same (s : State) {v : Nat} (hv : v < 2 ^ 21) : fld (fuseFld s 2 fSecurityOtsNext v) 2 fSecurityOtsNext = v := by
  rw [fld_fuseFld, fld_setFld_same (by decide)]
  exact Nat.mod_eq_of_lt hv

theorem otsFuses_fuseFld_same (s : State) {v : Nat} (hv : v < 2 ^ 9) : fld (fuseFld s 2 fSecurityOtsFuses v) 2 fSecurityOtsFuses = v := by
  rw [fld_fuseFld, fld_setFld_same (by decide)]
  exact Nat.mod_eq_of_lt hv

theorem otsNext_fuseFld_fuses (s : State) (v : Nat) : fld (fuseFld s 2 fSecurityOtsFuses v) 2 fSecurityOtsNext = fld s 2 fSecurityOtsNext :=
  fld_setFld_otherWord (by decide) (by decide) (by decide) s 2 v

theorem otsFuses_fuseFld_next (s : State) (v : Nat) : fld (fuseFld s 2 fSecurityOtsNext v) 2 fSecurityOtsFuses = fld s 2 fSecurityOtsFuses :=
  fld_setFld_otherWord (by decide) (by decide) (by decide) s 2 v

/-- An event changes no field of another word. -/
theorem fld_raise (s : State) (page e : Nat) {g : FieldDef} (hg : g.off < 4096) (hne : g.off ≠ 0x24) : fld (raise s page e) page g = fld s page g := by
  rw [fld, fld, raise, regWord_setRegWord_other fun hkey => hne (regKey_inj (by decide) hg hkey).2]

/-- The one-time signatures' state: the next index, the high mark and the range of the blown fuses are in order. -/
structure OtsInOrder (s : State) (next : Nat) : Prop where
  next : fld s 2 fSecurityOtsNext = next
  high_le : s.sec.otsHigh ≤ 1048576
  fused : s.sec.otsHigh ≤ 4096 * fld s 2 fSecurityOtsFuses
  fuses_le : fld s 2 fSecurityOtsFuses ≤ 256

theorem OtsInOrder.raiseIf {s : State} {n : Nat} (h : OtsInOrder s n) (c : Bool) (e : Nat) : OtsInOrder (raiseIf c s 2 e) n := by
  cases c with
  | false => exact h
  | true =>
    have hfuses : fld (raise s 2 e) 2 fSecurityOtsFuses = fld s 2 fSecurityOtsFuses := fld_raise s 2 e (by decide) (by decide)
    exact ⟨(fld_raise s 2 e (by decide) (by decide)).trans h.next, h.high_le, hfuses ▸ h.fused, hfuses ▸ h.fuses_le⟩

/-! ### One use of an index -/

/-- Before an index is used the high mark lies above it. -/
theorem otsReserve_inOrder {s : State} {n : Nat} (h : OtsInOrder s n) (hlt : n < 1048576) (hle : n ≤ s.sec.otsHigh)
    (halign : s.sec.otsHigh % 64 = 0) : OtsInOrder (otsReserve s) n ∧ n < (otsReserve s).sec.otsHigh := by
  obtain ⟨hnext, hhigh, hfused, hfuses⟩ := h
  unfold otsReserve
  split
  · next hbelow => exact ⟨⟨hnext, hhigh, hfused, hfuses⟩, hnext ▸ hbelow⟩
  · next hreached =>
    have hmark : s.sec.otsHigh = n := by omega
    dsimp only
    split
    · next hblow =>
      change 4096 * fld s 2 fSecurityOtsFuses < _ at hblow
      have hnew := otsFuses_fuseFld_same (setSec s { s.sec with otsHigh := s.sec.otsHigh + 64 }) (v := fld s 2 fSecurityOtsFuses + 1) (by omega)
      refine ⟨⟨(otsNext_fuseFld_fuses _ _).trans hnext, ?_, ?_, ?_⟩, ?_⟩
      · change s.sec.otsHigh + 64 ≤ _
        omega
      · refine le_trans ?_ (Nat.mul_le_mul_left 4096 hnew.ge)
        change s.sec.otsHigh + 64 ≤ _
        omega
      · refine hnew.le.trans ?_
        omega
      · change n < s.sec.otsHigh + 64
        omega
    · next hcovered =>
      change ¬ 4096 * fld s 2 fSecurityOtsFuses < _ at hcovered
      refine ⟨⟨hnext, ?_, Nat.le_of_not_lt hcovered, hfuses⟩, ?_⟩
      · change s.sec.otsHigh + 64 ≤ _
        omega
      · change n < s.sec.otsHigh + 64
        omega

/-- After an index is used the next one is its successor, and the high mark lies above the index. -/
theorem otsUse_inOrder {s : State} {n : Nat} (h : OtsInOrder s n) (hlt : n < 1048576) (hle : n ≤ s.sec.otsHigh)
    (halign : s.sec.otsHigh % 64 = 0) : (otsUse s).1 = n ∧ OtsInOrder (otsUse s).2 (n + 1) ∧ n < (otsUse s).2.sec.otsHigh := by
  obtain ⟨⟨hnext, hhigh, hfused, hfuses⟩, habove⟩ := otsReserve_inOrder h hlt hle halign
  generalize hr : otsReserve s = r at *
  have hnew := otsNext_fuseFld_same r (v := n + 1) (by omega)
  have hsame := otsFuses_fuseFld_next r (n + 1)
  have hused : OtsInOrder (fuseFld r 2 fSecurityOtsNext (n + 1)) (n + 1) := ⟨hnew, hhigh, hsame ▸ hfused, hsame ▸ hfuses⟩
  have hwarned : OtsInOrder (setSec (fuseFld r 2 fSecurityOtsNext (n + 1)) { r.sec with otsWarned := true }) (n + 1) :=
    ⟨hused.next, hhigh, hused.fused, hused.fuses_le⟩
  unfold otsUse
  rw [hr]
  dsimp only
  rw [hnext]
  refine ⟨rfl, OtsInOrder.raiseIf ?_ _ _, ?_⟩
  · split
    · exact hwarned.raiseIf true evSecurityOtsLow
    · exact hused
  · rw [raiseIf_sec]
    split
    · exact habove
    · exact habove

/-- After a power-on the module goes on from the high mark, or from the end of the range of the blown fuses, which lies no lower. -/
theorem otsBoot_ge {s : State} {n : Nat} (h : OtsInOrder s n) : s.sec.otsHigh ≤ fld (otsBoot s) 2 fSecurityOtsNext := by
  obtain ⟨-, hhigh, hfused, hfuses⟩ := h
  unfold otsBoot
  dsimp only
  split
  · rw [otsNext_fuseFld_same _ (by omega)]
  · rw [otsNext_fuseFld_same _ (by omega)]
    exact hfused

/-- Settles O21: the high mark lies above the index used, and a power-on goes on from no lower than that mark. -/
theorem signatureIndexUsedOnce : Obligations.SignatureIndexUsedOnce := by
  intro s hle hlt hhigh halign hfused hfuses r
  obtain ⟨hindex, horder, habove⟩ := otsUse_inOrder ⟨rfl, hhigh, hfused, hfuses⟩ hlt hle halign
  have hnext : fld r.2 2 fSecurityOtsNext = fld s 2 fSecurityOtsNext + 1 := horder.next
  refine ⟨hindex, ?_, hnext ▸ habove, ?_⟩
  · rw [hnext, hindex]
    exact Nat.lt_succ_self _
  · rw [hindex]
    exact lt_of_lt_of_le habove (otsBoot_ge horder)

end Sys2Proof.Machine
end

section
/-!
Tile instructions that complete (R137, R139, R142, R143, R146, R147, R164 to R168, R173): what each leaves where it is issued and its conditions
hold.
-/

namespace Sys2Proof.Machine

/-! ### Scalars, branches and loops -/

/-- Settles O22: each instruction falls through with its scalar register written. -/
theorem scalarInstructionsComplete : Obligations.ScalarInstructionsComplete := by
  refine ⟨completes_of_issue fun _ _ => rfl, completes_of_issue fun _ _ => rfl, completes_of_issue fun _ _ => rfl,
    completes_of_issue fun _ _ => rfl, completes_of_issue fun _ _ => rfl, ?sop⟩
  intro s0 s g flips t i hruns f x hfits
  have hissue : exec (.sop g flips) s0 = .next (issue (plant s0 g flips) g 0x13 _) := rfl
  rw [hissue, issue_runs hruns]
  exact congrArg _ (finish_fits s g t x hfits)

/-- Where a core issues an instruction, the command is the effect of that instruction on what has been read. -/
theorem exec_of_issue {c : Instr} {s' s0 s : State} {g op : Nat} {t : Tile} {i : TileWord} {eff : State → Tile → TileWord → State}
    (hruns : Runs s0 g op s t i) (h : exec c s' = .next (issue s0 g op eff)) : exec c s' = .next (eff s t i) := by
  rw [h, issue_runs hruns]

section Control
variable {s0 s : State} {g : CoreId} {t : Tile} {i : TileWord}

theorem exec_jmp (hruns : Runs s0 g 0x01 s t i) (htarget : (fieldsOf i).imm < t.task.len) :
    exec (.jmp g) s0 = .next (tileAt s g t (jumpTo t.ctx (fieldsOf i).imm)) := by
  refine (exec_of_issue hruns rfl).trans (congrArg _ ?_)
  exact moveOn_lt s g t t.ctx.pc _ htarget

theorem exec_br_taken (hruns : Runs s0 g 0x02 s t i) (htaken : brFn (fieldsOf i).fn (getS t.ctx (fieldsOf i).a) (getS t.ctx (fieldsOf i).b) = true)
    (htarget : (fieldsOf i).imm < t.task.len) : exec (.br g) s0 = .next (tileAt s g t (jumpTo t.ctx (fieldsOf i).imm)) := by
  refine (exec_of_issue hruns rfl).trans (congrArg _ ?_)
  rw [if_pos htaken]
  exact moveOn_lt s g t t.ctx.pc _ htarget

theorem exec_br_not_taken (hruns : Runs s0 g 0x02 s t i)
    (htaken : brFn (fieldsOf i).fn (getS t.ctx (fieldsOf i).a) (getS t.ctx (fieldsOf i).b) = false) (hfits : fits t (advance t.ctx)) :
    exec (.br g) s0 = .next (tileAt s g t (advance t.ctx)) := by
  refine (exec_of_issue hruns rfl).trans (congrArg _ ?_)
  rw [if_neg (Bool.not_eq_true _ ▸ htaken)]
  exact finish_fits s g t t.ctx hfits

theorem exec_call (hruns : Runs s0 g 0x04 s t i) (hdepth : t.ctx.calls.length < 8) (htarget : (fieldsOf i).imm < t.task.len) :
    exec (.call g) s0 = .next (tileAt s g t (jumpTo { t.ctx with calls := (t.ctx.pc + 1) :: t.ctx.calls } (fieldsOf i).imm)) := by
  refine (exec_of_issue hruns rfl).trans (congrArg _ ?_)
  rw [if_neg (Nat.not_le.mpr hdepth)]
  exact moveOn_lt s g t t.ctx.pc _ htarget

theorem exec_ret {r : Nat} {rest : List Nat} (hruns : Runs s0 g 0x05 s t i) (hcalls : t.ctx.calls = r :: rest) (htarget : r < t.task.len) :
    exec (.ret g) s0 = .next (tileAt s g t (jumpTo { t.ctx with calls := rest } r)) := by
  refine (exec_of_issue hruns rfl).trans (congrArg _ ?_)
  rw [hcalls]
  exact moveOn_lt s g t t.ctx.pc _ htarget

/-- What LOOP leaves where its depth and its target are in order (R146). -/
theorem exec_loop (hruns : Runs s0 g 0x03 s t i) (hdepth : t.ctx.loops.length < 4) (hbody : t.ctx.pc + 1 ≤ (fieldsOf i).imm)
    (htarget : (fieldsOf i).imm < t.task.len) (houter : ∀ e, t.ctx.loops.head? = some e → (fieldsOf i).imm ≤ e.last)
    (hlimit : (fieldsOf i).imm ≤ 8192) :
    exec (.loop g) s0 = .next (
      let n := (getS t.ctx (fieldsOf i).a).toNat % 2 ^ 32
      if n = 0 then moveOn s g t t.ctx.pc (advance { t.ctx with pc := (fieldsOf i).imm })
      else moveOn s g t t.ctx.pc { putS t.ctx (fieldsOf i).d 0 with
        pc := t.ctx.pc + 1, loops := ⟨t.ctx.pc + 1, (fieldsOf i).imm, n, 0, (fieldsOf i).d⟩ :: t.ctx.loops }) := by
  have hissue : exec (.loop g) s0 = .next (issue s0 g 0x03 _) := rfl
  refine (exec_of_issue hruns hissue).trans (congrArg _ ?_)
  dsimp only
  rw [if_neg (Nat.not_le.mpr hdepth), if_neg ?inside]
  case inside =>
    cases hloops : t.ctx.loops with
    | nil =>
      dsimp only
      omega
    | cons e r =>
      have hle := houter e (by rw [hloops]; rfl)
      dsimp only
      omega

end Control

/-- Settles O23: the targets lie in the image, so that the tile goes on there. -/
theorem controlInstructionsComplete : Obligations.ControlInstructionsComplete := by
  refine ⟨⟨fun _ _ _ _ _ => exec_jmp, fun _ _ _ _ _ => exec_br_taken, fun _ _ _ _ _ => exec_br_not_taken, fun _ _ _ _ _ => exec_call,
    fun _ _ _ _ _ _ _ => exec_ret⟩, ?loop, ?commit, ?abort⟩
  case commit =>
    intro s0 s g t i hruns
    exact exec_of_issue hruns (eff := fun s t _ => setTile s g { t with phase := .commitWait }) rfl
  case abort =>
    intro s0 s g t i hruns
    exact exec_of_issue hruns (eff := fun s t i => tileFail s g causeAbort t.ctx.pc 0 (fieldsOf i).imm) rfl
  intro s0 s g t i hruns hdepth hbody htarget houter hlimit n out
  have hloop := exec_loop hruns hdepth hbody htarget houter hlimit
  refine ⟨fun hzero hfits => ?_, fun hcount hfits => ?_⟩
  · rw [hloop, if_pos hzero, moveOn_lt s g t _ _ hfits]
  · rw [hloop, if_neg hcount, moveOn_lt s g t _ _ hfits]

/-! ### The operand cache and the registers of pages -/

theorem inOc_eq_true {a len : Nat} (h : a + len ≤ ocSize) : inOc a len = true := decide_eq_true h

/-- An aligned access within the cache is not refused (R139). -/
theorem not_refused {a align len : Nat} (halign : a % align = 0) (hrange : a + len ≤ ocSize) : ¬ (a % align ≠ 0 ∨ (!inOc a len) = true) := by
  rw [inOc_eq_true hrange, halign]
  decide

/-- A store within the cache that the window of a pre-emption admits. -/
theorem tileStore_fits {s : State} {g a align len : Nat} {t : Tile} {free : Bool} {put : Core → Core} (halign : a % align = 0)
    (hrange : a + len ≤ ocSize) (hfree : free = true) (hfits : fits t (advance t.ctx)) :
    tileStore s g t a align len free put = tileAt (setCore s g (put (coreOf s g))) g t (advance t.ctx) := by
  subst hfree
  unfold tileStore
  rw [if_neg (fun h => h.elim (· halign) fun h => h.elim (by simp [inOc_eq_true hrange]) (by simp))]
  exact finish_fits _ g t t.ctx hfits

/-- Settles O24: the address, the range and the window are in order, and the tile falls through. -/
theorem scalarMemoryInstructionsComplete : Obligations.ScalarMemoryInstructionsComplete := by
  refine ⟨⟨?sld, ?sst⟩, ?rdreg, ?wrreg⟩
  case sld =>
    intro s0 s g t i hruns f a n x halign hrange hfits
    have hissue : exec (.sld g) s0 = .next (issue s0 g 0x14 _) := rfl
    refine (exec_of_issue hruns hissue).trans (congrArg _ ?_)
    exact (if_neg (not_refused halign hrange)).trans (finish_fits _ g t x hfits)
  case sst =>
    intro s0 s g t i hruns f a n halign hrange hguard hfits
    have hissue : exec (.sst g) s0 = .next (issue s0 g 0x15 _) := rfl
    refine (exec_of_issue hruns hissue).trans (congrArg _ ?_)
    exact tileStore_fits halign hrange hguard hfits
  case rdreg =>
    intro s0 s g t i o w u hruns hoff hget x hfits
    have hissue : exec (.rdreg g) s0 = .next (issue s0 g 0x16 _) := rfl
    refine (exec_of_issue hruns hissue).trans (congrArg _ ?_)
    simp only [hoff, hget]
    exact finish_fits u g t x hfits
  case wrreg =>
    intro s0 s g t i o u hruns hoff hput hfits
    have hissue : exec (.wrreg g) s0 = .next (issue s0 g 0x17 _) := rfl
    refine (exec_of_issue hruns hissue).trans (congrArg _ ?_)
    simp only [hoff, hput, if_true]
    exact finish_fits u g t t.ctx hfits

/-! ### Vectors -/

/-- Settles O25: each instruction falls through with its result register written and its counts added. -/
theorem vectorInstructionsComplete : Obligations.VectorInstructionsComplete :=
  ⟨⟨completes_of_issue fun _ _ => rfl, completes_of_issue fun _ _ => rfl, completesReg_vext, completes_of_issue fun _ _ => rfl⟩,
    ⟨completes_vop, completes_of_issue fun _ _ => rfl, completes_of_issue fun _ _ => rfl⟩,
    completes_of_issue fun _ _ => rfl, completes_of_issue fun _ _ => rfl⟩

/-! ### Vectors in the operand cache -/

theorem exec_vld {s0 s : State} {g : CoreId} {flips : List SoftError} {t : Tile} {i : TileWord} {a : Nat} {x : Ctx}
    (hruns : Runs (plant s0 g flips) g 0x44 s t i) (ha : a = regImm t.ctx (fieldsOf i).a (fieldsOf i).imm) (halign : a % 16 = 0)
    (hrange : a + 256 ≤ ocSize)
    (hx : x = putV t.ctx (fieldsOf i).d (maskVec (getM t.ctx (fieldsOf i).mask) (fieldsOf i).mz (getV t.ctx (fieldsOf i).d)
      (lane (vecOf (lane (vecOfBytes (ocRead (coreOf s g) a 256))))))) (hfits : fits t (advance x)) :
    exec (.vld g flips) s0 = .next (tileAt (meetOc s g a 256) g t (advance x)) := by
  have hissue : exec (.vld g flips) s0 = .next (issue (plant s0 g flips) g 0x44 _) := rfl
  refine (exec_of_issue hruns hissue).trans (congrArg _ ?_)
  dsimp only
  subst hx ha
  rw [if_neg (not_refused halign hrange)]
  exact finish_fits _ g t _ hfits

/-- VQUANT after its checks: the row is written, or read back, and its results are counted (R147). -/
theorem exec_vquant {s0 s u : State} {g : CoreId} {t : Tile} {i : TileWord} {q : QDesc} {fn row qa ta val scl side n rowLen valLen sclLen sideLen : Nat}
    (hruns : Runs s0 g 0x4A s t i) (hfn : fn = (fieldsOf i).fn) (hrow : row = (getS t.ctx (fieldsOf i).a).toNat)
    (hqa : qa = (getS t.ctx (fieldsOf i).b).toNat) (hta : ta = (getS t.ctx (fieldsOf i).c).toNat)
    (hu : u = meetOc (meetOc s g qa 32) g ta 16) (hqalign : qa % 32 = 0) (hqrange : qa + 32 ≤ ocSize) (htalign : ta % 16 = 0)
    (htrange : ta + 16 ≤ ocSize) (hparse : parseQDesc (ocRead (coreOf s g) qa 32) = some q)
    (htarget : targetRecord (ocNat (coreOf s g) ta 16) = some (val, scl, side, n))
    (hrowLen : rowLen = if fn % 2 = 1 then 2 * n else 4 * n) (hvalLen : valLen = 16 * ((n + 31) / 32)) (hsclLen : sclLen = 2 * ((n + 31) / 32))
    (hsideLen : sideLen = if (fn ≤ 1 ∨ 4 ≤ fn) ∧ 0 < q.cap then 4 * q.cap * ((n + 255) / 256) else 0)
    (hrowIn : row + rowLen ≤ ocSize) (hvalIn : val + valLen ≤ ocSize) (hsclIn : scl + sclLen ≤ ocSize)
    (hsideIn : 0 < sideLen → side + sideLen ≤ ocSize)
    (hwrite : fn ≤ 1 → guardOk u g (coreOf s g) val valLen = true ∧ guardOk u g (coreOf s g) scl sclLen = true ∧
      (sideLen = 0 ∨ guardOk u g (coreOf s g) side sideLen = true))
    (hread : 1 < fn → guardOk u g (coreOf s g) row rowLen = true) (hfits : fits t (advance t.ctx)) :
    exec (.vquant g) s0 = .next (
      let v := (if fn ≤ 1 then [(row, rowLen)] else [(val, valLen), (scl, sclLen), (side, sideLen)]).foldl
        (fun w r => meetOc w g r.1 r.2) u
      let r := vquantRow (coreOf v g) t fn q row val scl side n
      tileAt (addCounts (setCore v g r.1) g r.2) g t (advance t.ctx)) := by
  have hissue : exec (.vquant g) s0 = .next (issue s0 g 0x4A _) := rfl
  refine (exec_of_issue hruns hissue).trans (congrArg _ ?_)
  have hside : ¬ (0 < sideLen ∧ (!inOc side sideLen) = true) := fun h => by
    have hin := inOc_eq_true (hsideIn h.1)
    simp [hin] at h
  have hval : ¬ (fn ≤ 1 ∧ (!guardOk u g (coreOf s g) val valLen) = true) := fun h => by simp [(hwrite h.1).1] at h
  have hscl : ¬ (fn ≤ 1 ∧ (!guardOk u g (coreOf s g) scl sclLen) = true) := fun h => by simp [(hwrite h.1).2.1] at h
  have hlist : ¬ (fn ≤ 1 ∧ 0 < sideLen ∧ (!guardOk u g (coreOf s g) side sideLen) = true) := fun ⟨hf, hl, hg⟩ => by
    rcases (hwrite hf).2.2 with h | h
    · omega
    · simp [h] at hg
  have hback : ¬ (1 < fn ∧ (!guardOk u g (coreOf s g) row rowLen) = true) := fun h => by simp [hread h.1] at h
  have hin {a len : Nat} (h : a + len ≤ ocSize) : ¬ (!inOc a len) = true := by simp [inOc_eq_true h]
  subst hu hfn hrow hqa hta hrowLen hvalLen hsclLen hsideLen
  dsimp only
  rw [if_neg (not_refused hqalign hqrange), if_neg (not_refused htalign htrange), hparse]
  dsimp only
  rw [htarget]
  dsimp only
  rw [if_neg (hin hrowIn), if_neg (hin hvalIn), if_neg (hin hsclIn), if_neg hside, if_neg hval, if_neg hscl, if_neg hlist, if_neg hback]
  exact finish_fits _ g t t.ctx hfits

/-- Settles O26: the addresses, the descriptor, the target record and the windows are in order, and the tile falls through. -/
theorem vectorMemoryInstructionsComplete : Obligations.VectorMemoryInstructionsComplete := by
  refine ⟨⟨?vld, ?vst⟩, ?vquant⟩
  case vld =>
    intro s0 s g flips t i hruns f a v x halign hrange hfits
    exact exec_vld hruns rfl halign hrange rfl hfits
  case vst =>
    intro s0 s g t i hruns f a v halign hrange hguard hfits
    have hissue : exec (.vst g) s0 = .next (issue s0 g 0x45 _) := rfl
    refine (exec_of_issue hruns hissue).trans (congrArg _ ?_)
    exact tileStore_fits halign hrange hguard hfits
  case vquant =>
    intro s0 s g t i q val scl side n hruns f c row qa ta u rowLen valLen sclLen sideLen hqalign hqrange htalign htrange hparse htarget hrow
      hval hscl hside hwrite hread hfits
    exact exec_vquant hruns rfl rfl rfl rfl rfl hqalign hqrange htalign htrange hparse htarget rfl rfl rfl rfl hrow hval hscl hside hwrite
      hread hfits

end Sys2Proof.Machine
end

section
/-!
Copies, indexed accesses, atomics and waits of a tile (R139, R142, R144, R148, R149 to R151, R176, R177, R180).
-/

namespace Sys2Proof.Machine

/-! ### Staged writes -/

/-- With room in the staging list an entry joins it and the tile falls through. -/
theorem stage_room {s : State} {g : Nat} {t : Tile} (e : Staged) (hroom : (coreOf s g).staging.length < 256) (hfits : fits t (advance t.ctx)) :
    stage s g t e = tileAt (setCore s g { coreOf s g with staging := (coreOf s g).staging ++ [⟨e, false⟩] }) g t (advance t.ctx) := by
  unfold stage
  exact (if_neg (Nat.not_le.mpr hroom)).trans (finish_fits _ g t t.ctx hfits)

theorem stageCopy_room {s : State} {g src len : Nat} {t : Tile} (e : Staged) (hlen : copyLenOk len = true) (halign : src % 16 = 0)
    (hrange : src + len ≤ ocSize) (hroom : (coreOf s g).staging.length < 256) (hfits : fits t (advance t.ctx)) :
    stageCopy s g t src len e =
      tileAt (setCore s g { coreOf s g with staging := (coreOf s g).staging ++ [⟨e, false⟩] }) g t (advance t.ctx) := by
  unfold stageCopy
  rw [if_neg (by simp [hlen]), if_neg (not_refused halign hrange)]
  exact stage_room e hroom hfits

/-! ### Operations in line -/

/-- A copy from this module's bulk memory is put in line where its source lies in it. -/
theorem dmaFromBm_inBulk {s : State} {g tag dst src shown len : Nat} {t : Tile} (halign : src % 16 = 0) (hend : src + len ≤ bulkEnd)
    (hfits : fits t (advance t.ctx)) :
    dmaFromBm s g t tag dst src shown len = tileAt (addOp s g tag t.ctx.pc (.dmaBm dst src len)) g t (advance t.ctx) := by
  unfold dmaFromBm
  exact (if_neg (by omega)).trans (finish_fits _ g t t.ctx hfits)

/-- Settles O27: the checks at issue pass, and the entry or the operation is put in line. -/
theorem copyInstructionsComplete : Obligations.CopyInstructionsComplete := by
  refine ⟨⟨?put, ?fput, ?scatter⟩, ?dma, ?gather, ?atom⟩
  case put =>
    intro s0 s g t i hruns f src len c hlen halign hrange hroom hfits
    have hissue : exec (.put g) s0 = .next (issue s0 g 0x21 _) := rfl
    exact (exec_of_issue hruns hissue).trans (congrArg _ (stageCopy_room _ hlen halign hrange hroom hfits))
  case fput =>
    intro s0 s g t i hruns f src len c hlen halign hrange hroom hfits
    have hissue : exec (.fput g) s0 = .next (issue s0 g 0x22 _) := rfl
    exact (exec_of_issue hruns hissue).trans (congrArg _ (stageCopy_room _ hlen halign hrange hroom hfits))
  case scatter =>
    intro s0 s g t i hruns
    dsimp only
    intro hlists hroom hfits
    have hissue : exec (.scatter g) s0 = .next (issue s0 g 0x51 _) := rfl
    refine (exec_of_issue hruns hissue).trans (congrArg _ ?_)
    exact (if_neg (by simp [hlists])).trans (stage_room _ hroom hfits)
  case dma =>
    intro s0 s g t i hruns
    dsimp only
    intro hroom hlen halign hrange hguard hsrc hfits
    have hissue : exec (.dma g) s0 = .next (issue s0 g 0x20 _) := rfl
    have hdma := exec_of_issue hruns hissue
    dsimp only at hdma
    rw [if_neg (by simp [hroom]), if_neg (by simp [hlen]), if_neg (by simp [halign, inOc_eq_true hrange, hguard])] at hdma
    refine ⟨fun hfn hend => ?bulk, fun hfn hend => ?cache, fun hfn hlt hown hend => ?own, fun hfn hlt hother => ?other⟩
    case bulk =>
      rw [hdma, hfn]
      exact congrArg _ (dmaFromBm_inBulk hsrc hend hfits)
    case cache =>
      rw [hdma, hfn]
      exact congrArg _ ((if_neg (not_refused hsrc hend)).trans (finish_fits _ g t t.ctx hfits))
    case own =>
      rw [hdma, hfn]
      exact congrArg _ ((if_neg (Nat.not_le.mpr hlt)).trans ((if_pos hown).trans (dmaFromBm_inBulk (by omega) hend hfits)))
    case other =>
      rw [hdma, hfn]
      exact congrArg _ ((if_neg (Nat.not_le.mpr hlt)).trans ((if_neg hother).trans ((if_neg (absurd hsrc)).trans (finish_fits _ g t t.ctx hfits))))
  case gather =>
    intro s0 s g t i hruns
    dsimp only
    intro hroom hlists hguard hfits
    have hissue : exec (.gather g) s0 = .next (issue s0 g 0x50 _) := rfl
    have hgather := exec_of_issue hruns hissue
    dsimp only at hgather
    rw [if_neg (by simp [hroom]), if_neg (by simp [hlists]), if_neg (by simp [hguard])] at hgather
    refine ⟨fun hfn => ?_, fun hfn => ?_⟩
    · rw [hgather, if_neg (by omega)]
      exact congrArg _ (finish_fits _ g t t.ctx hfits)
    · rw [hgather, if_pos hfn]
      exact congrArg _ (finish_fits _ g t t.ctx hfits)
  case atom =>
    intro s0 s g t i hruns
    dsimp only
    intro hreplay hroom hlists hfits
    have hissue : exec (.atom g) s0 = .next (issue s0 g 0x52 _) := rfl
    refine (exec_of_issue hruns hissue).trans (congrArg _ ?_)
    dsimp only
    rw [if_neg (by simp [hreplay]), if_neg (by simp [hroom]), if_neg (by simp [hlists])]
    exact finish_fits _ g t t.ctx hfits

/-! ### Waits on operations and passes -/

/-- Reading its sources leaves a core without the pre-emption that would have held the instruction. -/
theorem Runs.preempt_eq_none {s0 s : State} {g op : Nat} {t : Tile} {i : TileWord} (h : Runs s0 g op s t i) :
    (coreOf s g).preempt = none := by
  obtain ⟨-, -, t0, w, hissuing, -, -, hread⟩ := h
  have hframe := SeqFrame.readSources g s0 t0 i
  rw [hread] at hframe
  exact (congrArg Core.preempt hframe.own).trans (issuing_some hissuing).2.2.2.1

/-- A held tile that goes on at once shows no trace of the wait. -/
theorem finish_setTile {s : State} {g : Nat} {t : Tile} (w : Wait) (hfits : fits t (advance t.ctx)) :
    finish (setTile s g { t with wait := w }) g { t with wait := w } t.ctx = tileAt s g t (advance t.ctx) := by
  have hgo := finish_fits (setTile s g { t with wait := w }) g { t with wait := w } t.ctx hfits
  rw [hgo, tileAt, setTile_setTile]
  rfl

section Settle
variable {s : State} {g mask : Nat} {t : Tile} (hpreempt : (coreOf s g).preempt = none)
include hpreempt

theorem settleWait_tags : settleWait (holdAt s g t (.tags mask)) g = if tagBusy (coreOf s g) mask then setTile s g { t with wait := .tags mask }
    else finish (setTile s g { t with wait := .tags mask }) g { t with wait := .tags mask } t.ctx := by
  simp only [settleWait, holdAt, coreOf_setTile_same, hpreempt, Option.isSome_none, Bool.false_eq_true, if_false] <;> rfl

theorem settleWait_passes : settleWait (holdAt s g t (.passes mask)) g =
    if passBusy (coreOf s g) mask then setTile s g { t with wait := .passes mask }
    else finish (setTile s g { t with wait := .passes mask }) g { t with wait := .passes mask } t.ctx := by
  simp only [settleWait, holdAt, coreOf_setTile_same, hpreempt, Option.isSome_none, Bool.false_eq_true, if_false] <;> rfl

end Settle

theorem exec_dwait {s0 s : State} {g : CoreId} {t : Tile} {i : TileWord} (hruns : Runs s0 g 0x23 s t i) :
    (tagBusy (coreOf s g) (fieldsOf i).imm = false → fits t (advance t.ctx) → exec (.dwait g) s0 = .next (tileAt s g t (advance t.ctx))) ∧
    (tagBusy (coreOf s g) (fieldsOf i).imm = true → exec (.dwait g) s0 = .next (setTile s g { t with wait := .tags (fieldsOf i).imm })) := by
  have hissue : exec (.dwait g) s0 = .next (issue s0 g 0x23 _) := rfl
  have hwait := (exec_of_issue hruns hissue).trans (congrArg _ (settleWait_tags hruns.preempt_eq_none))
  refine ⟨fun hfree hfits => ?_, fun hbusy => ?_⟩
  · rw [hwait, if_neg (by simp [hfree]), finish_setTile _ hfits]
  · rw [hwait, if_pos hbusy]

theorem exec_pwait {s0 s : State} {g : CoreId} {t : Tile} {i : TileWord} (hruns : Runs s0 g 0x31 s t i) :
    (passBusy (coreOf s g) (fieldsOf i).imm = false → fits t (advance t.ctx) → exec (.pwait g) s0 = .next (tileAt s g t (advance t.ctx))) ∧
    (passBusy (coreOf s g) (fieldsOf i).imm = true → exec (.pwait g) s0 = .next (setTile s g { t with wait := .passes (fieldsOf i).imm })) := by
  have hissue : exec (.pwait g) s0 = .next (issue s0 g 0x31 _) := rfl
  have hwait := (exec_of_issue hruns hissue).trans (congrArg _ (settleWait_passes hruns.preempt_eq_none))
  refine ⟨fun hfree hfits => ?_, fun hbusy => ?_⟩
  · rw [hwait, if_neg (by simp [hfree]), finish_setTile _ hfits]
  · rw [hwait, if_pos hbusy]

/-! ### Waits on a counter and on the time -/

section Counter
variable {s u : State} {g d addr v : Nat} {t : Tile} {target : Dword} {eq : Bool} {dl : Option Nat} (hread : memReadNat s addr 8 = (u, some v))
include hread

theorem waitcRead_met (hmet : waitcMet eq (BitVec.ofNat 64 v) target = true) (hfits : fits t (advance (putS t.ctx d 0))) :
    waitcRead s g t d addr target eq dl = tileAt u g t (advance (putS t.ctx d 0)) := by
  simp only [waitcRead, hread, hmet, if_true]
  exact finish_fits u g t _ hfits

theorem waitcRead_unmet (hmet : waitcMet eq (BitVec.ofNat 64 v) target = false) :
    waitcRead s g t d addr target eq dl = setTile u g { t with wait := .counter d addr target eq dl } := by
  simp only [waitcRead, hread, hmet, Bool.false_eq_true, if_false, holdAt]

end Counter

/-- The branches of WAITT (R148). -/
theorem exec_waitt {s0 s : State} {g : CoreId} {t : Tile} {i : TileWord} (hruns : Runs s0 g 0x61 s t i) :
    let d := (fieldsOf i).d
    let target := (getS t.ctx (fieldsOf i).a).toNat
    let here := wardTime s (coreWard g)
    (target < here → exec (.waitt g) s0 = .next (finish s g t (putS t.ctx d 1))) ∧
    (target = here → exec (.waitt g) s0 = .next (finish s g t (putS t.ctx d 0))) ∧
    (∀ n, waitLimit s g = some n → here + n < target →
      exec (.waitt g) s0 = .next (finish (raise s (pgCore g) evCoreWaitTimeout) g t (putS t.ctx d 2))) ∧
    (here < target → (∀ n, waitLimit s g = some n → target ≤ here + n) →
      exec (.waitt g) s0 = .next (setTile s g { t with wait := .time d target })) := by
  intro d target here
  have hissue : exec (.waitt g) s0 = .next (issue s0 g 0x61 _) := rfl
  have hwaitt := exec_of_issue hruns hissue
  dsimp only at hwaitt
  refine ⟨fun hpast => ?_, fun hnow => ?_, fun n hlimit hfar => ?_, fun hcome hlimit => ?_⟩
  · rw [hwaitt, if_pos hpast]
  · rw [hwaitt, if_neg (show ¬ target < here by omega), if_neg ?here, if_pos hnow]
    cases waitLimit s g with
    | none => exact Bool.false_ne_true
    | some n =>
      change ¬ decide (target > here + n) = true
      simp only [decide_eq_true_eq]
      omega
  · rw [hwaitt, if_neg (show ¬ target < here by omega), hlimit]
    exact congrArg _ (if_pos (decide_eq_true hfar))
  · rw [hwaitt, if_neg (show ¬ target < here by omega), if_neg ?near, if_neg (show ¬ target = here by omega)]
    · rfl
    · cases hn : waitLimit s g with
      | none => exact Bool.false_ne_true
      | some n =>
        have hle := hlimit n hn
        change ¬ decide (target > here + n) = true
        simp only [decide_eq_true_eq]
        omega

/-- A held wait belongs to a tile that no pre-emption stops. -/
theorem exec_waitcPoll {s : State} {g : CoreId} {t : Tile} {d addr : Nat} {target : Dword} {eq : Bool} {dl : Option Nat}
    (htile : (coreOf s g).tile = some t) (hpreempt : (coreOf s g).preempt = none) (hwait : t.wait = .counter d addr target eq dl) :
    exec (.waitcPoll g) s = .next (waitcRead s g t d addr target eq dl) := by
  change execWaitcPoll g s = _
  simp only [execWaitcPoll, htile, hpreempt, hwait, Option.isSome_none, Bool.false_eq_true, if_false]

theorem exec_waitTimeout {s : State} {g : CoreId} {t : Tile} {d addr dl : Nat} {target : Dword} {eq : Bool}
    (htile : (coreOf s g).tile = some t) (hpreempt : (coreOf s g).preempt = none) (hwait : t.wait = .counter d addr target eq (some dl))
    (hdue : dl ≤ now s) :
    exec (.waitTimeout g) s = .next (finish (raise s (pgCore g) evCoreWaitTimeout) g t (putS t.ctx d 1)) := by
  change execWaitTimeout g s = _
  simp only [execWaitTimeout, htile, hpreempt, hwait, Option.isSome_none, Bool.false_eq_true, if_false, ge_iff_le, hdue, if_true]

theorem exec_waittRelease {s : State} {g : CoreId} {t : Tile} {d target : Nat}
    (htile : (coreOf s g).tile = some t) (hpreempt : (coreOf s g).preempt = none) (hwait : t.wait = .time d target)
    (hdue : target ≤ wardTime s (coreWard g)) : exec (.waittRelease g) s = .next (finish s g t (putS t.ctx d 0)) := by
  change execWaittRelease g s = _
  simp only [execWaittRelease, htile, hpreempt, hwait, Option.isSome_none, Bool.false_eq_true, if_false, ge_iff_le, hdue, if_true]

/-- Settles O28: each wait compares what it names once, and either falls through or holds its tile. -/
theorem waitsComplete : Obligations.WaitsComplete := by
  refine ⟨⟨fun _ _ _ _ _ => exec_dwait, fun _ _ _ _ _ => exec_pwait⟩, ⟨?waitc, ?waitt⟩, ?poll, ?timeout, ?release⟩
  case waitc =>
    intro s0 s u g t i v hruns
    dsimp only
    intro halign hrange hread
    have hissue : exec (.waitc g) s0 = .next (issue s0 g 0x60 _) := rfl
    have hwaitc := exec_of_issue hruns hissue
    dsimp only at hwaitc
    rw [if_neg (by omega)] at hwaitc
    refine ⟨fun hmet hfits => ?_, fun hmet => ?_⟩
    · rw [hwaitc, waitcRead_met hread hmet hfits]
    · rw [hwaitc, waitcRead_unmet hread hmet]
  case waitt =>
    intro s0 s g t i hruns
    obtain ⟨hpast, hnow, hfar, hcome⟩ := exec_waitt hruns
    refine ⟨fun h hfits => ?_, fun h hfits => ?_, fun n hlimit h hfits => ?_, hcome⟩
    · exact (hpast h).trans (congrArg _ (finish_fits s g t _ hfits))
    · exact (hnow h).trans (congrArg _ (finish_fits s g t _ hfits))
    · exact (hfar n hlimit h).trans (congrArg _ (finish_fits _ g t _ hfits))
  case poll =>
    intro s u g t d addr target eq dl v htile hpreempt hwait hread hmet hfits
    rw [exec_waitcPoll htile hpreempt hwait, waitcRead_met hread hmet hfits]
  case timeout =>
    intro s g t d addr target eq dl htile hpreempt hwait hdue hfits
    rw [exec_waitTimeout htile hpreempt hwait hdue, finish_fits _ g t _ hfits]
  case release =>
    intro s g t d target htile hpreempt hwait hdue hfits
    rw [exec_waittRelease htile hpreempt hwait hdue, finish_fits _ g t _ hfits]

end Sys2Proof.Machine
end

section
/-!
Array passes, errors of a core's memories, starts and ends of tiles, and outstanding operations (R100 to R105, R117, R123, R131, R133 to R137, R145,
R149, R152, R155, R156, R173, R177, R180, R531).
-/

namespace Sys2Proof.Machine

/-! ### Instructions on the arrays -/

/-- Settles O29: the descriptor or the rows are in order and free, and the tile falls through. -/
theorem arrayInstructionsComplete : Obligations.ArrayInstructionsComplete := by
  refine ⟨?pass, ?accrd, ?accwr⟩
  case pass =>
    intro s0 s g t i p cv hruns
    dsimp only
    intro halign hrange hcheck htaken hfits
    have hissue : exec (.pass g) s0 = .next (issue s0 g 0x30 _) := rfl
    have hpass := exec_of_issue hruns hissue
    dsimp only at hpass
    rw [if_neg (not_refused halign hrange), hcheck] at hpass
    dsimp only at hpass
    rw [htaken] at hpass
    exact hpass.trans (congrArg _ (finish_fits _ g t t.ctx hfits))
  case accrd =>
    intro s0 s g flips t i ar slot row hruns haddr hfree
    dsimp only
    intro hfits
    have hissue : exec (.accrd g flips) s0 = .next (issue (plant s0 g flips) g 0x32 _) := rfl
    have haccrd := exec_of_issue hruns hissue
    dsimp only at haccrd
    rw [haddr] at haccrd
    dsimp only at haccrd
    rw [hfree] at haccrd
    exact haccrd.trans (congrArg _ (finish_fits _ g t _ hfits))
  case accwr =>
    intro s0 s g t i ar slot row hruns haddr hfree
    dsimp only
    intro hfits
    have hissue : exec (.accwr g) s0 = .next (issue s0 g 0x33 _) := rfl
    have haccwr := exec_of_issue hruns hissue
    dsimp only at haccwr
    rw [haddr] at haccwr
    dsimp only at haccwr
    rw [hfree] at haccwr
    exact haccwr.trans (congrArg _ (finish_fits _ g t t.ctx hfits))

/-! ### Passes, and errors of a core's memories -/

/-- Settles O30: a pass or an action of an array that may go on does; an error of a core that runs a tile abandons it. -/
theorem passAndErrorEventsComplete : Obligations.PassAndErrorEventsComplete := by
  refine ⟨⟨?start, ?complete, ?invDone⟩, ?accUe, ?regUe, ?ocTile, ?ocWindow⟩
  case start =>
    intro s g a p hnext hmay
    change execPassStart g a s = _
    simp only [execPassStart, hnext, hmay, if_true]
  case complete =>
    intro s g a p hfind
    change execPassComplete g a s = _
    simp only [execPassComplete, hfind]
  case invDone =>
    intro s g a ids hfind hdone
    change execAccInvDone g a s = _
    simp only [execAccInvDone, hfind, hdone, Bool.false_eq_true, if_false]
  case accUe =>
    intro s g a slot row htile
    change execAccUe g a slot row s = _
    simp only [execAccUe, Option.isNone_iff_eq_none, htile, if_false]
  case regUe =>
    intro s g htile
    change execRegUe g s = _
    simp only [execRegUe, Option.isNone_iff_eq_none, htile, if_false]
  case ocTile =>
    intro s g o ho htile
    change execOcUe g o .tile s = _
    simp only [execOcUe, Nat.not_le.mpr ho, Option.isNone_iff_eq_none, htile, if_false]
  case ocWindow =>
    intro s g o m ho
    change execOcUe g o (.window m) s = _
    simp only [execOcUe, Nat.not_le.mpr ho, if_false]

/-! ### Starts, suspension and time limits of tiles -/

/-- A tile that has stopped for a pre-emption moves to the shadow, and the pre-empting task starts where no pass of it runs any more (R156). -/
theorem exec_tileSuspend_stopped {s : State} {g : CoreId} {t : Tile} {p : Task × Nat} (htile : (coreOf s g).tile = some t)
    (hpreempt : (coreOf s g).preempt = some p) (hstopped : stopped (coreOf s g) t = true) :
    exec (.tileSuspend g) s = .next (if passesRun (coreOf (toShadow s g t) g) true then toShadow s g t
      else startTile (toShadow s g t) g p.1 p.2) := by
  have hsaved : (coreOf (toShadow s g t) g).tile = none ∧ (coreOf (toShadow s g t) g).shadow.isNone = false := by
    simp only [toShadow, arrEvent, coreOf, raise_cores, setFlag_cores, setCore_cores, mapGet_mapSet_same, Option.isNone_some, and_self]
  obtain ⟨htileGone, hshadow⟩ := hsaved
  change execTileSuspend g s = _
  simp only [execTileSuspend, hpreempt, htile, hstopped, if_true, htileGone, hshadow, Option.isSome_none, Bool.or_self, Bool.false_or]

/-- With no tile on the core the pre-empting task starts once no pass of the saved tile runs. -/
theorem exec_tileSuspend_saved {s : State} {g : CoreId} {t : Tile} {p : Task × Nat} (htile : (coreOf s g).tile = none)
    (hpreempt : (coreOf s g).preempt = some p) (hshadow : (coreOf s g).shadow = some t) (hpasses : passesRun (coreOf s g) true = false) :
    exec (.tileSuspend g) s = .next (startTile s g p.1 p.2) := by
  change execTileSuspend g s = _
  simp only [execTileSuspend, hpreempt, htile, hshadow, hpasses, Option.isSome_none, Option.isNone_some, Bool.or_self, Bool.false_eq_true,
    if_false]

/-- Settles O31: the core's tile, shadow and tasks decide which of the steps it takes. -/
theorem tileStartAndSuspendComplete : Obligations.TileStartAndSuspendComplete := by
  refine ⟨⟨?stop, fun s g t p htile hpreempt hshadow hpasses => exec_tileSuspend_saved htile hpreempt hshadow hpasses, ?resume⟩, ?start, ?load,
    ?limit⟩
  case stop =>
    intro s g t p htile hpreempt hstopped
    refine ⟨fun hpasses => ?_, fun hpasses => ?_⟩
    · rw [exec_tileSuspend_stopped htile hpreempt hstopped, hpasses]
      rfl
    · rw [exec_tileSuspend_stopped htile hpreempt hstopped, if_pos hpasses]
  case resume =>
    intro s g t htile hgiven hpreempt hshadow
    refine ⟨fun hres => ?_, fun hres => ?_⟩
    · change execTileResume g s = _
      simp only [execTileResume, htile, hshadow, hgiven, hpreempt, hres, Option.isSome_none, Bool.or_self, Bool.false_eq_true, if_false, if_true]
    · change execTileResume g s = _
      simp only [execTileResume, htile, hshadow, hgiven, hpreempt, hres, Option.isSome_none, Bool.or_self, Bool.false_eq_true, if_false]
  case start =>
    intro s g k id hgiven htile
    change execTileStart g s = _
    simp only [execTileStart, hgiven, htile, Option.isSome_none, Bool.false_eq_true, if_false]
  case load =>
    intro s g t htile hphase
    change execImageLoadDone g s = _
    simp only [execImageLoadDone, htile, hphase, beq_self_eq_true, if_true]
  case limit =>
    intro s g t htile hphase hlimit hran
    change execTimeLimit g s = _
    simp only [execTimeLimit, htile, beq_iff_eq, hphase, hlimit, Nat.not_le.mpr hran, or_self, if_false]

/-! ### COMMIT and outstanding operations -/

/-- A copy whose data are all there writes them (R149). -/
theorem exec_dmaDone {s u : State} {g : CoreId} {op : Nat} {a : AsyncOp} {l : List (Nat × List Byte)} (hfind : findOp (coreOf s g) op = some a)
    (hkind : ∃ d r n, a.kind = .dmaBm d r n ∨ a.kind = .dmaOc d r n ∨ a.kind = .dmaFab d r n) (hanswered : opAnswered a = true)
    (hdata : opData s g a = (u, .writes l)) : exec (.dmaDone g op) s = .next (dropOp (applyWrites u g l) g op) := by
  change execDmaDone g op s = _
  obtain ⟨d, r, n, hkind | hkind | hkind⟩ := hkind <;>
    simp only [execDmaDone, hfind, hkind, hanswered, hdata, Bool.not_true, Bool.false_eq_true, if_false]

/-- Settles O32: the tile's phase, or the operation's kind and data, decide what the row does. -/
theorem tileEventsComplete : Obligations.TileEventsComplete := by
  refine ⟨⟨?perform, ?commit⟩, fun s u g op a l hfind hkind hanswered hdata => exec_dmaDone hfind hkind hanswered hdata, ?gather, ?atom,
    ?fail, ?suspendedFail⟩
  case perform =>
    intro s u g t htile hphase htags hpasses hentries
    change execCommitPerform g s = _
    simp only [execCommitPerform, htile, hphase, htags, hpasses, hentries, bne_self_eq_false, Bool.false_eq_true, or_self, if_false]
  case commit =>
    intro s g t htile hphase howed
    change execCommitComplete g s = _
    simp only [execCommitComplete, htile, hphase, howed, bne_self_eq_false, Bool.false_eq_true, or_self, if_false]
  case gather =>
    intro s u g op a l fab dst base idx count esize idx64 hfind hkind hanswered hdata
    change execGatherDone g op s = _
    simp only [execGatherDone, hfind, hkind, hanswered, hdata, Bool.not_true, Bool.false_eq_true, if_false]
  case atom =>
    intro s u v g op a fn vals base idx count idx64 hfind hkind hdata
    dsimp only
    intro hupdates
    change execAtomDone g op s = _
    simp only [execAtomDone, hfind, hkind, hdata, hupdates]
  case fail =>
    intro s u g op x a hfind hsusp hfail
    change execAsyncFail g op s = _
    simp only [execAsyncFail, hfind, hsusp, hfail, failOp, Bool.false_eq_true, if_false]
  case suspendedFail =>
    intro s u g op x a hfind hsusp hfail
    change execSuspendedTileFail g op s = _
    simp only [execSuspendedTileFail, hfind, hsusp, hfail, failOp, Bool.not_true, Bool.false_eq_true, if_false, if_true]

end Sys2Proof.Machine
end

section
/-!
The rows of the dispatchers, the copies of the time counter, the reference clock and the barriers (R186, R188 to R190, R194, R196, R198, R201, R203,
R294, R348).
-/

namespace Sys2Proof.Machine

/-! ### Dispatchers -/

/-- A core that may ask does so once for its request and again for each retry (R186). -/
theorem exec_taskRequest {s : State} {g : CoreId} {c : Instr} (hmay : mayAsk s g = true)
    (hc : c = .taskRequest g ∧ (coreOf s g).asked = false ∨ c = .taskAskRetry g ∧ (coreOf s g).asked = true) :
    exec c s = .next (askTask s g) := by
  obtain ⟨rfl, hasked⟩ | ⟨rfl, hasked⟩ := hc
  · change execTaskRequest g s = _
    simp only [execTaskRequest, hmay, hasked, Bool.not_false, Bool.and_self, if_true]
  · change execTaskAskRetry g s = _
    simp only [execTaskAskRetry, hmay, hasked, Bool.and_self, if_true]

/-- Settles O33: the store of the dispatcher, its lists and its reports decide what the row does. -/
theorem dispatcherCommandsComplete : Obligations.DispatcherCommandsComplete := by
  refine ⟨?ask, ⟨?preempt, ?list, ?room, ?release⟩, ?done, ?abandon, ?fail⟩
  case ask =>
    intro s g hmay
    dsimp only
    intro c hc
    refine ⟨fun hnone => ?_, fun e hsome => ?_⟩
    · rw [exec_taskRequest hmay hc, askTask]
      simp only [hnone]
    · rw [exec_taskRequest hmay hc, askTask]
      simp only [hsome]
  case preempt =>
    intro s d e v hen hidle hbest hvictim
    change execPreemptDecision d s = _
    simp only [execPreemptDecision, hen, hidle, hbest, hvictim, Bool.not_true, Bool.or_self, Bool.false_eq_true, if_false]
  case list =>
    intro s d l hawake hfind
    change execListFetch d s = _
    simp only [execListFetch, hawake, if_true, fetchList, hfind]
  case room =>
    intro s d l hawake hfind hroom
    change execStoreRoomFetch d s = _
    simp only [execStoreRoomFetch, hawake, if_true, fetchRemainder, hfind, hroom, if_false]
  case release =>
    intro s d a rest hawake _
    change execReleaseRecord d s = _
    simp only [execReleaseRecord, hawake, if_true]
  case done =>
    intro s u d r e hreport hentry
    refine ⟨fun hadd => ?_, fun hadd => ?_⟩
    · change execTaskDone d s = _
      simp only [execTaskDone, hreport, hentry, hadd, if_true]
    · change execDoneAddError d s = _
      simp only [execDoneAddError, hreport, hentry, hadd, Bool.false_eq_true, if_false]
  case abandon =>
    intro s d r e hreport hentry
    change execAbandonReport d s = _
    simp only [execAbandonReport, hreport, hentry]
  case fail =>
    intro s d r e cause hreport hkind hentry
    change execTaskFailReport d s = _
    unfold execTaskFailReport
    split
    · next hnone => exact nomatch hnone.symm.trans hreport
    · next r' hfirst =>
      obtain rfl := Option.some.inj (hfirst.symm.trans hreport)
      simp only [hentry, hkind]

/-! ### Time and barriers -/

/-- A copy that is put right reads the time base's count (R201). -/
theorem copyTime_corrected (s : State) (k : Nat) : copyTime { s with wardOff := mapErase k s.wardOff } k = now s := by
  simp only [copyTime, now, mapGet_mapErase_same, Int.add_zero, Int.toNat_natCast]
  exact Nat.mod_eq_of_lt s.time.isLt

/-- Settles O34: the arrivals go the path of every packet; the rest is what the row says. -/
theorem timeAndBarrierCommandsComplete : Obligations.TimeAndBarrierCommandsComplete := by
  refine ⟨⟨?bell, fun s c => ⟨_, rfl, rfl, copyTime_corrected s (copyKey c)⟩, ?lost, fun s => rfl⟩, ?arrive, ?barrier, ?resend⟩
  case bell =>
    intro s w hawake
    change execBellRing w s = _
    simp only [execBellRing, hawake, if_true]
  case lost =>
    intro s hhold hsrc
    change execRefclkLost s = _
    simp only [execRefclkLost, hhold, hsrc, Bool.or_self, Bool.false_eq_true, if_false]
  case arrive =>
    intro s pk r harrives hlen haddr haux
    dsimp only
    intro hepoch hmanager hrank hr
    change execBarrierArrive pk s = _
    rw [execBarrierArrive, receive_arrives harrives (by simp [hlen, haddr, haux]), inEpoch_now hepoch]
    simp only [hmanager, ne_eq, not_true_eq_false, hrank, hr, if_false, if_true]
  case barrier =>
    intro s pk harrives hlen
    dsimp only
    intro hepoch
    change execBarrierBell pk s = _
    rw [execBarrierBell, receive_arrives harrives (by simp [hlen]), inEpoch_now hepoch]
  case resend =>
    intro s id t hfind hdue
    change execBarrierResend id s = _
    simp only [execBarrierResend, hfind, Nat.not_lt.mpr hdue, if_false]

end Sys2Proof.Machine
end

section
/-!
The rows of the optical ports (R250, R252, R254, R255, R257, R258, R260 to R262, R264, R265, R268, R269, R272).
-/

namespace Sys2Proof.Machine

/-! ### Codewords -/

/-- A sound codeword on a port that receives is used, and the port's own codeword follows. -/
theorem onCodeword_sound {s : State} {p : Nat} {w : LaneWord} {f : Frame} (hreceiving : receiving s p = true)
    (hheard : hear (portOf s p).rxMap w = .ok f) (use : Frame → State → State) :
    onCodeword s p w use = keepLine s (use f (setPort s p { portOf s p with badRun := 0 })) p := by
  simp only [onCodeword, hreceiving, hheard, Bool.not_true, Bool.false_eq_true, if_false]

theorem onCodeword_bad {s : State} {p : Nat} {w : LaneWord} {why : BadFrame} (hreceiving : receiving s p = true)
    (hheard : hear (portOf s p).rxMap w = .error why) (use : Frame → State → State) :
    onCodeword s p w use = keepLine s (discardFrame s p why) p := by
  simp only [onCodeword, hreceiving, hheard, Bool.not_true, Bool.false_eq_true, if_false]

/-- A DATA frame on a port whose time base runs: its place in the sequence and the room of its channel decide (R257, R258). -/
theorem useData_runs {s : State} {p : Nat} {f : Frame} (htyp : f.typ = 0) (hruns : timeRuns (portState s p) = true) :
    useData p f s = (
      let inOrder := decide (f.seq.toNat = (portOf s p).rxNext)
      if inOrder && overruns s p f then discardFrame s p .overrun else
      let u := useHeader s p f
      if !(timeRuns (portState u p)) then u
      else if inOrder then deliver u p f
      else setPort u p (askReplay (portOf u p))) := by
  simp only [useData, htyp, hruns, ne_eq, not_true_eq_false, Bool.not_true, Bool.false_eq_true, or_self, if_false]

theorem exec_dataFrame {s : State} {p : PortId} {w : LaneWord} {f : Frame} (hreceiving : receiving s p = true)
    (hheard : hear (portOf s p).rxMap w = .ok f) (htyp : f.typ = 0) (hruns : timeRuns (portState s p) = true) :
    let s1 := setPort s p { portOf s p with badRun := 0 }
    let u := useHeader s1 p f
    (f.seq.toNat = (portOf s p).rxNext → overruns s1 p f = true →
      exec (.dataFrame p w) s = .next (keepLine s (discardFrame s1 p .overrun) p)) ∧
    (f.seq.toNat = (portOf s p).rxNext → overruns s1 p f = false → timeRuns (portState u p) = true →
      exec (.dataFrame p w) s = .next (keepLine s (deliver u p f) p)) ∧
    (f.seq.toNat ≠ (portOf s p).rxNext → timeRuns (portState u p) = true →
      exec (.dataFrame p w) s = .next (keepLine s (setPort u p (askReplay (portOf u p))) p)) := by
  intro s1 u
  have hdata : exec (.dataFrame p w) s = .next (keepLine s (useData p f s1) p) :=
    congrArg Host.Outcome.next (onCodeword_sound hreceiving hheard (useData p))
  have hnext : (portOf s1 p).rxNext = (portOf s p).rxNext := by
    simp only [s1, portOf_setPort_same]
  have huse := useData_runs (s := s1) (p := p) (f := f) htyp hruns
  dsimp only at huse
  rw [hnext] at huse
  refine ⟨fun hseq hover => ?_, fun hseq hover hgo => ?_, fun hseq hgo => ?_⟩
  · rw [hdata, huse]
    simp only [hseq, hover, decide_true, Bool.and_self, if_true]
  · rw [hdata, huse]
    simp only [hseq, hover, hgo, u, decide_true, Bool.and_false, Bool.not_true, Bool.false_eq_true, if_false, if_true]
  · rw [hdata, huse]
    simp only [hseq, hgo, u, decide_false, Bool.false_and, Bool.not_true, Bool.false_eq_true, if_false]

theorem exec_timeFrame {s : State} {p : PortId} {w : LaneWord} {f : Frame} {a : BitVec 64} (hreceiving : receiving s p = true)
    (hheard : hear (portOf s p).rxMap w = .ok f) (htyp : f.typ = 2) (hruns : timeRuns (portState s p) = true)
    (hgo : timeRuns (portState (useHeader (setPort s p { portOf s p with badRun := 0 }) p f) p) = true) :
    exec (.timeFrame p w a) s =
      .next (keepLine s (timeFrame (useHeader (setPort s p { portOf s p with badRun := 0 }) p f) p f a.toNat) p) := by
  have htime : exec (.timeFrame p w a) s = .next (keepLine s (useTime p a.toNat f (setPort s p { portOf s p with badRun := 0 })) p) :=
    congrArg Host.Outcome.next (onCodeword_sound hreceiving hheard (useTime p a.toNat))
  have hstart : timeRuns (portState (setPort s p { portOf s p with badRun := 0 }) p) = true := hruns
  rw [htime]
  simp only [useTime, htyp, hstart, hgo, ne_eq, not_true_eq_false, Bool.not_true, Bool.false_eq_true, or_self, if_false, if_true]

/-! ### Lane commands -/

/-- A command of the far side is kept for its boundary while none is kept (R260). -/
theorem laneCommand_kept {s : State} {p code lane : Nat} (hcode : 1 ≤ code ∧ code ≤ 3) (hfree : (portOf s p).cmdIn = none) :
    laneCommand s p code lane = setPort s p { portOf s p with cmdIn := some ⟨code, lane⟩, ackDue := true } := by
  unfold laneCommand
  dsimp only
  rw [if_neg (by omega), if_pos hcode.2, hfree]
  rfl

/-- Settles O36: a port that receives uses the codeword, the command or the boundary. -/
theorem linkFramesComplete : Obligations.LinkFramesComplete := by
  refine ⟨⟨fun s p w f hreceiving hheard htyp hruns => exec_dataFrame hreceiving hheard htyp hruns, ?idle,
    fun s p w f a hreceiving hheard htyp hruns hgo => exec_timeFrame hreceiving hheard htyp hruns hgo, ?bad, ?timeTx, ?replay⟩,
    ?command, ?ack, ?map⟩
  case idle =>
    intro s p w f hreceiving hheard htyp
    change execIdleFrame p w s = _
    rw [execIdleFrame, onCodeword_sound hreceiving hheard, if_pos htyp]
  case bad =>
    intro s p w why hreceiving hheard
    change execFrameDiscard p w s = _
    rw [execFrameDiscard, onCodeword_bad hreceiving hheard]
  case timeTx =>
    intro s p hreceiving hruns hdue
    change execTimeFrameTx p s = _
    simp only [execTimeFrameTx, hreceiving, hruns, hdue, Bool.and_self, if_true]
  case replay =>
    intro s p hactive hreplay hdue
    have hne : (portOf s p).replay.isEmpty = false := by simpa using hreplay
    change execReplayTimeout p s = _
    simp only [execReplayTimeout, hactive, hne, hdue, Bool.not_false, decide_true, Bool.and_self, if_true]
  case command =>
    intro s p lane hreceiving hfree kept
    refine ⟨?_, ?_, ?_⟩
    · change execSwap p lane s = _
      rw [execSwap, if_pos hreceiving, laneCommand_kept (by decide) hfree]
    · change execNarrow p lane s = _
      rw [execNarrow, if_pos hreceiving, laneCommand_kept (by decide) hfree]
    · change execWiden p lane s = _
      rw [execWiden, if_pos hreceiving, laneCommand_kept (by decide) hfree]
  case ack =>
    intro s p c hreceiving hout
    change execCmdAck p s = _
    rw [execCmdAck, if_pos hreceiving]
    simp only [laneCommand, hout, Option.isSome_some, if_true]
    rfl
  case map =>
    intro s p hreceiving
    refine ⟨?_, ?_⟩
    · change execLaneMapChange p .tx s = _
      rw [execLaneMapChange, if_pos hreceiving]
    · change execLaneMapChange p .rx s = _
      rw [execLaneMapChange, if_pos hreceiving]

/-! ### Training, lanes and lasers -/

/-- The spares of a port do not depend on the lines of the network. -/
theorem bestSpare_setNet (s : State) (n : Net) (p : Nat) : bestSpare (setNet s n) p = bestSpare s p := rfl

/-- The bring-in at the head of the lane class starts where its port is ACTIVE and has no command of its own (R265). -/
theorem exec_laneBringIn {s : State} {r : LaneReq} {rest : List LaneReq} {k : Nat} (hidle : s.net.laneRun = none) (hq : s.net.laneQ = r :: rest)
    (hcmd : (portOf s r.port).cmdOut = none) (hactive : portActive s r.port = true) (hspare : bestSpare s r.port = some k) :
    let u := setNet s { s.net with laneQ := rest }
    (∀ l, r.lane = some l → exec .laneBringIn s = .next (setNet (setPort u r.port { portOf s r.port with cmdOut := some ⟨1, l⟩ })
      { u.net with laneRun := some r })) ∧
    (r.lane = none → (portOf s r.port).rxMap.length < 8 →
      exec .laneBringIn s = .next (setNet (setPort u r.port { portOf s r.port with cmdOut := some ⟨3, k⟩ })
        { u.net with laneRun := some r })) := by
  intro u
  refine ⟨fun l hlane => ?_, fun hlane hroom => ?_⟩
  · change Host.Outcome.next (bringInLane s) = _
    simp only [bringInLane, hidle, hq, hcmd, hactive, hlane, bestSpare_setNet, hspare, Option.isSome_none, Bool.not_true, Bool.false_eq_true, or_self, if_false] <;> rfl
  · change Host.Outcome.next (bringInLane s) = _
    simp only [bringInLane, hidle, hq, hcmd, hactive, hlane, bestSpare_setNet, hspare, Nat.not_le.mpr hroom, Option.isSome_none, Bool.not_true,
      Bool.false_eq_true, or_self, if_false] <;> rfl

/-- Settles O37: the state of the port and its light decide what the row does. -/
theorem linkHealthCompletes : Obligations.LinkHealthCompletes := by
  refine ⟨⟨?check, ?recheck, ?train, ?align, ?partner, ?self, ?active, ?down, ?timeout⟩, ?window, ?hard, ?bringIn, ?loss, ?power⟩
  case check =>
    intro s p t hsince hstate hdue
    change execLaserCheckPass p s = _
    simp only [execLaserCheckPass, hsince, hstate, hdue, and_self, if_true]
  case recheck =>
    intro s p hstate hsince hdue
    change execLaserRecheck p s = _
    simp only [execLaserRecheck, hstate, hsince, hdue, and_self, if_true]
  case train =>
    intro s p tx rx hstate
    dsimp only
    refine ⟨fun hwide => ?_, fun hnarrow => ?_⟩
    · change execLaneTrainDone p tx rx s = _
      simp only [execLaneTrainDone, hstate, hwide, ne_eq, not_true_eq_false, Bool.false_eq_true, if_false]
    · change execLaneTrainDone p tx rx s = _
      simp only [execLaneTrainDone, hstate, hnarrow, ne_eq, not_true_eq_false, if_false, if_true]
  case align =>
    intro s p map hstate
    change execAlignDone p map s = _
    simp only [execAlignDone, hstate, ne_eq, not_true_eq_false, if_false]
  case partner =>
    intro s p q hstate hother
    have hself : ¬ (q.id = moduleId s ∧ (!flag s (pgPort p) fPortLoopback) = true) := fun ⟨hid, hloop⟩ =>
      hother.elim (· hid) fun hset => by simp [hset] at hloop
    change execParamFrame p q s = _
    rw [execParamFrame, if_neg (by rw [hstate]; decide), if_neg (absurd hstate), if_neg hself]
  case self =>
    intro s p q hstate hid hloop
    change execParamFrame p q s = _
    rw [execParamFrame, if_neg (by rw [hstate]; decide), if_neg (absurd hstate), if_pos ⟨hid, by rw [hloop]; rfl⟩]
  case active =>
    intro s p q hstate
    change execParamFrame p q s = _
    rw [execParamFrame, if_pos hstate]
  case down =>
    intro s p hstate hen hdue
    change execDownRetry p s = _
    rw [execDownRetry, if_pos ⟨hstate, hen, hdue⟩]
  case timeout =>
    intro s p n hlimit hdue
    change execTrainStateTimeout p s = _
    simp only [execTrainStateTimeout, hlimit, hdue, if_true]
  case window =>
    intro s p l hreceiving
    change execLaneWindow p l s = _
    rw [execLaneWindow, if_pos hreceiving]
  case hard =>
    intro s p k hserved hdead
    change execLaneHardFail p k s = _
    simp only [execLaneHardFail, hserved, hdead, Bool.not_false, Bool.and_self, if_true]
  case bringIn =>
    intro s r rest k hidle hq hcmd hactive hspare
    obtain ⟨hreplace, hwiden⟩ := exec_laneBringIn hidle hq hcmd hactive hspare
    exact ⟨hreplace, fun hlane hroom _ => hwiden hlane hroom⟩
  case loss =>
    intro s p hstate hsince
    change execLaserLoss p s = _
    rw [execLaserLoss, if_pos ⟨hstate, hsince⟩]
  case power =>
    intro s p w hserved
    change execLaserPwrSample p w s = _
    simp only [execLaserPwrSample, hserved, Bool.not_true, Bool.false_eq_true, if_false]

end Sys2Proof.Machine
end

section
/-!
The rows of the transport (R281, R283, R284, R287): requests, responses, forwarding and timeouts.
-/

namespace Sys2Proof.Machine

/-! ### Requests -/

section Requests
variable {s : State} {pk : Packet}

/-- A read request of a legal length that arrives is answered by what the address and the memory say (R283). -/
theorem exec_rdReq (harrives : Arrives s pk kRdReq) (hlen : pk.len = 0) (hepoch : pk.epoch = 0) (hctx : pk.ctx = 0)
    (hbytes : 16 * pk.aux.toNat ≤ 4096) : exec (.rdReq pk) s = .next (
      let u := takeInbox s pk
      match refuseCode u pk.addr.toNat (16 * pk.aux.toNat) with
      | some c => respond u pk kErrResp c []
      | none =>
        let r := memRead u pk.addr.toNat (16 * pk.aux.toNat)
        match r.2 with
        | some b => respond r.1 pk kRdResp 0 b
        | none => respond r.1 pk kErrResp 0x02 []) := by
  change execRdReq pk s = _
  rw [execRdReq, receive_arrives harrives (by simp [hlen, hepoch, hctx])]
  simp only [gt_iff_lt, Nat.not_lt.mpr hbytes, if_false] <;> rfl

/-- A write request that was carried out before is only acknowledged again (R284). -/
theorem exec_wrReq_again (harrives : Arrives s pk kWrReq) (hepoch : pk.epoch = 0) (hctx : pk.ctx = 0)
    (happlied : wasApplied (takeInbox s pk) pk.src pk.msgId = true) :
    exec (.wrReq pk) s = .next (respond (takeInbox s pk) pk kWrAck 0 []) := by
  change execWrReq pk s = _
  rw [execWrReq, receive_arrives harrives (by simp [hepoch, hctx]), if_pos happlied]

theorem exec_wrReq_first {v : State} (harrives : Arrives s pk kWrReq) (hepoch : pk.epoch = 0) (hctx : pk.ctx = 0)
    (happlied : wasApplied (takeInbox s pk) pk.src pk.msgId = false)
    (haccepted : refuseCode (takeInbox s pk) pk.addr.toNat pk.payload.length = none)
    (hwrite : memWrite (takeInbox s pk) pk.addr.toNat pk.payload = (v, true)) :
    exec (.wrReq pk) s = .next (respond (noteApplied v pk.src pk.msgId) pk kWrAck 0 []) := by
  change execWrReq pk s = _
  rw [execWrReq, receive_arrives harrives (by simp [hepoch, hctx])]
  simp only [happlied, haccepted, hwrite, Bool.false_eq_true, if_false, if_true]

end Requests

/-! ### Messages without a response -/

section Timeout
variable {s : State} {d : DieId} {id : BitVec 32} {m : Msg} (hfind : s.net.out.find? (fun m => m.die == d.val && m.pk.msgId == id) = some m)
include hfind

/-- A message whose response is late is sent again while RETRY and the 8 ms allow it (R284). -/
theorem exec_msgTimeout_resend (hdue : m.last + fld s 0x30 fTransportMsgTimeout * 1000 ≤ now s) (hretry : m.resends < fld s 0x30 fTransportRetry)
    (hyoung : now s < m.first + 8000000) : exec (.msgTimeout d id) s = .next (resendMsg s m) := by
  change execMsgTimeout d id s = _
  simp only [execMsgTimeout, hfind, Nat.not_le.mpr hyoung, Nat.not_lt.mpr hdue, ge_iff_le, Nat.not_le.mpr hretry, decide_false, Bool.and_false,
    Bool.false_eq_true, or_self, if_false]

theorem exec_msgTimeout_fail
    (hend : m.last + fld s 0x30 fTransportMsgTimeout * 1000 ≤ now s ∧ fld s 0x30 fTransportRetry ≤ m.resends ∨ m.first + 8000000 ≤ now s) :
    exec (.msgTimeout d id) s = .next (failMsg (raise (bump s 0x30 fTransportMsgFailedCount) 0x30 evTransportMsgFailed) m) := by
  have hlate : ¬ ((!decide (m.first + 8000000 ≤ now s) && decide (now s < m.last + fld s 0x30 fTransportMsgTimeout * 1000)) = true) := by
    simp only [Bool.and_eq_true, Bool.not_eq_true', decide_eq_false_iff_not, decide_eq_true_eq]
    omega
  have hfails : decide (m.first + 8000000 ≤ now s) = true ∨ m.resends ≥ fld s 0x30 fTransportRetry := by
    rw [decide_eq_true_eq]
    omega
  change execMsgTimeout d id s = _
  simp only [execMsgTimeout, hfind]
  rw [if_neg hlate, if_pos hfails]

end Timeout

/-- Settles O38: a packet that arrives is taken by its row; one for another module goes on; a message without a response is timed. -/
theorem transportCompletes : Obligations.TransportCompletes := by
  refine ⟨⟨?read, ?write⟩, ⟨?readResp, ?writeAck, ?errResp⟩, ?forward, ?timeout⟩
  case read =>
    intro s v pk b harrives hlen hepoch hctx hbytes
    have hread := exec_rdReq harrives hlen hepoch hctx hbytes
    refine ⟨fun haccepted hmem => ?_, fun c hrefused => ?_, fun haccepted hmem => ?_⟩
    · rw [hread]
      simp only [haccepted, hmem]
    · rw [hread]
      simp only [hrefused]
    · rw [hread]
      simp only [haccepted, hmem]
  case write =>
    intro s v pk harrives hepoch hctx
    exact ⟨exec_wrReq_first harrives hepoch hctx, exec_wrReq_again harrives hepoch hctx⟩
  case readResp =>
    intro s pk m g op harrives hepoch
    dsimp only
    intro hanswered hkind hlen howner
    change execRdResp pk s = _
    rw [execRdResp, receive_arrives harrives (by simp [hepoch])]
    simp only [hanswered, hkind, hlen, howner, ne_eq, not_true_eq_false, or_self, if_false]
  case writeAck =>
    intro s pk m harrives hepoch hlen
    dsimp only
    intro hanswered hkind
    change execWrAck pk s = _
    rw [execWrAck, receive_arrives harrives (by simp [hepoch, hlen])]
    simp only [hanswered, hkind, ne_eq, not_true_eq_false, if_false]
  case errResp =>
    intro s pk m harrives hepoch hlen
    dsimp only
    intro hfind
    change execErrResp pk s = _
    rw [execErrResp, receive_arrives harrives (by simp [hepoch, hlen])]
    simp only [hfind]
  case forward =>
    intro s pk hother hok
    refine ⟨fun httl => ?_, fun httl => ?_⟩
    · change execPacketForward pk s = _
      simp only [execPacketForward, hother, hok, Nat.not_le.mpr httl, Bool.not_true, Bool.false_eq_true, if_false]
    · change execPacketForward pk s = _
      simp only [execPacketForward, hother, hok, httl, Bool.not_true, Bool.false_eq_true, if_false, if_true]
  case timeout =>
    intro s d id m hfind
    exact ⟨exec_msgTimeout_resend hfind, exec_msgTimeout_fail hfind⟩

end Sys2Proof.Machine
end

section
/-!
The rows of the collectives and of the expert exchanges (R298, R302 to R304, R306 to R309).
-/

namespace Sys2Proof.Machine

/-! ### Packets of a running collective -/

section Running
variable {s : State} {pk : Packet} {c : Coll} {q : Nat}

theorem exec_collReady (harrives : Arrives s pk kCollReady) (hready : readyOk pk = true) (hepoch : pk.epoch = epochNow (takeInbox s pk))
    (hflags : leNat ((pk.payload.drop 4).take 4) = 0 ∨ leNat ((pk.payload.drop 4).take 4) = 2 ∧ c.desc.op = 3)
    (hcoll : collAt (takeInbox s pk) pk.ctx = some c) (hpos : posOf (takeInbox s pk) c pk.src = some q) :
    exec (.collReady pk) s = .next (collPump (takeReady (takeInbox s pk) c q pk) pk.ctx) := by
  have hnoAbort : ¬ leNat ((pk.payload.drop 4).take 4) = 1 := by omega
  have hbroadcast : ¬ (leNat ((pk.payload.drop 4).take 4) = 2 ∧ c.desc.op ≠ 3) := by omega
  change execCollReady pk s = _
  rw [execCollReady, receive_arrives harrives hready, inEpoch_now hepoch]
  simp only [if_neg hnoAbort, hcoll, hpos, if_neg hbroadcast]

theorem exec_collData {v : State} (harrives : Arrives s pk kCollData) (hepoch : pk.epoch = epochNow (takeInbox s pk))
    (happlied : wasApplied (takeInbox s pk) pk.src pk.msgId = false) (hcoll : collAt (takeInbox s pk) pk.ctx = some c)
    (hpos : posOf (takeInbox s pk) c pk.src = some q) (hok : dataOk c q pk = true) (hdata : applyData (takeInbox s pk) c q pk = (v, true)) :
    exec (.collData pk) s = .next (collPump (peerUpd (sendCollAck (noteApplied v pk.src pk.msgId) pk) pk.ctx q (fun p =>
      if c.desc.op = 0 ∧ pk.aux = 1 then { p with got1 := p.got1 + pk.payload.length } else { p with got0 := p.got0 + pk.payload.length }))
      pk.ctx) := by
  change execCollData pk s = _
  rw [execCollData, receive_arrives harrives rfl, inEpoch_now hepoch]
  simp only [happlied, hcoll, hpos, hok, hdata, Bool.not_true, Bool.false_eq_true, if_false, Bool.and_eq_true, decide_eq_true_eq]

theorem exec_collData_again (harrives : Arrives s pk kCollData) (hepoch : pk.epoch = epochNow (takeInbox s pk))
    (happlied : wasApplied (takeInbox s pk) pk.src pk.msgId = true) : exec (.collData pk) s = .next (sendCollAck (takeInbox s pk) pk) := by
  change execCollData pk s = _
  rw [execCollData, receive_arrives harrives rfl, inEpoch_now hepoch, if_pos happlied]

theorem exec_collAck {m : Msg} {id : BitVec 16} {k : Nat} (harrives : Arrives s pk kCollAck) (hlen : pk.len = 0) (haux : pk.aux = 0)
    (hepoch : pk.epoch = epochNow (takeInbox s pk)) (hanswered : answered (takeInbox s pk) pk = some m) (howner : m.owner = .coll id k)
    (haddr : m.pk.addr = pk.addr) : exec (.collAck pk) s = .next (collPump (dropMsg (takeInbox s pk) pk.msgId) id) := by
  change execCollAck pk s = _
  rw [execCollAck, receive_arrives harrives (by simp [hlen, haux]), inEpoch_now hepoch]
  simp only [hanswered, howner, haddr, if_true]

/-- A packet of an exchange, well formed and from a position of the operation that runs, is kept for it (R309). -/
theorem takeExch_running {kind op : Nat} {p : Peer1} {ok : Coll → Peer1 → Bool} (harrives : Arrives s pk kind)
    (hepoch : pk.epoch = epochNow (takeInbox s pk)) (happlied : wasApplied (takeInbox s pk) pk.src pk.msgId = false)
    (hcoll : collAt (takeInbox s pk) pk.ctx = some c) (hpos : posOf (takeInbox s pk) c pk.src = some q)
    (hpeer : c.peers.find? (fun p => p.pos == q) = some p) (hop : c.desc.op = op) (hok : ok c p = true) (f : State → Coll → Peer1 → State) :
    takeExch s pk kind op ok f = collPump (f (noteApplied (takeInbox s pk) pk.src pk.msgId) c p) pk.ctx := by
  rw [takeExch, receive_arrives harrives rfl, inEpoch_now hepoch]
  simp only [happlied, hcoll, hpos, Option.bind_some, hpeer, hop, hok, ne_eq, not_true_eq_false, Bool.not_true, Bool.false_eq_true, or_self,
    if_false]

end Running

/-- Settles O39: a packet of a collective that runs is taken at its position. -/
theorem collectivesComplete : Obligations.CollectivesComplete := by
  refine ⟨⟨?start, fun _ _ _ _ harrives hready => exec_collReady harrives hready, fun _ _ _ _ _ harrives => exec_collData harrives,
    fun _ _ harrives => exec_collData_again harrives, fun _ _ _ _ _ harrives hlen haux => exec_collAck harrives hlen haux, ?ending⟩, ?exch⟩
  case start =>
    intro s c hnext hroom hstarted
    change Host.Outcome.next (tryStartColl s) = _
    simp only [tryStartColl, hnext, ge_iff_le, Nat.not_le.mpr hroom, hstarted, if_false, if_true]
  case ending =>
    intro s id c hfind
    change execCollEnd id s = _
    simp only [execCollEnd, hfind]
  case exch =>
    intro s pk c q p hme hok
    dsimp only
    intro hepoch happlied hcoll hpos hpeer
    refine ⟨fun hkind hop hlist => ?_, fun hkind hop hlist => ?_, fun hkind hop hstream => ?_, fun hkind hop hstream => ?_⟩
    · exact congrArg Host.Outcome.next (takeExch_running ⟨hkind, hme, hok⟩ hepoch happlied hcoll hpos hpeer hop hlist _)
    · exact congrArg Host.Outcome.next (takeExch_running ⟨hkind, hme, hok⟩ hepoch happlied hcoll hpos hpeer hop hlist _)
    · exact congrArg Host.Outcome.next (takeExch_running ⟨hkind, hme, hok⟩ hepoch happlied hcoll hpos hpeer hop hstream _)
    · exact congrArg Host.Outcome.next (takeExch_running ⟨hkind, hme, hok⟩ hepoch happlied hcoll hpos hpeer hop hstream _)

end Sys2Proof.Machine
end

section
/-!
Accesses by address and by page (R7, R8, R33, R46, R50, R51, R55, R56, R60): what each row answers where the access is served, and what an access
that is cut short leaves.
-/

namespace Sys2Proof.Machine

/-! ### Operand-cache windows and bulk memory -/

/-- An address of an operand-cache window that is served lies below the register window. -/
theorem lt_regBase_of_ocAddr {s : State} {a n g o : Nat} (h : ocAddr s a n = some (g, o)) : a < regBase := by
  by_contra hge
  rw [ocAddr_eq_none_of_regBase_le (Nat.le_of_not_lt hge)] at h
  exact nomatch h

/-- Bulk memory ends below the operand-cache windows. -/
theorem ocAddr_eq_none_of_lt_bulkEnd {a : Nat} (h : a < bulkEnd) (s : State) (n : Nat) : ocAddr s a n = none := by
  have hout : ¬ (ocBase ≤ a ∧ a < ocBase + 1216 * 0x200000) := by
    simp only [bulkEnd, ocBase] at h ⊢
    omega
  exact if_neg hout

section Bulk
variable {s u : State} {m : Master} {a n : Nat} (hm : isTile m = false) (hn : n = 1 ∨ n = 2 ∨ n = 4) (hend : a + n ≤ bulkEnd)
include hm hn hend

theorem addrWrite_bulk {value : Nat} (hwrite : memWrite s a (leBytes n value) = (u, true)) : addrWrite s m a (8 * n) value = accepted u := by
  have ha : a < bulkEnd := by omega
  have hreg : a < regBase := lt_trans ha (by decide)
  have hlast : inBulk (a + n - 1) = true := decide_eq_true (by omega)
  simp only [addrWrite, regAddr_eq_none_of_lt_regBase hreg, Nat.mul_div_cancel_left n (by decide : 0 < 8),
    if_neg (not_tile_or_missized hm hn), ocAddr_eq_none_of_lt_bulkEnd ha, show inBulk a = true from decide_eq_true ha, hlast, Bool.and_self,
    if_true, hwrite, accepted]

theorem addrRead_bulk {b : List Byte} (hread : memRead s a n = (u, some b)) : addrRead s m a (8 * n) = { u with resp := .bytes b } := by
  have ha : a < bulkEnd := by omega
  have hreg : a < regBase := lt_trans ha (by decide)
  have hlast : inBulk (a + n - 1) = true := decide_eq_true (by omega)
  simp only [addrRead, regAddr_eq_none_of_lt_regBase hreg, Nat.mul_div_cancel_left n (by decide : 0 < 8),
    if_neg (not_tile_or_missized hm hn), ocAddr_eq_none_of_lt_bulkEnd ha, show inBulk a = true from decide_eq_true ha, hlast, Bool.and_self,
    if_true, hread]

end Bulk

/-! ### Accesses that are cut short -/

/-- The bus error of a master that is no tile program has nothing after it (R57). -/
theorem cutError_eq_busError {m : Master} (hm : isTile m = false) (s : State) (a : Nat) (st : Bool) : cutError s m a st = busError s m a st := by
  cases m with
  | c g => exact nomatch hm
  | _ => rfl

section Cut
variable {s : State} {m : Master} {page off : Nat} {wr : Option Nat} {applied : Bool} (hr : reaches m page = true)
  (hb : pageBlock page ≠ none) (hm : isTile m = false)
include hr hb hm

/-- An access of 50 µs raises ACCESS_TIMEOUT; a write that took effect before stands (R55). -/
theorem cutAccess_served (hs : pageServed s page = true) : cutAccess s m page off wr applied =
    pageTimeout (busError (raise (match wr, applied with
      | some v, true => (regPut s m page off v).1
      | _, _ => s) 0 evManagerAccessTimeout) m (regBase + 4096 * page + off) wr.isSome) page := by
  have hmapped : ¬ ((!reaches m page) = true ∨ (pageBlock page).isNone = true) := by simp [hr, hb]
  simp only [cutAccess, if_neg hmapped, hs, Bool.not_true, Bool.false_eq_true, if_false, cutError_eq_busError hm] <;> rfl

/-- An access that the page's loss of power cuts short raises no event (R56). -/
theorem cutAccess_unserved (hs : pageServed s page = false) (hnot : wr = none ∨ applied = false) :
    cutAccess s m page off wr applied = busError s m (regBase + 4096 * page + off) wr.isSome := by
  have hmapped : ¬ ((!reaches m page) = true ∨ (pageBlock page).isNone = true) := by simp [hr, hb]
  simp only [cutAccess, if_neg hmapped, hs, Bool.not_false, if_true, cutError_eq_busError hm]
  obtain rfl | rfl := hnot
  · rfl
  · cases wr <;> rfl

end Cut

theorem exec_accessTimeout {addr : BitVec 44} {page off : Nat} (haddr : regAddr addr.toNat 32 = some (page, off)) (m : Master)
    (wr : Option (BitVec 32)) (applied : Bool) (s : State) :
    exec (.accessTimeout m addr wr applied none) s = .next (cutAccess s m page off (wr.map (·.toNat)) applied) := by
  change execAccessTimeout m addr wr applied none s = _
  simp only [execAccessTimeout, haddr]

/-! ### Votes and events -/

theorem exec_eventNotify {s : State} {page : BitVec 12} (hbits : sourceBits s page.toNat ≠ 0) (hs : pageServed s page.toNat = true)
    (hstate : modState s ≠ msReset) :
    exec (.eventNotify page) s = .next (
      let bits := (regWord s page.toNat 0x24).toNat
      let details := (List.range 32).filterMap (fun i => if bits.testBit i then some (i, eventDetail s page.toNat i) else none)
      pumpSession (details.foldl (fun s e => logEntry s page.toNat e.1 0 e.2)
        (setRegWord (noteMismatch s page.toNat bits) page.toNat 0x24 0))) := by
  have hmapped : (pageBlock page.toNat).isNone = false := by
    cases hb : pageBlock page.toNat with
    | none => simp [pageServed, hb] at hs
    | some b => rfl
  change execEventNotify page s = _
  simp only [execEventNotify, hmapped, hbits, hs, hstate, Bool.not_true, Bool.false_eq_true, or_self, if_false]

/-- Settles O40: the address or the page decides which block is reached, and the block serves the access. -/
theorem accessesComplete : Obligations.AccessesComplete := by
  refine ⟨⟨?write, ?read, ?cache, ?bulk, ?mailbox⟩, ?scan, fun s page hbits hs hstate => exec_eventNotify hbits hs hstate, ?timeout⟩
  case write =>
    intro s u m addr v page off haddr hput
    rw [exec_registerWrite, addrWrite, haddr]
    simp only [hput, if_true, accepted]
  case read =>
    intro s u m addr page off w haddr hget
    rw [exec_rcRead, addrRead, haddr]
    simp only [hget]
  case cache =>
    intro s m addr v n g o hm hn hoc
    have ha := lt_regBase_of_ocAddr hoc
    exact ⟨congrArg _ (addrWrite_oc hm hn ha hoc v.toNat), congrArg _ (addrRead_oc hm hn ha hoc)⟩
  case bulk =>
    intro s u m addr v b n hm hn hend
    exact ⟨fun hwrite => congrArg _ (addrWrite_bulk hm hn hend hwrite), fun hread => congrArg _ (addrRead_bulk hm hn hend hread)⟩
  case mailbox =>
    intro s m page b vid part hb ⟨hr, hs, _⟩
    exact ⟨exec_mailboxRead hb hr hs vid part, exec_mailboxWrite hb hr hs vid, exec_mailboxStage hb hr hs vid⟩
  case scan =>
    intro s page hb
    rw [exec_voteScan, if_neg (by simpa using hb)]
  case timeout =>
    intro s m addr wr applied page off haddr hr hb hm
    dsimp only
    refine ⟨fun hs hnot => ?_, fun v hs hwr happlied => ?_, fun hs hnot => ?_⟩
    · rw [exec_accessTimeout haddr, cutAccess_served hr hb hm hs]
      obtain rfl | rfl := hnot
      · rfl
      · cases wr <;> rfl
    · subst hwr happlied
      rw [exec_accessTimeout haddr, cutAccess_served hr hb hm hs]
      rfl
    · have hnotNat : wr.map (·.toNat) = none ∨ applied = false := hnot.imp_left (by rintro rfl; rfl)
      rw [exec_accessTimeout haddr, cutAccess_unserved hr hb hm hs hnotNat, Option.isSome_map]

end Sys2Proof.Machine
end

section
/-!
Register rows that start an action (R7, R9, R12): a write that sets one action bit of a word does the action of that bit and nothing else, where
the guard passes and the action does not run already.
-/

namespace Sys2Proof.Machine

/-! ### Guards -/

/-- A master that passes a guard passes an open one too. -/
theorem mayAccess_of_grd {s : State} {m : Master} {g h : GuardKind} (hm : mayAccess s m g = true) (hg : h = g ∨ h = .open) :
    mayAccess s m h = true := by
  obtain rfl | rfl := hg
  · exact hm
  · rfl

/-! ### Fields of actions -/

/-- A sum of effects over the bits of a power of two is the effect of its one bit. -/
theorem foldl_range_bit {σ : Type} (g : σ → Nat → σ) {n i : Nat} (hi : i < n) (s : σ) :
    (List.range n).foldl (fun s j => if !((2 ^ i).testBit j) then s else g s j) s = g s i := by
  induction n generalizing s with
  | zero => omega
  | succ n ih =>
    rw [List.range_succ, List.foldl_append, List.foldl_cons, List.foldl_nil, Nat.testBit_two_pow]
    by_cases hn : i = n
    · subst hn
      have hbelow : (List.range i).foldl (fun s j => if !((2 ^ i).testBit j) then s else g s j) s = s := by
        refine List.foldlRecOn (motive := (· = s)) _ _ rfl fun t ht j hj => ?_
        have hne : ¬ i = j := by have := List.mem_range.mp hj; omega
        rw [Nat.testBit_two_pow, decide_eq_false hne]
        exact ht
      rw [hbelow, decide_eq_true rfl]
      rfl
    · rw [decide_eq_false hn]
      exact ih (by omega) s

/-- An action field of which no bit is written does nothing. -/
theorem putField_wa_zero {f : FieldDef} {value : Nat} (hacc : f.acc = .wa) (hv : bitsOf value f.lo f.width = 0) (s : State) (b : Block) (page : Nat) :
    putField s b page value f = s := by
  unfold putField
  rw [hacc, hv]
  refine List.foldlRecOn (motive := (· = s)) _ _ rfl fun t ht i _ => ?_
  rw [Nat.zero_testBit]
  exact ht

/-- An action field of which one bit is written does the action of that bit, unless it runs already. -/
theorem putField_wa_bit {f : FieldDef} {k : Nat} (hacc : f.acc = .wa) (hlo : f.lo ≤ k) (hhi : k < f.lo + f.width) (s : State) (b : Block) (page : Nat) :
    putField s b page (2 ^ k) f = if bitRuns s b page f.off k then raise s page evCommonActionBusy else action s b page f.off k := by
  obtain ⟨i, rfl⟩ := Nat.exists_eq_add_of_le hlo
  have hi : i < f.width := by omega
  have hv : bitsOf (2 ^ (f.lo + i)) f.lo f.width = 2 ^ i := by
    rw [bitsOf, Nat.pow_add, Nat.mul_div_cancel_left _ (Nat.two_pow_pos _), Nat.mod_eq_of_lt (Nat.pow_lt_pow_right (by decide) hi)]
  unfold putField
  rw [hacc, hv]
  exact foldl_range_bit (fun s j => if bitRuns s b page f.off (f.lo + j) then raise s page evCommonActionBusy else action s b page f.off (f.lo + j)) hi s

/-- Action fields of which no bit is written do nothing, whoever writes. -/
theorem foldl_writeField_quiet {l : List FieldDef} {b : Block} {page value : Nat} {ok : FieldDef → Bool} (hok : ∀ f ∈ l, ok f = true)
    (hquiet : ∀ f ∈ l, f.acc = .wa ∧ bitsOf value f.lo f.width = 0) (s : State) :
    l.foldl (fun x f => writeField x b page value f (ok f)) s = s := by
  refine List.foldlRecOn (motive := (· = s)) _ _ rfl fun t ht f hf => ?_
  obtain ⟨hacc, hv⟩ := hquiet f hf
  rw [writeField, hok f hf, if_pos rfl, putField_wa_zero hacc hv]
  exact ht

/-- A row that writes one action bit of a word of actions: what the bit's action leaves, or ACTION_BUSY. -/
theorem rowWrite_bit {s : State} {m : Master} {page off k : Nat} {b : Block} {g : GuardKind} {pre post : List FieldDef} {f : FieldDef}
    (hb : pageBlock page = some b) (hp : Passes s m page g) (hoff : 0x100 ≤ off) (hfields : fieldsAt b off = pre ++ f :: post)
    (hquiet : ∀ x ∈ pre ++ post, x.acc = .wa ∧ bitsOf (2 ^ k) x.lo x.width = 0) (hgrd : ∀ x ∈ pre ++ f :: post, x.grd = g ∨ x.grd = .open)
    (hf : f.acc = .wa ∧ f.off = off ∧ f.lo ≤ k ∧ k < f.lo + f.width) :
    rowWrite s m page off (2 ^ k) = accepted (if bitRuns (unvoted s page off) b page off k then
      raise (unvoted s page off) page evCommonActionBusy else action (unvoted s page off) b page off k) := by
  obtain ⟨hr, hs, hm⟩ := hp
  obtain ⟨hacc, hfoff, hlo, hhi⟩ := hf
  have hmay (x : FieldDef) (hx : x ∈ pre ++ f :: post) : mayAccess s m x.grd = true := mayAccess_of_grd hm (hgrd x hx)
  rw [rowWrite_fields hb hr hs (by omega) (by omega) (by omega), hfields, List.foldl_append, List.foldl_cons,
    foldl_writeField_quiet (ok := fun x => mayAccess s m x.grd) (fun x hx => hmay x (List.mem_append_left _ hx))
      (fun x hx => hquiet x (List.mem_append_left _ hx)),
    foldl_writeField_quiet (ok := fun x => mayAccess s m x.grd)
      (fun x hx => hmay x (List.mem_append_right _ (List.mem_cons_of_mem _ hx))) (fun x hx => hquiet x (List.mem_append_right _ hx)),
    writeField, hmay f (List.mem_append_right _ List.mem_cons_self), if_pos rfl, putField_wa_bit hacc hlo hhi, hfoff]

/-- A row that writes one action bit of a word of actions does that action, where it does not run already. -/
theorem rowWrite_action {s : State} {m : Master} {page off k : Nat} {b : Block} {g : GuardKind} {f : FieldDef} (pre post : List FieldDef)
    (hb : pageBlock page = some b) (hp : Passes s m page g) (hoff : 0x100 ≤ off) (hfields : fieldsAt b off = pre ++ f :: post)
    (hquiet : ∀ x ∈ pre ++ post, x.acc = .wa ∧ bitsOf (2 ^ k) x.lo x.width = 0) (hgrd : ∀ x ∈ pre ++ f :: post, x.grd = g ∨ x.grd = .open)
    (hf : f.acc = .wa ∧ f.off = off ∧ f.lo ≤ k ∧ k < f.lo + f.width) (hidle : bitRuns (unvoted s page off) b page off k = false) :
    rowWrite s m page off (2 ^ k) = accepted (action (unvoted s page off) b page off k) := by
  rw [rowWrite_bit hb hp hoff hfields hquiet hgrd hf, hidle, if_neg Bool.false_ne_true]

/-! ### The pages of units that stand several times -/

theorem pageBlock_pgUpd (d : DieId) : pageBlock (pgUpd d) = some .update := by revert d; decide
theorem pageBlock_pgDie (d : DieId) : pageBlock (pgDie d) = some .workerDie := by revert d; decide
theorem pageBlock_pgDisp (d : DieId) : pageBlock (pgDisp d) = some .dispatcher := by revert d; decide
theorem pageBlock_pgPort (p : PortId) : pageBlock (pgPort p) = some .port := by revert p; decide

theorem pageBlock_pgCore (g : CoreId) : pageBlock (pgCore g) = some .core := by
  have hg := g.isLt
  unfold pageBlock pgCore
  iterate 23 rw [if_neg (by omega)]
  rw [if_pos (by omega)]

theorem pgUpd_sub (d : Nat) : pgUpd d - 0x64 = d := Nat.add_sub_cancel_left ..
theorem pgDie_sub (d : Nat) : pgDie d - 0x60 = d := Nat.add_sub_cancel_left ..
theorem pgDisp_sub (d : Nat) : pgDisp d - 0x68 = d := Nat.add_sub_cancel_left ..
theorem pgPort_sub (p : Nat) : pgPort p - 0x20 = p := Nat.add_sub_cancel_left ..
theorem pgCore_sub (g : Nat) : pgCore g - 0x100 = g := Nat.add_sub_cancel_left ..

/-! ### The actions of the update units and of the checkpoint store -/

section Upd
variable {s : State} {m : Master} {d : DieId} (hp : Passes s m (pgUpd d) .guarded)
include hp

theorem exec_updAbort : exec (.updAbort m d) s = .next (accepted (abortUpd (unvoted s (pgUpd d) 0x104) d)) := by
  have hrow := rowWrite_action (off := 0x104) (k := 0) (f := fUpdateUpdAbort) [] [fUpdateUpdResume, fUpdateUpdDiscard] (pageBlock_pgUpd d) hp
    (by decide) rfl (by decide) (by decide) (by decide) rfl
  simp only [action, pgUpd_sub] at hrow
  exact congrArg _ hrow

theorem exec_updResume : exec (.updResume m d) s = .next (accepted (resumeUpd (unvoted s (pgUpd d) 0x104) d)) := by
  have hrow := rowWrite_action (off := 0x104) (k := 1) (f := fUpdateUpdResume) [fUpdateUpdAbort] [fUpdateUpdDiscard] (pageBlock_pgUpd d) hp
    (by decide) rfl (by decide) (by decide) (by decide) rfl
  simp only [action, pgUpd_sub] at hrow
  exact congrArg _ hrow

theorem exec_updDiscard : exec (.updDiscard m d) s = .next (accepted (discardUpd (unvoted s (pgUpd d) 0x104) d)) := by
  have hrow := rowWrite_action (off := 0x104) (k := 2) (f := fUpdateUpdDiscard) [fUpdateUpdAbort, fUpdateUpdResume] [] (pageBlock_pgUpd d) hp
    (by decide) rfl (by decide) (by decide) (by decide) rfl
  simp only [action, pgUpd_sub] at hrow
  exact congrArg _ hrow

end Upd

section Store
variable {s : State} {m : Master}

theorem exec_trigger (hp : Passes s m 9 .guarded) (hidle : s.store.asked = false) :
    exec (.trigger m) s = .next (accepted (triggerClutch (unvoted s 9 0x108))) :=
  congrArg _ (rowWrite_action (b := .store1) (off := 0x108) (k := 0) (f := fStore1Trigger) [] [fStore1CaptureAbort] rfl hp (by decide) rfl (by decide) (by decide)
    (by decide) hidle)

theorem exec_captureAbort (hp : Passes s m 9 .guarded) : exec (.captureAbort m) s = .next (accepted (abortClutch (unvoted s 9 0x108) 4)) :=
  congrArg _ (rowWrite_action (off := 0x108) (k := 1) (f := fStore1CaptureAbort) [fStore1Trigger] [] rfl hp (by decide) rfl (by decide) (by decide)
    (by decide) rfl)

theorem exec_restore (hp : Passes s m 0xA .guarded) (hidle : flag s 0xA stStore2Restoring = false) :
    exec (.restore m) s = .next (accepted (startRestore (unvoted s 0xA 0x100))) :=
  congrArg _ (rowWrite_action (b := .store2) (off := 0x100) (k := 0) (f := fStore2Restore) [] [fStore2RestoreAbort] rfl hp (by decide) rfl (by decide) (by decide)
    (by decide) hidle)

theorem exec_restoreAbort (hp : Passes s m 0xA .guarded) : exec (.restoreAbort m) s = .next (accepted (abortRestore (unvoted s 0xA 0x100))) :=
  congrArg _ (rowWrite_action (off := 0x100) (k := 1) (f := fStore2RestoreAbort) [fStore2Restore] [] rfl hp (by decide) rfl (by decide) (by decide)
    (by decide) rfl)

theorem exec_exportClutch (hp : Passes s m 0xB .guarded) (hidle : s.store.xfer = none) :
    exec (.exportClutch m) s = .next (accepted (xferAction (unvoted s 0xB 0x100) false)) :=
  congrArg _ (rowWrite_action (b := .store3) (off := 0x100) (k := 0) (f := fStore3Export) [] [fStore3Import, fStore3XferAbort] rfl hp (by decide) rfl (by decide)
    (by decide) (by decide) (Option.isSome_eq_false_iff.mpr (Option.isNone_iff_eq_none.mpr hidle)))

theorem exec_importClutch (hp : Passes s m 0xB .guarded) (hidle : s.store.xfer = none) :
    exec (.importClutch m) s = .next (accepted (xferAction (unvoted s 0xB 0x100) true)) :=
  congrArg _ (rowWrite_action (b := .store3) (off := 0x100) (k := 1) (f := fStore3Import) [fStore3Export] [fStore3XferAbort] rfl hp (by decide) rfl (by decide)
    (by decide) (by decide) (Option.isSome_eq_false_iff.mpr (Option.isNone_iff_eq_none.mpr hidle)))

theorem exec_xferAbort (hp : Passes s m 0xB .guarded) : exec (.xferAbort m) s = .next (accepted (abortXfer (unvoted s 0xB 0x100))) :=
  congrArg _ (rowWrite_action (off := 0x100) (k := 2) (f := fStore3XferAbort) [fStore3Export, fStore3Import] [] rfl hp (by decide) rfl (by decide)
    (by decide) (by decide) rfl)

end Store

/-! ### The actions of the transport, the die clocks, cores, dispatchers and ports -/

section Units
variable {s : State} {m : Master}

theorem exec_collAbort (hp : Passes s m 0x30 .guarded) : exec (.collAbort m) s = .next (accepted (abortColls (unvoted s 0x30 0x10C))) :=
  congrArg _ (rowWrite_action (off := 0x10C) (k := 0) (f := fTransportCollAbort) [] [] rfl hp (by decide) rfl (by decide) (by decide)
    (by decide) rfl)

theorem exec_replan {d : DieId} (hp : Passes s m (pgDie d) .guarded) (hidle : replanTaken s d = false) :
    exec (.replan m d) s = .next (accepted (requestReplan (unvoted s (pgDie d) 0x240) d)) := by
  have hruns : bitRuns (unvoted s (pgDie d) 0x240) .workerDie (pgDie d) 0x240 0 = false := by
    rw [bitRuns, pgDie_sub]
    exact hidle
  have hrow := rowWrite_action (off := 0x240) (k := 0) (f := fWorkerDieReplan) [] [] (pageBlock_pgDie d) hp (by decide) rfl (by decide) (by decide)
    (by decide) hruns
  simp only [action, pgDie_sub] at hrow
  exact congrArg _ hrow

/-- ACC_INV goes through the four arrays and does one after another what its bits ask. -/
theorem exec_accInv {g : CoreId} (arrays : BitVec 4) (hp : Passes s m (pgCore g) .open) :
    exec (.accInv m g arrays) s = .next (accepted ((List.range 4).foldl (fun u a =>
      if !(arrays.getLsbD a) then u
      else if (coreOf u g).invWait.any (fun e => e.1 == a) then raise u (pgCore g) evCommonActionBusy
      else invArray u g a) (unvoted s (pgCore g) 0x220))) := by
  obtain ⟨hr, hs, -⟩ := hp
  have hv : bitsOf arrays.toNat fCoreInv.lo fCoreInv.width = arrays.toNat :=
    (congrArg (· % 2 ^ 4) (Nat.div_one _)).trans (Nat.mod_eq_of_lt arrays.isLt)
  have hrow := rowWrite_fields (m := m) (value := arrays.toNat) (pageBlock_pgCore g) hr hs (off := 0x220) (by decide) (by decide) (by decide)
  have hfields : fieldsAt .core 0x220 = [fCoreInv] := rfl
  rw [hfields, List.foldl_cons, List.foldl_nil, writeField, mayAccess_of_grd (h := fCoreInv.grd) (g := .open) rfl (.inl rfl), if_pos rfl,
    putField, hv] at hrow
  refine congrArg _ (hrow.trans (congrArg _ ?_))
  refine List.foldl_ext _ _ _ fun u a ha => ?_
  have ha : a < 4 := List.mem_range.mp ha
  simp only [bitRuns, action, pgCore_sub, fCoreInv, Nat.zero_add, if_pos ha]
  rfl

theorem exec_codeFlush {g : CoreId} (hp : Passes s m (pgCore g) .guarded) :
    exec (.codeFlush m g) s = .next (accepted (setCore (unvoted s (pgCore g) 0x118) g { coreOf s g with flush := true })) := by
  have hrow := rowWrite_action (off := 0x118) (k := 0) (f := fCoreCodeFlush) [] [] (pageBlock_pgCore g) hp (by decide) rfl (by decide) (by decide)
    (by decide) rfl
  simp only [action, pgCore_sub] at hrow
  exact congrArg _ hrow

theorem exec_failPop {d : DieId} (hp : Passes s m (pgDisp d) .open) :
    exec (.failPop m d) s = .next (accepted (setDisp (unvoted s (pgDisp d) 0x114) d { dispOf s d with failures := (dispOf s d).failures.tail })) := by
  have hrow := rowWrite_action (off := 0x114) (k := 0) (f := fDispatcherFailPop) [] [] (pageBlock_pgDisp d) hp (by decide) rfl (by decide)
    (by decide) (by decide) rfl
  simp only [action, pgDisp_sub] at hrow
  exact congrArg _ hrow

variable {p : PortId} (hp : Passes s m (pgPort p) .guarded)
include hp

theorem exec_retrain (hidle : portRetraining s p = false) :
    exec (.retrain m p) s = .next (accepted (retrainEffect (unvoted s (pgPort p) 0x10C) p)) := by
  have hruns : bitRuns (unvoted s (pgPort p) 0x10C) .port (pgPort p) 0x10C 0 = false := by
    rw [bitRuns, pgPort_sub]
    exact hidle
  have hrow := rowWrite_action (off := 0x10C) (k := 0) (f := fPortRetrain) [] [fPortPortReset, fPortReplan] (pageBlock_pgPort p) hp (by decide)
    rfl (by decide) (by decide) (by decide) hruns
  simp only [action, pgPort_sub] at hrow
  exact congrArg _ hrow

theorem exec_portReset : exec (.portReset m p) s = .next (accepted (portResetEffect (unvoted s (pgPort p) 0x10C) p)) := by
  have hrow := rowWrite_action (off := 0x10C) (k := 1) (f := fPortPortReset) [fPortRetrain] [fPortReplan] (pageBlock_pgPort p) hp (by decide)
    rfl (by decide) (by decide) (by decide) rfl
  simp only [action, pgPort_sub] at hrow
  exact congrArg _ hrow

theorem exec_portReplan (hidle : (portOf s p).replanLanes = []) :
    exec (.portReplan m p) s = .next (accepted (portReplanEffect (unvoted s (pgPort p) 0x10C) p)) := by
  have hruns : bitRuns (unvoted s (pgPort p) 0x10C) .port (pgPort p) 0x10C 2 = false := by
    rw [bitRuns, pgPort_sub]
    exact (congrArg (fun l => !l.isEmpty) hidle).trans rfl
  have hrow := rowWrite_action (off := 0x10C) (k := 2) (f := fPortReplan) [fPortRetrain, fPortPortReset] [] (pageBlock_pgPort p) hp (by decide)
    rfl (by decide) (by decide) (by decide) hruns
  simp only [action, pgPort_sub] at hrow
  exact congrArg _ hrow

end Units

/-- Settles O41: each row is one write of a word of actions with one bit, or the four bits of ACC_INV, set. -/
theorem blockActionsComplete : Obligations.BlockActionsComplete := by
  refine ⟨⟨?updates, ?capture, ?restore, ?transfer, ?collectives, ?replan⟩, ?accInv, ?codeFlush, ?failPop, ?ports⟩
  case updates => exact fun s m d hp => ⟨exec_updAbort hp, exec_updResume hp, exec_updDiscard hp⟩
  case capture => exact fun s m hp => ⟨exec_trigger hp, exec_captureAbort hp⟩
  case restore => exact fun s m hp => ⟨exec_restore hp, exec_restoreAbort hp⟩
  case transfer => exact fun s m hp => ⟨fun hidle => ⟨exec_exportClutch hp hidle, exec_importClutch hp hidle⟩, exec_xferAbort hp⟩
  case collectives => exact fun s m hp => exec_collAbort hp
  case replan => exact fun s m d hp hidle => exec_replan hp hidle
  case accInv => exact fun s m g arrays hp => exec_accInv arrays hp
  case codeFlush => exact fun s m g hp => exec_codeFlush hp
  case failPop => exact fun s m d hp => exec_failPop hp
  case ports => exact fun s m p hp => ⟨exec_retrain hp, exec_portReset hp, exec_portReplan hp⟩

end Sys2Proof.Machine
end

section
/-!
Register rows of the manager's, security, membership, thermal and port pages: actions alone, and actions beside settings, which the row writes as
they stand.
-/

namespace Sys2Proof.Machine

/-! ### A word of settings and actions, written by a master that passes the guard -/

/-- A write by a master that passes every field's guard puts the fields one after another. -/
theorem rowWrite_putFields {s : State} {m : Master} {page off : Nat} {b : Block} {g : GuardKind} (l : List FieldDef) (value : Nat)
    (hb : pageBlock page = some b) (hp : Passes s m page g) (hoff : 0x100 ≤ off) (hfields : fieldsAt b off = l)
    (hgrd : ∀ x ∈ l, x.grd = g ∨ x.grd = .open) :
    rowWrite s m page off value = accepted (l.foldl (fun x f => putField x b page value f) (unvoted s page off)) := by
  obtain ⟨hr, hs, hm⟩ := hp
  rw [rowWrite_fields hb hr hs (by omega) (by omega) (by omega), hfields]
  refine congrArg _ (List.foldl_ext _ _ _ fun u f hf => ?_)
  rw [writeField, mayAccess_of_grd hm (hgrd f hf), if_pos rfl]

/-- A setting that is given a legal value is stored. -/
theorem putField_rw {f : FieldDef} {s : State} {b : Block} {page value v : Nat} (hacc : f.acc = .rw) (hv : bitsOf value f.lo f.width = v)
    (hok : valueOk s b page f v value = true) : putField s b page value f = storeField s b page f v := by
  rw [putField, hacc, hv]
  exact if_pos hok

/-- An action of one bit that is written does what the bit asks, where it does not run already. -/
theorem putField_wa_set {f : FieldDef} {s : State} {b : Block} {page value : Nat} (hacc : f.acc = .wa) (hw : f.width = 1)
    (hv : bitsOf value f.lo f.width = 1) (hidle : bitRuns s b page f.off f.lo = false) :
    putField s b page value f = action s b page f.off f.lo := by
  rw [putField, hacc, hv, hw]
  exact if_neg (by rw [Nat.add_zero, hidle]; exact Bool.false_ne_true)

/-! ### The word that keeps the settings -/

/-- The word of a register with its actions at zero shows each setting as it stands. -/
theorem bitsOf_keptWord {s : State} {page : Nat} {b : Block} {x : FieldDef} (hb : pageBlock page = some b)
    (hdis : ∀ f ∈ fieldsAt b x.off, f.acc = .wa → x.lo + x.width ≤ f.lo ∨ f.lo + f.width ≤ x.lo) :
    bitsOf (keptWord s page x.off) x.lo x.width = fld s page x := by
  unfold keptWord
  rw [hb]
  refine List.foldlRecOn (motive := fun w => bitsOf w x.lo x.width = fld s page x) _ _ rfl fun w hw f hf => ?_
  by_cases hacc : f.acc = .wa
  · rw [if_pos (beq_iff_eq.mpr hacc), bitsOf_insertBits_disjoint (hdis f hf hacc)]
    exact hw
  · rw [if_neg (by simpa using hacc)]
    exact hw

/-- The written word shows the value of the field that it changes. -/
theorem bitsOf_withField_same (s : State) (page : Nat) (f : FieldDef) (v : Nat) : bitsOf (withField s page f v) f.lo f.width = v % 2 ^ f.width :=
  bitsOf_insertBits_same ..

/-- The written word shows every other setting as it stands. -/
theorem bitsOf_withField_other {s : State} {page : Nat} {b : Block} {f : FieldDef} (x : FieldDef) (v : Nat) (hb : pageBlock page = some b)
    (hoff : x.off = f.off) (hf : x.lo + x.width ≤ f.lo ∨ f.lo + f.width ≤ x.lo)
    (hdis : ∀ f ∈ fieldsAt b x.off, f.acc = .wa → x.lo + x.width ≤ f.lo ∨ f.lo + f.width ≤ x.lo) :
    bitsOf (withField s page f v) x.lo x.width = fld s page x := by
  rw [withField, bitsOf_insertBits_disjoint hf, ← hoff, bitsOf_keptWord hb hdis]

/-- The written word asks for no action but that of the field that it changes. -/
theorem bitsOf_withField_action {s : State} {page : Nat} {b : Block} {f x : FieldDef} (v : Nat) (hb : pageBlock page = some b)
    (hf : x.lo + x.width ≤ f.lo ∨ f.lo + f.width ≤ x.lo) (pre post : List FieldDef) (hfields : fieldsAt b f.off = pre ++ x :: post)
    (hacc : x.acc = .wa) (hpost : ∀ y ∈ post, x.lo + x.width ≤ y.lo ∨ y.lo + y.width ≤ x.lo) :
    bitsOf (withField s page f v) x.lo x.width = 0 := by
  rw [withField, bitsOf_insertBits_disjoint hf, keptWord, hb]
  simp only [hfields, List.foldl_append, List.foldl_cons, hacc, beq_self_eq_true, if_true]
  refine List.foldlRecOn (motive := fun w => bitsOf w x.lo x.width = 0) _ _ ?_ fun w hw y hy => ?_
  · rw [bitsOf_insertBits_same, Nat.zero_mod]
  · by_cases hy' : (y.acc == .wa) = true
    · rw [if_pos hy', bitsOf_insertBits_disjoint (hpost y hy)]
      exact hw
    · rw [if_neg hy']
      exact hw

/-- A field holds less than its width allows. -/
theorem fld_lt (s : State) (page : Nat) (f : FieldDef) : fld s page f < 2 ^ f.width := Nat.mod_lt _ (Nat.two_pow_pos _)

theorem bit01_mod (on : Bool) : bit01 on % 2 = bit01 on := by cases on <;> rfl
theorem bit01_ne_zero (on : Bool) : decide (bit01 on ≠ 0) = on := by cases on <;> rfl

/-! ### The manager's page -/

/-- The low four actions of the manager's page put a die to sleep. -/
theorem action_dieSleep (u : State) (d : DieId) : action u .manager 0 0x100 d.val = sleepAction u d.val := by
  fin_cases d <;> rfl

section Manager
variable {s : State} {m : Master} (hp : Passes s m 0 .guarded)
include hp

theorem exec_dieSleep (d : DieId) : exec (.dieSleep m d) s = .next (accepted (sleepAction (unvoted s 0 0x100) d)) := by
  have hrow := rowWrite_action (b := .manager) (off := 0x100) (k := d.val) (f := fManagerDieSleep) []
    [fManagerDieWake, fManagerStandby, fManagerWake, fManagerWarmReset, fManagerModuleReset] rfl hp (by decide) rfl (by revert d; decide)
    (by decide) (by revert d; decide) (by revert d; exact fun _ => rfl)
  rw [action_dieSleep] at hrow
  exact congrArg Host.Outcome.next hrow

theorem exec_dieWake (d : DieId) (lost : List (Nat × Nat)) : exec (.dieWake m d lost) s = .next (accepted (wakeAction s d lost)) := by
  obtain ⟨hr, -, hm⟩ := hp
  change Host.Outcome.next (if !(reaches m 0) then _ else if mayAccess s m .guarded then _ else _) = _
  rw [hr, hm]
  rfl

theorem exec_wake (lost : List (Nat × Nat)) : exec (.wake m lost) s = .next (accepted (leaveStandby s lost)) := by
  obtain ⟨hr, -, hm⟩ := hp
  change Host.Outcome.next (if !(reaches m 0) then _ else if mayAccess s m .guarded then _ else _) = _
  rw [hr, hm]
  rfl

theorem exec_standby : exec (.standby m) s = .next (accepted (enterStandby (unvoted s 0 0x100) true)) :=
  congrArg _ (rowWrite_action (b := .manager) (off := 0x100) (k := 8) (f := fManagerStandby) [fManagerDieSleep, fManagerDieWake]
    [fManagerWake, fManagerWarmReset, fManagerModuleReset] rfl hp (by decide) rfl (by decide) (by decide) (by decide) rfl)

theorem exec_warmReset : exec (.warmReset m) s = .next (accepted (warmReset (unvoted s 0 0x100))) :=
  congrArg _ (rowWrite_action (b := .manager) (off := 0x100) (k := 10) (f := fManagerWarmReset)
    [fManagerDieSleep, fManagerDieWake, fManagerStandby, fManagerWake] [fManagerModuleReset] rfl hp (by decide) rfl (by decide) (by decide)
    (by decide) rfl)

theorem exec_moduleReset : exec (.moduleReset m) s = .next (accepted (moduleReset (unvoted s 0 0x100) (liveStraps (unvoted s 0 0x100)) 4)) :=
  congrArg _ (rowWrite_action (b := .manager) (off := 0x100) (k := 11) (f := fManagerModuleReset)
    [fManagerDieSleep, fManagerDieWake, fManagerStandby, fManagerWake, fManagerWarmReset] [] rfl hp (by decide) rfl (by decide) (by decide)
    (by decide) rfl)

end Manager

/-! ### The security page -/

section Security
variable {s : State} {m : Master}

theorem exec_svnCommit (hp : Passes s m 2 .presence) : exec (.svnCommit m) s = .next (accepted (svnCommitEffect (unvoted s 2 0x104))) :=
  congrArg _ (rowWrite_action (b := .security) (off := 0x104) (k := 1) (f := fSecuritySvnCommit) [fSecurityPresenceClose]
    [fSecurityEraseA, fSecurityEraseB] rfl hp (by decide) rfl (by decide) (by decide) (by decide) rfl)

/-- ERASE of a slot that does not run, with no clutch capturing, erases it. -/
theorem eraseAction_idle {s : State} {b : Nat} (hslot : slotRuns s b = false) (hcap : flag s 9 stStore1Capturing = false) :
    eraseAction s b = eraseSlot s b := by
  rw [eraseAction, hslot, hcap]
  rfl

theorem exec_eraseA (hp : Passes s m 2 .presence) (hslot : slotRuns s 0 = false) (hcap : flag s 9 stStore1Capturing = false) :
    exec (.eraseA m) s = .next (accepted (eraseSlot (unvoted s 2 0x104) 0)) :=
  (congrArg _ (rowWrite_action (b := .security) (off := 0x104) (k := 2) (f := fSecurityEraseA) [fSecurityPresenceClose, fSecuritySvnCommit]
    [fSecurityEraseB] rfl hp (by decide) rfl (by decide) (by decide) (by decide) rfl)).trans
    (congrArg (fun u => Host.Outcome.next (accepted u)) (eraseAction_idle (s := unvoted s 2 0x104) hslot hcap))

theorem exec_eraseB (hp : Passes s m 2 .presence) (hslot : slotRuns s 1 = false) (hcap : flag s 9 stStore1Capturing = false) :
    exec (.eraseB m) s = .next (accepted (eraseSlot (unvoted s 2 0x104) 1)) :=
  (congrArg _ (rowWrite_action (b := .security) (off := 0x104) (k := 3) (f := fSecurityEraseB)
    [fSecurityPresenceClose, fSecuritySvnCommit, fSecurityEraseA] [] rfl hp (by decide) rfl (by decide) (by decide) (by decide) rfl)).trans
    (congrArg (fun u => Host.Outcome.next (accepted u)) (eraseAction_idle (s := unvoted s 2 0x104) hslot hcap))

theorem exec_presenceClose (hp : Passes s m 2 .presence) (hjumper : flag s 2 stSecurityJumper = false) :
    exec (.presenceClose m) s = .next (accepted (notePresence (setSec (unvoted s 2 0x104) { s.sec with pressUntil := none }))) := by
  have hclose : closePresence (unvoted s 2 0x104) = notePresence (setSec (unvoted s 2 0x104) { s.sec with pressUntil := none }) :=
    if_neg (by rw [show flag (unvoted s 2 0x104) 2 stSecurityJumper = false from hjumper]; exact Bool.false_ne_true)
  exact (congrArg _ (rowWrite_action (b := .security) (off := 0x104) (k := 0) (f := fSecurityPresenceClose) []
    [fSecuritySvnCommit, fSecurityEraseA, fSecurityEraseB] rfl hp (by decide) rfl (by decide) (by decide) (by decide) rfl)).trans
    (congrArg (fun u => Host.Outcome.next (accepted u)) hclose)

/-- PRESENCE_CLOSE without the window closes nothing more, and is denied for the three guarded actions of its word. -/
theorem exec_presenceClose_denied (hp : Passes s m 2 .open) (hdenied : mayAccess s m .presence = false) :
    exec (.presenceClose m) s = .next (accepted (guardDenied (guardDenied (guardDenied (closePresence (unvoted s 2 0x104)) 2) 2) 2)) := by
  obtain ⟨hr, hs, hm⟩ := hp
  have hrow := rowWrite_fields (m := m) (value := 1) (b := .security) (page := 2) (off := 0x104) rfl hr hs (by decide) (by decide) (by decide)
  have hfields : fieldsAt .security 0x104 = [fSecurityPresenceClose, fSecuritySvnCommit, fSecurityEraseA, fSecurityEraseB] := rfl
  have hput : putField (unvoted s 2 0x104) .security 2 1 fSecurityPresenceClose = closePresence (unvoted s 2 0x104) :=
    (putField_wa_set rfl rfl rfl rfl).trans rfl
  have hsvn : mayAccess s m fSecuritySvnCommit.grd = false := hdenied
  have hea : mayAccess s m fSecurityEraseA.grd = false := hdenied
  have heb : mayAccess s m fSecurityEraseB.grd = false := hdenied
  simp only [hfields, List.foldl_cons, List.foldl_nil, writeField, hsvn, hea, heb, show mayAccess s m fSecurityPresenceClose.grd = true from rfl,
    hput, if_true, Bool.false_eq_true, if_false] at hrow
  exact congrArg _ hrow

end Security

/-! ### Joining -/

section Join
variable {s : State} {m : Master} (hp : Passes s m 0x31 .guarded)
include hp

/-- The word of JOIN_OPEN and JOIN: the first field is put, then the second. -/
theorem rowWrite_joinWord (value : Nat) : rowWrite s m 0x31 0x118 value =
    accepted (putField (putField (unvoted s 0x31 0x118) .membership 0x31 value fMembershipJoinOpen) .membership 0x31 value fMembershipJoin) :=
  rowWrite_putFields (b := .membership) (off := 0x118) [fMembershipJoinOpen, fMembershipJoin] value rfl hp (by decide) rfl (by decide)

theorem exec_join (hidle : jstate (openJoins (unvoted s 0x31 0x118) (flag s 0x31 fMembershipJoinOpen)) ≠ jsJoining) :
    exec (.join m) s = .next (accepted (joinModule (openJoins (unvoted s 0x31 0x118) (flag s 0x31 fMembershipJoinOpen)))) := by
  have hopen : bitsOf (withField s 0x31 fMembershipJoin 1) fMembershipJoinOpen.lo fMembershipJoinOpen.width = fld s 0x31 fMembershipJoinOpen :=
    bitsOf_withField_other (b := .membership) fMembershipJoinOpen 1 rfl rfl (by decide) (by decide)
  have hlt : fld s 0x31 fMembershipJoinOpen ≤ 1 := Nat.le_of_lt_succ (fld_lt s 0x31 fMembershipJoinOpen)
  have hok : valueOk (unvoted s 0x31 0x118) .membership 0x31 fMembershipJoinOpen (fld s 0x31 fMembershipJoinOpen)
      (withField s 0x31 fMembershipJoin 1) = true :=
    Bool.and_eq_true_iff.mpr ⟨Bool.and_eq_true_iff.mpr ⟨decide_eq_true (Nat.zero_le _), decide_eq_true hlt⟩, rfl⟩
  have hjoin : bitsOf (withField s 0x31 fMembershipJoin 1) fMembershipJoin.lo fMembershipJoin.width = 1 := bitsOf_withField_same ..
  change Host.Outcome.next (rowWrite s m 0x31 0x118 (withField s 0x31 fMembershipJoin 1)) = _
  rw [rowWrite_joinWord hp, putField_rw rfl hopen hok]
  have hput := putField_wa_set (f := fMembershipJoin) (b := .membership) (page := 0x31) rfl rfl hjoin (decide_eq_false hidle)
  exact congrArg (fun u => Host.Outcome.next (accepted u)) hput

theorem exec_joinOpen (on : Bool) : exec (.joinOpen m on) s = .next (accepted (openJoins (unvoted s 0x31 0x118) on)) := by
  have hopen : bitsOf (withField s 0x31 fMembershipJoinOpen (bit01 on)) fMembershipJoinOpen.lo fMembershipJoinOpen.width = bit01 on :=
    (bitsOf_withField_same ..).trans (bit01_mod on)
  have hok : valueOk (unvoted s 0x31 0x118) .membership 0x31 fMembershipJoinOpen (bit01 on)
      (withField s 0x31 fMembershipJoinOpen (bit01 on)) = true := by cases on <;> rfl
  have hjoin : bitsOf (withField s 0x31 fMembershipJoinOpen (bit01 on)) fMembershipJoin.lo fMembershipJoin.width = 0 :=
    bitsOf_withField_action (b := .membership) _ rfl (by decide) [fMembershipJoinOpen] [] rfl rfl (by decide)
  change Host.Outcome.next (rowWrite s m 0x31 0x118 (withField s 0x31 fMembershipJoinOpen (bit01 on))) = _
  rw [rowWrite_joinWord hp, putField_rw rfl hopen hok, putField_wa_zero rfl hjoin]
  exact congrArg (fun o => Host.Outcome.next (accepted (openJoins (unvoted s 0x31 0x118) o))) (bit01_ne_zero on)

end Join

/-! ### Trips -/

theorem valueOk_rotPeriod (u : State) (whole : Nat) {v : Nat} (hmin : 1 ≤ v) (hmax : v ≤ 100) :
    valueOk u .thermal 5 fThermalRotPeriod v whole = true :=
  Bool.and_eq_true_iff.mpr ⟨Bool.and_eq_true_iff.mpr ⟨decide_eq_true hmin, decide_eq_true hmax⟩, rfl⟩

theorem valueOk_rotDuty (u : State) (whole : Nat) {v : Nat} (hmin : 4 ≤ v) (hmax : v ≤ 15) :
    valueOk u .thermal 5 fThermalRotDuty v whole = true :=
  Bool.and_eq_true_iff.mpr ⟨Bool.and_eq_true_iff.mpr ⟨decide_eq_true hmin, decide_eq_true hmax⟩, rfl⟩

theorem storeField_thermal (u : State) (v : Nat) {f : FieldDef} (hf : f = fThermalRotPeriod ∨ f = fThermalRotDuty) :
    storeField u .thermal 5 f v = setFld u 5 f v := by
  obtain rfl | rfl := hf <;> rfl

theorem action_tripClear (u : State) : action u .thermal 5 fThermalTripClear.off fThermalTripClear.lo = tripClear u := rfl

/-- The word of ROT_PERIOD, ROT_DUTY and TRIP_CLEAR, written with legal settings and the action set. -/
theorem rowWrite_tripWord {s : State} {m : Master} {w period duty : Nat} (hp : Passes s m 5 .guarded)
    (hperiod : bitsOf w fThermalRotPeriod.lo fThermalRotPeriod.width = period) (hmin : 1 ≤ period) (hmax : period ≤ 100)
    (hdutyBits : bitsOf w fThermalRotDuty.lo fThermalRotDuty.width = duty) (hduty : 4 ≤ duty) (hlt : duty ≤ 15)
    (hclear : bitsOf w fThermalTripClear.lo fThermalTripClear.width = 1) :
    rowWrite s m 5 0x104 w =
      accepted (tripClear (setFld (setFld (unvoted s 5 0x104) 5 fThermalRotPeriod period) 5 fThermalRotDuty duty)) := by
  have hrow := rowWrite_putFields (b := .thermal) (off := 0x104) [fThermalRotPeriod, fThermalRotDuty, fThermalTripClear] w rfl hp (by decide) rfl
    (by decide)
  simp only [List.foldl_cons, List.foldl_nil] at hrow
  rwa [putField_rw rfl hperiod (valueOk_rotPeriod _ _ hmin hmax), putField_rw rfl hdutyBits (valueOk_rotDuty _ _ hduty hlt),
    putField_wa_set rfl rfl hclear rfl, storeField_thermal _ _ (.inl rfl), storeField_thermal _ _ (.inr rfl), action_tripClear] at hrow

theorem exec_tripClear {s : State} {m : Master} (hp : Passes s m 5 .guarded) (hmin : 1 ≤ fld s 5 fThermalRotPeriod)
    (hmax : fld s 5 fThermalRotPeriod ≤ 100) (hduty : 4 ≤ fld s 5 fThermalRotDuty) :
    exec (.tripClear m) s = .next (accepted (tripClear (setFld (setFld (unvoted s 5 0x104) 5 fThermalRotPeriod (fld s 5 fThermalRotPeriod)) 5
      fThermalRotDuty (fld s 5 fThermalRotDuty)))) := by
  have hperiod : bitsOf (withField s 5 fThermalTripClear 1) fThermalRotPeriod.lo fThermalRotPeriod.width = fld s 5 fThermalRotPeriod :=
    bitsOf_withField_other (b := .thermal) fThermalRotPeriod 1 rfl rfl (by decide) (by decide)
  have hdutyBits : bitsOf (withField s 5 fThermalTripClear 1) fThermalRotDuty.lo fThermalRotDuty.width = fld s 5 fThermalRotDuty :=
    bitsOf_withField_other (b := .thermal) fThermalRotDuty 1 rfl rfl (by decide) (by decide)
  have hlt : fld s 5 fThermalRotDuty ≤ 15 := Nat.le_of_lt_succ (fld_lt s 5 fThermalRotDuty)
  exact congrArg Host.Outcome.next (rowWrite_tripWord hp hperiod hmin hmax hdutyBits hduty hlt (bitsOf_withField_same ..))

/-! ### Enabling a port -/

/-- Storing TIME_UPSTREAM as zero over a one ends the following of the port. -/
theorem storeField_timeUpstream (u : State) (page v : Nat) :
    storeField u .port page fPortTimeUpstream v =
      setFld (if decide (v ≠ 0) = false ∧ flag u page fPortTimeUpstream = true then unfollow u else u) page fPortTimeUpstream v := by
  have hcond : (decide (v = 0) && flag u page fPortTimeUpstream) = true ↔ decide (v ≠ 0) = false ∧ flag u page fPortTimeUpstream = true := by
    simp
  exact congrArg (fun x => setFld x page fPortTimeUpstream v) (if_congr hcond rfl rfl)

/-- TIME_UPSTREAM may be set on one port alone. -/
theorem valueOk_timeUpstream {u : State} {p : PortId} {v : Nat} (whole : Nat) (hmax : v ≤ 1)
    (hlone : v = 0 ∨ ∀ q, q < 16 → q ≠ p.val → flag u (pgPort q) fPortTimeUpstream = false) :
    valueOk u .port (pgPort p) fPortTimeUpstream v whole = true := by
  refine Bool.and_eq_true_iff.mpr ⟨Bool.and_eq_true_iff.mpr ⟨decide_eq_true (Nat.zero_le v), decide_eq_true hmax⟩, ?_⟩
  have hothers : (decide (v = 0) || !((List.range 16).any fun q => q != pgPort p - 0x20 && flag u (pgPort q) fPortTimeUpstream)) = true := by
    obtain hv | hv := hlone
    · rw [decide_eq_true hv, Bool.true_or]
    · rw [pgPort_sub, List.any_eq_false.mpr, Bool.not_false, Bool.or_true]
      intro q hq
      by_cases hqp : q = p.val
      · simp [hqp]
      · simp [hv q (List.mem_range.mp hq) hqp]
  exact hothers

section PortWord
variable (u : State) (page whole : Nat) {v : Nat}

theorem valueOk_portEnable (hmax : v ≤ 1) : valueOk u .port page fPortEnable v whole = true :=
  Bool.and_eq_true_iff.mpr ⟨Bool.and_eq_true_iff.mpr ⟨decide_eq_true (Nat.zero_le v), decide_eq_true hmax⟩, rfl⟩

theorem valueOk_portLoopback (hmax : v ≤ 1) : valueOk u .port page fPortLoopback v whole = true :=
  Bool.and_eq_true_iff.mpr ⟨Bool.and_eq_true_iff.mpr ⟨decide_eq_true (Nat.zero_le v), decide_eq_true hmax⟩, rfl⟩

theorem valueOk_portSwapEn (hmax : v ≤ 1) : valueOk u .port page fPortSwapEn v whole = true :=
  Bool.and_eq_true_iff.mpr ⟨Bool.and_eq_true_iff.mpr ⟨decide_eq_true (Nat.zero_le v), decide_eq_true hmax⟩, rfl⟩

theorem valueOk_portNarrowMin (hmin : 1 ≤ v) (hmax : v ≤ 8) : valueOk u .port page fPortNarrowMin v whole = true :=
  Bool.and_eq_true_iff.mpr ⟨Bool.and_eq_true_iff.mpr ⟨decide_eq_true hmin, decide_eq_true hmax⟩, rfl⟩

theorem valueOk_portReplayLimit (hmin : 1 ≤ v) (hmax : v ≤ 255) : valueOk u .port page fPortReplayLimit v whole = true :=
  Bool.and_eq_true_iff.mpr ⟨Bool.and_eq_true_iff.mpr ⟨decide_eq_true hmin, decide_eq_true hmax⟩, rfl⟩

theorem storeField_portEnable : storeField u .port page fPortEnable v =
    portEnableEffect (setFld u page fPortEnable v) (page - 0x20) (decide (v ≠ 0)) := rfl

theorem storeField_portLoopback : storeField u .port page fPortLoopback v =
    loopbackEffect (setFld u page fPortLoopback v) (page - 0x20) (decide (v ≠ 0)) := rfl

/-- The last three settings of a port's word are stored and nothing more. -/
theorem storeField_portPlain {f : FieldDef} (hf : f = fPortSwapEn ∨ f = fPortNarrowMin ∨ f = fPortReplayLimit) :
    storeField u .port page f v = setFld u page f v := by
  obtain rfl | rfl | rfl := hf <;> rfl

end PortWord

/-- What enabling or disabling a port leaves once LOOPBACK is written as it stood: the first two settings of its word. -/
def enabledPort (s : State) (p : PortId) (on : Bool) : State :=
  loopbackEffect (setFld (portEnableEffect (setFld (unvoted s (pgPort p) 0x100) (pgPort p) fPortEnable (bit01 on)) p on) (pgPort p)
    fPortLoopback (fld s (pgPort p) fPortLoopback)) p (flag s (pgPort p) fPortLoopback)

theorem exec_portEnable {s : State} {m : Master} {p : PortId} {on : Bool} (hp : Passes s m (pgPort p) .guarded)
    (hlone : fld s (pgPort p) fPortTimeUpstream = 0 ∨
      ∀ q, q < 16 → q ≠ p.val → flag (enabledPort s p on) (pgPort q) fPortTimeUpstream = false)
    (hmin : 1 ≤ fld s (pgPort p) fPortNarrowMin) (hmax : fld s (pgPort p) fPortNarrowMin ≤ 8) (hreplay : 1 ≤ fld s (pgPort p) fPortReplayLimit) :
    exec (.portEnable m p on) s = .next (accepted (setFld (setFld (setFld (setFld
      (if flag s (pgPort p) fPortTimeUpstream = false ∧ flag (enabledPort s p on) (pgPort p) fPortTimeUpstream = true then
        unfollow (enabledPort s p on) else enabledPort s p on) (pgPort p)
      fPortTimeUpstream (fld s (pgPort p) fPortTimeUpstream)) (pgPort p)
      fPortSwapEn (fld s (pgPort p) fPortSwapEn)) (pgPort p)
      fPortNarrowMin (fld s (pgPort p) fPortNarrowMin)) (pgPort p)
      fPortReplayLimit (fld s (pgPort p) fPortReplayLimit))) := by
  have hpage := pageBlock_pgPort p
  have henable : bitsOf (withField s (pgPort p) fPortEnable (bit01 on)) fPortEnable.lo fPortEnable.width = bit01 on :=
    (bitsOf_withField_same ..).trans (bit01_mod on)
  have hkept (x : FieldDef) (hx : x ∈ [fPortLoopback, fPortTimeUpstream, fPortSwapEn, fPortNarrowMin, fPortReplayLimit]) :
      bitsOf (withField s (pgPort p) fPortEnable (bit01 on)) x.lo x.width = fld s (pgPort p) x := by
    obtain ⟨hoff, hlo⟩ : x.off = fPortEnable.off ∧ fPortEnable.lo + fPortEnable.width ≤ x.lo := by revert x; decide
    have hnoAction : ∀ f ∈ fieldsAt .port fPortEnable.off, f.acc ≠ .wa := by decide
    exact bitsOf_withField_other x _ hpage hoff (.inr hlo) fun f hf hacc => absurd hacc (hnoAction f (hoff ▸ hf))
  have hbit {x : FieldDef} (hx : x.width = 1) : fld s (pgPort p) x ≤ 1 := by
    have hlt := fld_lt s (pgPort p) x
    rw [hx] at hlt
    exact Nat.le_of_lt_succ hlt
  have hreplayMax : fld s (pgPort p) fPortReplayLimit ≤ 255 := Nat.le_of_lt_succ (fld_lt s (pgPort p) fPortReplayLimit)
  have hon : bit01 on ≤ 1 := by cases on <;> decide
  have hrow := rowWrite_putFields (off := 0x100)
    [fPortEnable, fPortLoopback, fPortTimeUpstream, fPortSwapEn, fPortNarrowMin, fPortReplayLimit]
    (withField s (pgPort p) fPortEnable (bit01 on)) hpage hp (by decide) rfl (by decide)
  simp only [List.foldl_cons, List.foldl_nil] at hrow
  rw [putField_rw rfl henable (valueOk_portEnable _ _ _ hon), storeField_portEnable, pgPort_sub, bit01_ne_zero,
    putField_rw rfl (hkept fPortLoopback (by decide)) (valueOk_portLoopback _ _ _ (hbit rfl)), storeField_portLoopback, pgPort_sub] at hrow
  change _ = accepted (putField (putField (putField (putField (enabledPort s p on) ..) ..) ..) ..) at hrow
  rw [putField_rw rfl (hkept fPortTimeUpstream (by decide)) (valueOk_timeUpstream _ (hbit rfl) hlone), storeField_timeUpstream,
    putField_rw rfl (hkept fPortSwapEn (by decide)) (valueOk_portSwapEn _ _ _ (hbit rfl)), storeField_portPlain _ _ (.inl rfl),
    putField_rw rfl (hkept fPortNarrowMin (by decide)) (valueOk_portNarrowMin _ _ _ hmin hmax), storeField_portPlain _ _ (.inr (.inl rfl)),
    putField_rw rfl (hkept fPortReplayLimit (by decide)) (valueOk_portReplayLimit _ _ _ hreplay hreplayMax),
    storeField_portPlain _ _ (.inr (.inr rfl))] at hrow
  exact congrArg Host.Outcome.next hrow

/-- Settles O42: the actions as one bit of their word, the settings beside an action written as they stand. -/
theorem moduleActionsComplete : Obligations.ModuleActionsComplete := by
  refine ⟨⟨?dies, ?manager⟩, ⟨?presence, ?noPresence⟩, ?join, ?joinOpen, ?trips, ?ports⟩
  case dies => exact fun s m d lost hp => ⟨exec_dieSleep hp d, exec_dieWake hp d lost⟩
  case manager => exact fun s m hp => ⟨exec_standby hp, fun lost => exec_wake hp lost, exec_warmReset hp, exec_moduleReset hp⟩
  case presence => exact fun s m hp => ⟨exec_svnCommit hp, exec_eraseA hp, exec_eraseB hp, exec_presenceClose hp⟩
  case noPresence => exact fun s m hp hdenied => exec_presenceClose_denied hp hdenied
  case join => exact fun s m hp hidle => exec_join hp hidle
  case joinOpen => exact fun s m on hp => exec_joinOpen hp on
  case trips => exact fun s m hp hmin hmax hduty => exec_tripClear hp hmin hmax hduty
  case ports => exact fun s m p on hp hlone hmin hmax hreplay => exec_portEnable hp hlone hmin hmax hreplay

end Sys2Proof.Machine
end

section
/-!
The rows that write a mailbox value (R47 to R53): the data words and MBX_SEL, after which the block has the value.
-/

namespace Sys2Proof.Machine

/-! ### Values of an address -/

/-- A master that may writes the 64 bits of an address as a value of two words. -/
theorem rowMailbox_twoWords {s : State} {m : Master} {b : Block} {page : Nat} {d : WideDef} {g : GuardKind} (a : BitVec 64)
    (hb : pageBlock page = some b) (hd : (blockWides b).find? (fun x => x.vid == d.vid) = some d) (hform : d.acc = .rw ∧ d.grd = g ∧ d.words = 2)
    (hp : Passes s m page g) :
    ∃ u v, RegsOnly s u ∧ cutWide v d.words = wideOf (twoWords a) ∧ rowMailbox s m page d.vid (twoWords a) = accepted (writeWide u b page d v) := by
  obtain ⟨hrw, hgrd, hwords⟩ := hform
  obtain ⟨u, v, hu, hv, hrow⟩ := rowMailbox_short hb hd hrw hgrd hp (by omega) (twoWords a)
  refine ⟨u, v, hu.1, hv.trans ?_, hrow⟩
  rw [hwords]
  rfl

theorem exec_submit {s : State} {m : Master} {d : DieId} (a : BitVec 64) (hp : Passes s m (pgDisp d) .open) :
    ∃ u, RegsOnly s u ∧ exec (.submit m d a) s =
      .next (accepted (submitRecord (setWide u (pgDisp d) wSubmit (wideOf (twoWords a))) d a.toNat)) := by
  obtain ⟨u, v, hu, hv, hrow⟩ := rowMailbox_twoWords (d := wSubmit) a (pageBlock_pgDisp d) rfl ⟨rfl, rfl, rfl⟩ hp
  simp only [writeWide, hv, pgDisp_sub, if_true, wideOf_twoWords_toNat] at hrow
  exact ⟨u, hu, congrArg Host.Outcome.next hrow⟩

theorem exec_collArm {s : State} {m : Master} (a : BitVec 64) (hp : Passes s m 0x30 .open) :
    ∃ u, RegsOnly s u ∧ exec (.collArm m a) s = .next (accepted (armColl (setWide u 0x30 wCollArm (wideOf (twoWords a))) a.toNat)) := by
  obtain ⟨u, v, hu, hv, hrow⟩ := rowMailbox_twoWords (b := .transport) (d := wCollArm) a rfl rfl ⟨rfl, rfl, rfl⟩ hp
  simp only [writeWide, hv, if_true, wideOf_twoWords_toNat] at hrow
  exact ⟨u, hu, congrArg Host.Outcome.next hrow⟩

theorem exec_ledgerArm {s : State} {m : Master} {d : DieId} (a : BitVec 64) (hp : Passes s m (pgDie d) .guarded) :
    ∃ u, RegsOnly s u ∧ exec (.ledgerArm m d a) s =
      .next (accepted (armLedger (setWide u (pgDie d) wLedgerArm (wideOf (twoWords a))) d a.toNat)) := by
  obtain ⟨u, v, hu, hv, hrow⟩ := rowMailbox_twoWords (d := wLedgerArm) a (pageBlock_pgDie d) rfl ⟨rfl, rfl, rfl⟩ hp
  simp only [writeWide, hv, pgDie_sub, if_true, if_neg (show ¬ wLedgerArm.vid = wRngKey.vid by decide), wideOf_twoWords_toNat] at hrow
  exact ⟨u, hu, congrArg Host.Outcome.next hrow⟩

theorem exec_gateAdd {s : State} {m : Master} {d : DieId} (a : BitVec 64) (hp : Passes s m (pgDie d) .guarded) :
    ∃ u, RegsOnly s u ∧ exec (.gateAdd m d a) s =
      .next (accepted (gateAdd (setWide u (pgDie d) wGateAdd (wideOf (twoWords a))) d a.toNat)) := by
  obtain ⟨u, v, hu, hv, hrow⟩ := rowMailbox_twoWords (d := wGateAdd) a (pageBlock_pgDie d) rfl ⟨rfl, rfl, rfl⟩ hp
  simp only [writeWide, hv, pgDie_sub, if_neg (show ¬ wGateAdd.vid = wRngKey.vid by decide),
    if_neg (show ¬ wGateAdd.vid = wLedgerArm.vid by decide), wideOf_twoWords_toNat] at hrow
  exact ⟨u, hu, congrArg Host.Outcome.next hrow⟩

theorem exec_updArm {s : State} {m : Master} {d : DieId} (a : BitVec 64) (hp : Passes s m (pgUpd d) .guarded) :
    ∃ u, RegsOnly s u ∧ exec (.updArm m d a) s =
      .next (accepted (armUpd (setWide u (pgUpd d) wUpdArm (wideOf (twoWords a))) d a.toNat)) := by
  obtain ⟨u, v, hu, hv, hrow⟩ := rowMailbox_twoWords (d := wUpdArm) a (pageBlock_pgUpd d) rfl ⟨rfl, rfl, rfl⟩ hp
  simp only [writeWide, hv, pgUpd_sub, if_true, wideOf_twoWords_toNat] at hrow
  exact ⟨u, hu, congrArg Host.Outcome.next hrow⟩

/-! ### WATCH_ARM -/

theorem two_toNat (a : BitVec 64) : two a.toNat = [a.toNat % 2 ^ 32, a.toNat / 2 ^ 32 % 2 ^ 32] := rfl

/-- The two words of an address, joined again. -/
theorem twoWords_join (a : BitVec 64) : a.toNat % 2 ^ 32 + a.toNat / 2 ^ 32 % 2 ^ 32 * 2 ^ 32 = a.toNat := by
  have ha := a.isLt
  omega

/-- The value of four addresses holds the first in its low bits. -/
theorem wideOf_fourWords_low (c t a r : BitVec 64) :
    (wideOf (twoWords c ++ twoWords t ++ twoWords a ++ twoWords r)).toNat =
      c.toNat + 2 ^ 64 * (t.toNat + 2 ^ 64 * (a.toNat + 2 ^ 64 * r.toNat)) := by
  have hc := c.isLt
  have ht := t.isLt
  have ha := a.isLt
  have hr := r.isLt
  simp only [wideOf, twoWords, two_toNat, List.cons_append, List.nil_append, List.foldr_cons, List.foldr_nil, BitVec.toNat_ofNat]
  omega

theorem exec_watchArm {s : State} {m : Master} {d : DieId} (c t a r : BitVec 64) (hp : Passes s m (pgDisp d) .open) :
    ∃ u, RegsOnly s u ∧ exec (.watchArm m d c t a r) s = .next (accepted (armWatch
      (setWide u (pgDisp d) wWatchArm (wideOf (twoWords c ++ twoWords t ++ twoWords a ++ twoWords r))) d c.toNat t a.toNat r.toNat)) := by
  obtain ⟨u, v, hu, hv, hrow⟩ := rowMailbox_long (d := wWatchArm) (pageBlock_pgDisp d) rfl rfl rfl hp rfl
    (twoWords c ++ twoWords t ++ twoWords a ++ twoWords r)
  have hall := wideOf_fourWords_low c t a r
  have hcut : cutWide v wWatchArm.words = wideOf (twoWords c ++ twoWords t ++ twoWords a ++ twoWords r) := hv
  have hword (i : Nat) : wideWord (wideOf (twoWords c ++ twoWords t ++ twoWords a ++ twoWords r)) i =
      (twoWords c ++ twoWords t ++ twoWords a ++ twoWords r).getD i 0 % 2 ^ 32 := wideWord_wideOf _ i (Nat.le_refl 8)
  have hcounter : (wideOf (twoWords c ++ twoWords t ++ twoWords a ++ twoWords r)).toNat % 2 ^ 64 = c.toNat := by
    rw [hall, Nat.add_mul_mod_self_left, Nat.mod_eq_of_lt c.isLt]
  have htarget : (wideOf (twoWords c ++ twoWords t ++ twoWords a ++ twoWords r)).extractLsb' 64 64 = t := by
    refine BitVec.eq_of_toNat_eq ?_
    rw [BitVec.extractLsb'_toNat, hall, Nat.shiftRight_eq_div_pow, Nat.add_mul_div_left _ _ (Nat.two_pow_pos 64), Nat.div_eq_of_lt c.isLt,
      Nat.zero_add, Nat.add_mul_mod_self_left, Nat.mod_eq_of_lt t.isLt]
  have hjoin (x : BitVec 64) : x.toNat % 2 ^ 32 % 2 ^ 32 + x.toNat / 2 ^ 32 % 2 ^ 32 % 2 ^ 32 * 2 ^ 32 = x.toNat := by
    rw [Nat.mod_mod, Nat.mod_mod, twoWords_join]
  have haddr : wideWord (wideOf (twoWords c ++ twoWords t ++ twoWords a ++ twoWords r)) 4 +
      wideWord (wideOf (twoWords c ++ twoWords t ++ twoWords a ++ twoWords r)) 5 * 2 ^ 32 = a.toNat := by
    rw [hword, hword]
    exact hjoin a
  have hreserved : wideWord (wideOf (twoWords c ++ twoWords t ++ twoWords a ++ twoWords r)) 6 +
      wideWord (wideOf (twoWords c ++ twoWords t ++ twoWords a ++ twoWords r)) 7 * 2 ^ 32 = r.toNat := by
    rw [hword, hword]
    exact hjoin r
  simp only [writeWide, hcut, pgDisp_sub, if_neg (show ¬ wWatchArm.vid = wSubmit.vid by decide), hcounter, htarget, haddr, hreserved] at hrow
  exact ⟨u, hu.1, congrArg Host.Outcome.next hrow⟩

/-! ### ADDR_PROBE -/

/-- The value of an address is the value of its words and zeros. -/
theorem wideOf_twoWords_zeros (a : BitVec 64) : wideOf (twoWords a ++ [0, 0]) = wideOf (twoWords a) := rfl

/-- A read of the probe by a master that may: the data words show what the interleave's page presents of it. -/
theorem mailboxOp_probe (x : State) (m : Master) : ∃ o, RegsOnly x o ∧ RegsOnly x (mailboxOp x m .interleave 0x50 wAddrProbe.vid false false) ∧
    ∀ i, i < 4 → mbxWord (mailboxOp x m .interleave 0x50 wAddrProbe.vid false false) 0x50 i =
      wideWord (presentWide o .interleave 0x50 wAddrProbe) i := by
  obtain ⟨y, -, hread, hwords⟩ := mailboxOp_read (s := x) (m := m) (b := .interleave) (page := 0x50) (d := wAddrProbe) rfl rfl
  have hopen := mbxOnly_opened 0x50 x wAddrProbe.vid wAddrProbe.words false false
  refine ⟨_, hopen.1, hread.1, fun i hi => ?_⟩
  have hlist : (List.range (min 6 wAddrProbe.words))[i]? = some i := List.getElem?_range hi
  rw [hwords, mbxWord_setMbxWords _ _ _ i (by omega), List.getD_eq_getElem?_getD, List.getElem?_map, hlist]
  exact Nat.mod_eq_of_lt (Nat.mod_lt _ (Nat.two_pow_pos 32))

/-- States that differ in register words and mailbox buffers only still do so when both have the answer `r`. -/
theorem RegsOnly.withResp {s u : State} (h : RegsOnly s u) (r : Resp) : RegsOnly { s with resp := r } { u with resp := r } := by
  unfold RegsOnly at *
  rw [h]

theorem RegsOnly.setWide {s u : State} (h : RegsOnly s u) (page : Nat) (d : WideDef) (v : Wide) :
    RegsOnly (setWide s page d v) (Machine.setWide u page d v) := by
  unfold RegsOnly at h
  rw [h]
  rfl

/-- What two states share with a third they share with each other. -/
theorem RegsOnly.between {s t u : State} (ht : RegsOnly s t) (hu : RegsOnly s u) : RegsOnly t u := by
  unfold RegsOnly at *
  rw [hu, ht]

/-- An access that changes the answer alone, its answer taken back. -/
theorem accepted_withResp (t : State) : { accepted t with resp := t.resp } = t := rfl

/-- An access replaces whatever answer stood before. -/
theorem accepted_of_withResp (t : State) (r : Resp) : accepted { t with resp := r } = accepted t := rfl

/-- A data word does not depend on the answer. -/
theorem mbxWord_withResp (t : State) (r : Resp) (page i : Nat) : mbxWord { t with resp := r } page i = mbxWord t page i := rfl

/-- What a value shows does not depend on the answer. -/
theorem presentWide_probe_withResp (o : State) (r : Resp) :
    presentWide { o with resp := r } .interleave 0x50 wAddrProbe = presentWide o .interleave 0x50 wAddrProbe := rfl

/-- The row of ADDR_PROBE: the value is written, then read. -/
theorem exec_addrProbe_read {s x : State} {m : Master} {a : BitVec 64} (hp : Passes s m 0x50 .open)
    (hwrite : rowMailbox s m 0x50 wAddrProbe.vid (twoWords a ++ [0, 0]) = x) :
    exec (.addrProbe m a) s = .next (accepted (mailboxOp x m .interleave 0x50 wAddrProbe.vid false false)) := by
  change Host.Outcome.next (rowWrite (rowMailbox s m 0x50 wAddrProbe.vid (twoWords a ++ [0, 0])) m 0x50 0xE0 wAddrProbe.vid) = _
  rw [hwrite, rowWrite_mbxSel (b := .interleave) rfl hp.1 rfl]
  rfl

/-- ADDR_PROBE's value is stored as the address. -/
theorem rowMailbox_probe {s : State} {m : Master} (a : BitVec 64) (hp : Passes s m 0x50 .open) :
    ∃ t, RegsOnly s t ∧ rowMailbox s m 0x50 wAddrProbe.vid (twoWords a ++ [0, 0]) = accepted (setWide t 0x50 wAddrProbe (wideOf (twoWords a))) := by
  obtain ⟨t, w, ht, hw, hwrite⟩ := rowMailbox_short (b := .interleave) (d := wAddrProbe) rfl rfl rfl rfl hp (by decide) (twoWords a ++ [0, 0])
  have hwords : (List.range wAddrProbe.words).map (fun i => (twoWords a ++ [0, 0]).getD i 0) = twoWords a ++ [0, 0] := rfl
  rw [hwords, wideOf_twoWords_zeros] at hw
  simp only [writeWide, hw] at hwrite
  exact ⟨t, ht.1, hwrite⟩

/-- The address is written as a value, then the value is read: the data words show its decoding. -/
theorem exec_addrProbe {s : State} {m : Master} (a : BitVec 64) (hp : Passes s m 0x50 .open) :
    ∃ u v, RegsOnly (setWide s 0x50 wAddrProbe (wideOf (twoWords a))) u ∧ RegsOnly u v ∧
      exec (.addrProbe m a) s = .next (accepted v) ∧
      ∀ i, i < 4 → mbxWord v 0x50 i = wideWord (presentWide u .interleave 0x50 wAddrProbe) i := by
  obtain ⟨t, ht, hwrite⟩ := rowMailbox_probe a hp
  have hrow := exec_addrProbe_read hp hwrite
  have hstart := ht.setWide 0x50 wAddrProbe (wideOf (twoWords a))
  generalize setWide t 0x50 wAddrProbe (wideOf (twoWords a)) = x at hstart hrow
  obtain ⟨o, ho, hv, hwords⟩ := mailboxOp_probe (accepted x) m
  generalize mailboxOp (accepted x) m .interleave 0x50 wAddrProbe.vid false false = v at *
  have ho := ho.withResp x.resp
  have hv := hv.withResp x.resp
  rw [accepted_withResp] at ho hv
  refine ⟨{ o with resp := x.resp }, { v with resp := x.resp }, hstart.trans ho, ho.between hv, ?_, fun i hi => ?_⟩
  · exact hrow.trans (congrArg Host.Outcome.next (accepted_of_withResp v x.resp).symm)
  · rw [presentWide_probe_withResp]
    exact (mbxWord_withResp v x.resp 0x50 i).trans (hwords i hi)

/-! ### ROUTE and FENCE -/

/-- A word cut to `k` of its bits, as a number. -/
theorem wideWord_two (w0 w1 : BitVec 32) : wideWord (wideOf [w0.toNat, w1.toNat]) 0 = w0.toNat ∧ wideWord (wideOf [w0.toNat, w1.toNat]) 1 = w1.toNat := by
  have h0 := w0.isLt
  have h1 := w1.isLt
  exact ⟨(wideWord_wideOf [w0.toNat, w1.toNat] 0 (by decide : 2 ≤ 8)).trans (Nat.mod_eq_of_lt h0), (wideWord_wideOf [w0.toNat, w1.toNat] 1 (by decide : 2 ≤ 8)).trans (Nat.mod_eq_of_lt h1)⟩

theorem exec_route {s : State} {m : Master} (w0 w1 : BitVec 32) (hp : Passes s m 0x30 .guarded) :
    ∃ u, RegsOnly s u ∧ exec (.route m w0 w1) s = .next (accepted (writeRoute u (wideOf [w0.toNat, w1.toNat]))) := by
  obtain ⟨u, v, hu, hv, hrow⟩ := rowMailbox_short (b := .transport) (d := wRoute) rfl rfl rfl rfl hp (by decide) [w0.toNat, w1.toNat]
  have hcut : cutWide v wRoute.words = wideOf [w0.toNat, w1.toNat] := hv
  simp only [writeWide, hcut, if_neg (show ¬ wRoute.vid = wCollArm.vid by decide)] at hrow
  exact ⟨u, hu.1, congrArg Host.Outcome.next hrow⟩

theorem writeRoute_set {u : State} {w0 w1 : BitVec 32} (hset : w0.getLsbD 31 = true) (hentry : bitsOf w1.toNat 10 6 = 0) :
    writeRoute u (wideOf [w0.toNat, w1.toNat]) = setNet (setRoute u (w0.setWidth 16) (w1.setWidth 16))
      { (setRoute u (w0.setWidth 16) (w1.setWidth 16)).net with routeSel := w0.toNat % 2 ^ 16 } := by
  obtain ⟨h0, h1⟩ := wideWord_two w0 w1
  have hdst : BitVec.ofNat 16 (w0.toNat % 2 ^ 16) = w0.setWidth 16 := BitVec.eq_of_toNat_eq (by simp)
  have hent : BitVec.ofNat 16 w1.toNat = w1.setWidth 16 := BitVec.eq_of_toNat_eq (by simp)
  have hbit : w0.toNat.testBit 31 = true := hset
  simp only [writeRoute, h0, h1, hbit, hentry, if_true, ne_eq, not_true_eq_false, if_false, hdst, hent]

theorem writeRoute_select {u : State} {w0 w1 : BitVec 32} (hset : w0.getLsbD 31 = false) :
    writeRoute u (wideOf [w0.toNat, w1.toNat]) = setNet u { u.net with routeSel := w0.toNat % 2 ^ 16 } := by
  obtain ⟨h0, h1⟩ := wideWord_two w0 w1
  have hbit : w0.toNat.testBit 31 = false := hset
  simp only [writeRoute, h0, hbit, Bool.false_eq_true, if_false]

theorem exec_fence {s : State} {m : Master} (w0 w1 : BitVec 32) (hp : Passes s m 6 .guarded) :
    ∃ u, RegsOnly s u ∧ exec (.fence m w0 w1) s = .next (accepted (writeFence u (wideOf [w0.toNat, w1.toNat]))) := by
  obtain ⟨u, v, hu, hv, hrow⟩ := rowMailbox_short (b := .health) (d := wFence) rfl rfl rfl rfl hp (by decide) [w0.toNat, w1.toNat]
  have hcut : cutWide v wFence.words = wideOf [w0.toNat, w1.toNat] := hv
  simp only [writeWide, hcut, if_true] at hrow
  exact ⟨u, hu.1, congrArg Host.Outcome.next hrow⟩

section Fence
variable {u : State} {w0 w1 : BitVec 32} (hg : w0.toNat % 2 ^ 11 < 1216)
include hg

theorem writeFence_inService (hback : w0.getLsbD 16 = false) (hstate : coreState u (w0.toNat % 2 ^ 11) = 0) :
    writeFence u (wideOf [w0.toNat, w1.toNat]) = fenceCore (setWide u 6 wFence (wideOf [w0.toNat % 2 ^ 17, 0])) (w0.toNat % 2 ^ 11) 7 := by
  obtain ⟨h0, -⟩ := wideWord_two w0 w1
  have hbit : w0.toNat.testBit 16 = false := hback
  have hstate' : coreState (setWide u 6 wFence (wideOf [w0.toNat % 2 ^ 17, 0])) (w0.toNat % 2 ^ 11) = 0 := hstate
  simp only [writeFence, h0, hbit, Nat.not_lt.mpr (Nat.le_of_lt_succ hg), Bool.false_eq_true, if_false, hstate', if_true]

theorem writeFence_back (hback : w0.getLsbD 16 = true) (hstate : coreState u (w0.toNat % 2 ^ 11) = 3) (hcause : coreCause u (w0.toNat % 2 ^ 11) = 7) :
    writeFence u (wideOf [w0.toNat, w1.toNat]) = askCore (setWide u 6 wFence (wideOf [w0.toNat % 2 ^ 17, 0])) ⟨w0.toNat % 2 ^ 11, true⟩ := by
  obtain ⟨h0, -⟩ := wideWord_two w0 w1
  have hbit : w0.toNat.testBit 16 = true := hback
  have hstate' : coreState (setWide u 6 wFence (wideOf [w0.toNat % 2 ^ 17, 0])) (w0.toNat % 2 ^ 11) = 3 := hstate
  have hcause' : coreCause (setWide u 6 wFence (wideOf [w0.toNat % 2 ^ 17, 0])) (w0.toNat % 2 ^ 11) = 7 := hcause
  simp only [writeFence, h0, hbit, Nat.not_lt.mpr (Nat.le_of_lt_succ hg), if_false, if_true, hstate', hcause', and_self]

end Fence

/-! ### RANKSET -/

theorem exec_rankset {s : State} {m : Master} (w0 w1 w2 w3 : BitVec 32) (hp : Passes s m 0x31 .guarded) :
    ∃ u, MbxOnly 0x31 s u ∧
      exec (.rankset m w0 w1 w2 w3) s = .next (accepted (writeRankset u (wideOf [w0.toNat, w1.toNat, w2.toNat, w3.toNat]))) := by
  obtain ⟨u, v, hu, hv, hrow⟩ := rowMailbox_short (b := .membership) (d := wRankset) rfl rfl rfl rfl hp (by decide)
    [w0.toNat, w1.toNat, w2.toNat, w3.toNat]
  have hcut : cutWide v wRankset.words = wideOf [w0.toNat, w1.toNat, w2.toNat, w3.toNat] := hv
  simp only [writeWide, hcut, if_true] at hrow
  exact ⟨u, hu, congrArg Host.Outcome.next hrow⟩

/-- A legal rank set whose list can be read is kept under its number. -/
theorem writeRankset_read {u v : State} {b : List Byte} {w0 w1 w2 w3 : BitVec 32} (hset : w0.toNat % 256 ≠ 0)
    (haddr : (w1.toNat + w2.toNat * 2 ^ 32) % 2 = 0) (hn : w3.toNat % 2 ^ 15 ≠ 0) (hmax : w3.toNat % 2 ^ 15 ≤ 16384)
    (hcolls : u.net.colls.any (fun c => c.desc.rankset == w0.toNat % 256) = false)
    (hread : memRead u (w1.toNat + w2.toNat * 2 ^ 32) (2 * (w3.toNat % 2 ^ 15)) = (v, some b)) :
    writeRankset u (wideOf [w0.toNat, w1.toNat, w2.toNat, w3.toNat]) = setWide (setNet v { v.net with
      ranksets := mapPut (w0.toNat % 256)
        ((List.range (w3.toNat % 2 ^ 15)).map (fun i => leNat ((b.drop (2 * i)).take 2) % 2 ^ 15)) v.net.ranksets })
      0x31 wRankset (wideOf [w0.toNat, w1.toNat, w2.toNat, w3.toNat]) := by
  have hword (i : Nat) : wideWord (wideOf [w0.toNat, w1.toNat, w2.toNat, w3.toNat]) i =
      [w0.toNat, w1.toNat, w2.toNat, w3.toNat].getD i 0 % 2 ^ 32 := wideWord_wideOf _ i (by decide : 4 ≤ 8)
  have h0 : wideWord (wideOf [w0.toNat, w1.toNat, w2.toNat, w3.toNat]) 0 = w0.toNat := (hword 0).trans (Nat.mod_eq_of_lt w0.isLt)
  have h1 : wideWord (wideOf [w0.toNat, w1.toNat, w2.toNat, w3.toNat]) 1 = w1.toNat := (hword 1).trans (Nat.mod_eq_of_lt w1.isLt)
  have h2 : wideWord (wideOf [w0.toNat, w1.toNat, w2.toNat, w3.toNat]) 2 = w2.toNat := (hword 2).trans (Nat.mod_eq_of_lt w2.isLt)
  have h3 : wideWord (wideOf [w0.toNat, w1.toNat, w2.toNat, w3.toNat]) 3 = w3.toNat := (hword 3).trans (Nat.mod_eq_of_lt w3.isLt)
  simp only [writeRankset, h0, h1, h2, h3, hset, haddr, hn, Nat.not_lt.mpr hmax, hcolls, ne_eq, not_true_eq_false, Bool.false_eq_true, or_self,
    if_false, hread]

/-- No mailbox operation of another page than the interleave's and the manager's changes what memory is reached. -/
theorem MbxOnly.reachable_eq {page : Nat} {s u : State} (h : MbxOnly page s u) (hmgr : page ≠ 0) (hil : page ≠ 0x50) (a : Nat) :
    reachable u a = reachable s a := by
  have hfld (f : FieldDef) (ho : f.off < 4096) : fld u 0 f = fld s 0 f := h.fld_eq 0 f ho (.inl (Ne.symm hmgr))
  have hplan (d : Nat) : regionReplanned u d = regionReplanned s d :=
    congrArg (fun n => decide (n ≠ 0)) (h.fld_eq 0x50 _ (by decide : (0x100 : Nat) < 4096) (.inl (Ne.symm hil)))
  have hfailed (d : Nat) : failedCh u d = failedCh s d := h.fld_eq 0x50 _ (by decide : (0x100 : Nat) < 4096) (.inl (Ne.symm hil))
  have hmem : u.mem = s.mem := by rw [h.1]
  have hchan (c : Nat) : chanOf u c = chanOf s c := by rw [chanOf, hmem, ← chanOf]
  have hlocate : locate u a = locate s a := by simp only [locate, hplan, hfailed, slotOf, hchan]
  have hawake (d : Nat) : dieAwake u d = dieAwake s d := congrArg (Nat.testBit · d) (hfld _ (by decide))
  have hstate : modState u = modState s := hfld _ (by decide)
  simp only [reachable, hlocate, hawake, hstate, chanServes, backed, hchan]

theorem MbxOnly.rangeReachable_eq {page : Nat} {s u : State} (h : MbxOnly page s u) (hmgr : page ≠ 0) (hil : page ≠ 0x50) (a n : Nat) :
    rangeReachable u a n = rangeReachable s a n := by
  simp only [rangeReachable, h.reachable_eq hmgr hil]

/-- Settles O43: each row is one value written through the mailbox, and the block's own effect of that value. -/
theorem mailboxCommandsComplete : Obligations.MailboxCommandsComplete := by
  refine ⟨⟨?submit, ?watch, ?coll, ?ledger, ?upd, ?probe⟩, ?route, ?rankset, ?fence⟩
  case submit => exact fun s m d a hp => exec_submit a hp
  case watch => exact fun s m d c t a r hp => exec_watchArm c t a r hp
  case coll => exact fun s m a hp => exec_collArm a hp
  case ledger => exact fun s m d a hp => ⟨exec_ledgerArm a hp, exec_gateAdd a hp⟩
  case upd => exact fun s m d a hp => exec_updArm a hp
  case probe => exact fun s m a hp => exec_addrProbe a hp
  case route =>
    intro s m w0 w1 hp
    obtain ⟨u, hu, hrow⟩ := exec_route w0 w1 hp
    have hnet : u.net = s.net := by rw [hu]
    refine ⟨u, hu, fun hset hentry => ?_, fun hset => ?_⟩
    · rw [hrow, writeRoute_set hset hentry]
    · rw [hrow, writeRoute_select hset, hnet]
  case rankset =>
    intro s m w0 w1 w2 w3 hp
    obtain ⟨u, hu, hrow⟩ := exec_rankset w0 w1 w2 w3 hp
    have hnet : u.net = s.net := by rw [hu.1]
    have hmem : u.mem = s.mem := by rw [hu.1]
    refine ⟨u, hu.1, fun hset haddr hn hmax hcolls => ⟨fun v b hread => ?_, fun hflips hpoison hreach => ?_⟩⟩
    · rw [hrow, writeRankset_read hset haddr hn hmax (hnet ▸ hcolls) hread]
    · rw [← hu.rangeReachable_eq (by decide) (by decide)] at hreach
      rw [memRead_clean (hmem ▸ hflips) (hmem ▸ hpoison) hreach, hmem]
  case fence =>
    intro s m w0 w1 hp
    obtain ⟨u, hu, hrow⟩ := exec_fence w0 w1 hp
    have hhealth : u.health = s.health := by rw [hu]
    have hstate (g : Nat) : coreState u g = coreState s g := by rw [coreState, hhealth, ← coreState]
    have hcause (g : Nat) : coreCause u g = coreCause s g := by rw [coreCause, hhealth, ← coreCause]
    refine ⟨u, hu, fun hg => ⟨fun hback hs => ?_, fun hback hs hc => ?_⟩⟩
    · rw [hrow, writeFence_inService hg hback ((hstate _).trans hs)]
    · rw [hrow, writeFence_back hg hback ((hstate _).trans hs) ((hcause _).trans hc)]

end Sys2Proof.Machine
end

section
/-!
Joining, the membership table and heartbeats (R291, R292, R293).
-/

namespace Sys2Proof.Machine

/-! ### Joining -/

section Join
variable {s : State} {pk : Packet}

theorem exec_joinRetry {t : Nat} (hsent : s.net.joinSent = some t) (hstate : jstate s = jsJoining) (hdue : t + 10000000 ≤ now s) :
    exec .joinRetry s = .next (sendJoin s) := by
  change execJoinRetry s = _
  simp only [execJoinRetry, hsent, hstate, hdue, and_self, if_true]

/-- A JOIN_REQ that reaches this module is answered by what it is in the group. -/
theorem exec_joinReq_arrives (harrives : Arrives s pk kJoinReq) (hok : joinReqOk pk = true) :
    exec (.joinReq pk) s = .next (
      if jstate (takeInbox s pk) = jsManager then answerJoin (takeInbox s pk) pk
      else if strapRole (takeInbox s pk) = 0 then sendJoinResp (takeInbox s pk) pk.src 2 0
      else if strapRole (takeInbox s pk) = 2 then sendJoinResp (takeInbox s pk) pk.src 7 0
      else takeInbox s pk) := by
  change execJoinReq pk s = _
  rw [execJoinReq, receive_arrives harrives hok]
  simp only [harrives.2.1, Bool.not_true, Bool.false_eq_true, false_and, and_false, if_false]

theorem exec_joinReq_forward (hkind : pk.kind.toNat = kJoinReq) (hme : forMe s pk = false) (hok : packetOk pk = true) :
    exec (.joinReq pk) s = exec (.packetForward pk) s := by
  change execJoinReq pk s = execPacketForward pk s
  simp only [execJoinReq, hkind, hme, hok, Bool.not_false, and_self, if_true]

end Join

/-- What a JOIN_REQ is answered by the group manager, by a module that stands alone and by another manager's. -/
theorem exec_joinReq_roles (s : State) (pk : Packet) (harrives : Arrives s pk kJoinReq) (hok : joinReqOk pk = true) :
    (let u := takeInbox s pk
     (jstate u = jsManager → exec (.joinReq pk) s = .next (answerJoin u pk)) ∧
     (jstate u ≠ jsManager → strapRole u = 0 → exec (.joinReq pk) s = .next (sendJoinResp u pk.src 2 0)) ∧
     (jstate u ≠ jsManager → strapRole u = 2 → exec (.joinReq pk) s = .next (sendJoinResp u pk.src 7 0))) := by
  dsimp only
  rw [exec_joinReq_arrives harrives hok]
  refine ⟨fun hm => ?_, fun hm hrole => ?_, fun hm hrole => ?_⟩
  · rw [if_pos hm]
  · rw [if_neg hm, if_pos hrole]
  · rw [if_neg hm, if_neg (by rw [hrole]; decide), if_pos hrole]

theorem exec_joinResp {s : State} {pk : Packet} (harrives : Arrives s pk kJoinResp) (hlen : pk.len = 0) (hctx : pk.ctx = 0)
    (haddr : pk.addr.toNat < 2 ^ 16) (hreserved : bitsOf pk.aux.toNat 8 8 = 0) (haux : pk.aux.toNat < 2 ^ 31)
    (hstate : jstate (takeInbox s pk) = jsJoining) :
    (let code := bitsOf pk.aux.toNat 0 8
     let u := setFld (setNet (takeInbox s pk) { (takeInbox s pk).net with joinSent := none }) 0x31 fMembershipJoinResult code
     (code ≤ 1 →
       (let v := setFld (setFld u 0x31 fMembershipRank (bitsOf pk.aux.toNat 16 15)) 0x31 fMembershipEpoch pk.addr.toNat
        let w := setFld v 0x31 stMembershipJstate (if code = 0 then jsMember else jsStandby)
        exec (.joinResp pk) s = .next (raise (setFlag (setNet w { w.net with gmHeard := now w, hbSent := now w }) 0x31
          stMembershipGmReachable true) 0x31 evMembershipJoined))) ∧
     (2 ≤ code → exec (.joinResp pk) s =
       .next (raise (raiseIf (decide (8 ≤ code)) (setFld u 0x31 stMembershipJstate jsUnjoined) 0x31 evMembershipCtrlBad) 0x31
         evMembershipJoinRefused))) := by
  have hok : (decide (pk.len = 0) && decide (pk.ctx = 0) && decide (pk.addr.toNat < 2 ^ 16) && decide (bitsOf pk.aux.toNat 8 8 = 0)
      && decide (pk.aux.toNat < 2 ^ 31)) = true := by
    rw [decide_eq_true hlen, decide_eq_true hctx, decide_eq_true haddr, decide_eq_true hreserved, decide_eq_true haux]
    rfl
  change (_ → execJoinResp pk s = _) ∧ (_ → execJoinResp pk s = _)
  rw [execJoinResp, receive_arrives harrives hok]
  simp only [hstate, ne_eq, not_true_eq_false, if_false]
  refine ⟨fun hcode => ?_, fun hcode => ?_⟩
  · rw [if_pos hcode]
  · rw [if_neg (by omega)]

/-! ### The membership table -/

section Table
variable {s : State} {pk : Packet}

theorem exec_memberUpdate (harrives : Arrives s pk kMemberUpdate) (hlen : 1 ≤ pk.len.toNat) (hctx : pk.ctx = 0) (hunit : pk.aux.toNat % 16 = 0)
    (hmin : 24 ≤ pk.aux.toNat) (hend : pk.addr.toNat + pk.payload.length ≤ pk.aux.toNat) :
    (let u := takeInbox s pk
     let v := noteApplied u pk.src pk.msgId
     let p := addPart u.net.partUpd pk.aux.toNat pk.addr.toNat pk.payload
     let have' := p.parts.foldl (fun n e => n + e.2) 0
     wasApplied u pk.src pk.msgId = false → holdsRankZero u = false →
     (have' < pk.aux.toNat → exec (.memberUpdate pk) s = .next (setNet v { v.net with partUpd := some p })) ∧
     (pk.aux.toNat ≤ have' → exec (.memberUpdate pk) s =
       .next (takeUpdate (setNet v { v.net with partUpd := none }) (sparseBytes p.bytes 0 pk.aux.toNat)))) := by
  dsimp only
  intro happlied hzero
  have hok : (decide (1 ≤ pk.len.toNat) && decide (pk.ctx = 0) && decide (pk.aux.toNat % 16 = 0) && decide (24 ≤ pk.aux.toNat)
      && decide (pk.addr.toNat + pk.payload.length ≤ pk.aux.toNat)) = true := by
    rw [decide_eq_true hlen, decide_eq_true hctx, decide_eq_true hunit, decide_eq_true hmin, decide_eq_true hend]
    rfl
  change (_ → execMemberUpdate pk s = _) ∧ (_ → execMemberUpdate pk s = _)
  rw [execMemberUpdate, receive_arrives harrives hok]
  simp only [happlied, hzero, Bool.false_eq_true, or_self, if_false]
  refine ⟨fun hpart => ?_, fun hwhole => ?_⟩
  · exact congrArg Host.Outcome.next (if_pos hpart)
  · exact congrArg Host.Outcome.next (if_neg (Nat.not_lt.mpr hwhole))

theorem exec_memberSync (harrives : Arrives s pk kMemberSync) (hlen : pk.len = 0) (hctx : pk.ctx = 0) (haddr : pk.addr = 0) (haux : pk.aux = 0)
    (hstate : jstate (takeInbox s pk) = jsManager) (hrank : (rankIn (takeInbox s pk) (plannedMembers (takeInbox s pk)) pk.src).isSome = true) :
    exec (.memberSync pk) s = .next (answerSync (takeInbox s pk) pk.src) := by
  change execMemberSync pk s = _
  rw [execMemberSync, receive_arrives harrives (by simp [hlen, hctx, haddr, haux])]
  simp only [hstate, hrank, and_self, if_true]

end Table

/-! ### Heartbeats -/

section Heartbeat
variable {s : State} {pk : Packet}

theorem exec_heartbeat (harrives : Arrives s pk kHeartbeat) (hlen : pk.len = 0 ∨ pk.len = 4 ∧ reportsOk (readReports pk.payload) = true)
    (hctx : pk.ctx = 0) (haddr : pk.addr = 0) (haux : pk.aux.toNat < 16) :
    (let u := takeInbox s pk
     let v := setNet u { u.net with heard := mapPut pk.src.toNat (now u) u.net.heard }
     let l := readReports pk.payload
     (jstate u = jsManager → (rankIn u u.net.members pk.src).isSome = true →
       (pk.len = 0 ∨ reportsFor u.net.reportsOf pk.src.toNat = l → exec (.heartbeat pk) s = .next v) ∧
       (pk.len = 4 → reportsFor u.net.reportsOf pk.src.toNat ≠ l → exec (.heartbeat pk) s =
         .next (issueUpdate v [] (mapSet (fun _ => ([] : List (BitVec 32))) pk.src.toNat l v.net.reportsOf) none))) ∧
     (isMember u = true → pk.src = gmId u → exec (.heartbeat pk) s =
       .next (setFlag (setNet u { u.net with
         gmHeard := now u, gmLost := none, hops := fld u 0x30 fTransportTtlInit + 1 - pk.ttl.toNat }) 0x31
         stMembershipGmReachable true))) := by
  have hform : (decide (pk.len = 0 ∨ pk.len = 4) && decide (pk.ctx = 0) && decide (pk.addr = 0) && decide (pk.aux.toNat < 16)
      && (decide (pk.len = 0) || reportsOk (readReports pk.payload))) = true := by
    rw [decide_eq_true hctx, decide_eq_true haddr, decide_eq_true haux]
    obtain hzero | ⟨hfour, hreports⟩ := hlen
    · rw [decide_eq_true (.inl hzero), decide_eq_true hzero]
      rfl
    · rw [decide_eq_true (.inr hfour), hreports, Bool.or_true]
      rfl
  change (_ → _ → (_ → execHeartbeat pk s = _) ∧ (_ → _ → execHeartbeat pk s = _)) ∧ (_ → _ → execHeartbeat pk s = _)
  rw [execHeartbeat, receive_arrives harrives hform]
  refine ⟨fun hm hrank => ?_, fun hmember hsrc => ?_⟩
  · have hknown : ¬ (rankIn (takeInbox s pk) (takeInbox s pk).net.members pk.src).isNone = true := by
      rw [Option.isNone_iff_eq_none]
      exact Option.isSome_iff_ne_none.mp hrank
    rw [if_pos hm, if_neg hknown]
    refine ⟨fun hsame => ?_, fun hfour hdiff => ?_⟩
    · by_cases hzero : pk.len = 0
      · rw [if_pos hzero]
      · rw [if_neg hzero]
        exact congrArg Host.Outcome.next (if_pos (hsame.resolve_left hzero))
    · rw [if_neg (by rw [hfour]; decide)]
      exact congrArg Host.Outcome.next (if_neg hdiff)
  · have hnot : ¬ jstate (takeInbox s pk) = jsManager := by
      intro hm
      rw [isMember, hm] at hmember
      exact absurd hmember (by decide)
    rw [if_neg hnot, hmember, hsrc, beq_self_eq_true]
    rfl

theorem exec_heartbeatTx_member (hdue : s.net.hbSent + hbTicks s ≤ now s) (hmember : isMember s = true) :
    (let body := if s.net.reportsDirty then ((portReports s).map (fun w => leBytes 4 w.toNat)).flatten else []
     let u := setNet s { s.net with hbSent := now s, reportsDirty := false }
     exec .heartbeatTx s = .next (sendControl u (gmId u) kHeartbeat 0 0 (jstate u) body)) := by
  have hnot : ¬ jstate s = jsManager := by
    intro hm
    rw [isMember, hm] at hmember
    exact absurd hmember (by decide)
  change execHeartbeatTx s = _
  rw [execHeartbeatTx, if_neg (Nat.not_lt.mpr hdue), if_neg hnot, if_pos hmember]

theorem exec_heartbeatTx_manager (hdue : s.net.hbSent + hbTicks s ≤ now s) (hm : jstate s = jsManager) :
    (let v := if s.net.reportsDirty then issueUpdate s [] s.net.reportsOf none else s
     let u := setNet v { v.net with hbSent := now v }
     exec .heartbeatTx s = .next ((otherMembers u u.net.members).foldl (fun w m => sendControl w m kHeartbeat 0 0 (jstate w) []) u)) := by
  change execHeartbeatTx s = _
  rw [execHeartbeatTx, if_neg (Nat.not_lt.mpr hdue), if_pos hm]

theorem exec_gmLost (hmember : isMember s = true) (hnot : s.net.gmLost = none) (hdue : s.net.gmHeard + hbLimit s ≤ now s) :
    exec .gmLost s = .next (raise (setFlag (unfollow (setNet s { s.net with gmLost := some (now s) })) 0x31 stMembershipGmReachable false)
      0x31 evMembershipGmLost) := by
  change execGmLost s = _
  rw [execGmLost, hmember, hnot, decide_eq_true hdue]
  rfl

/-- A member that the manager has not heard for its limit, and that no planned update has changed. -/
theorem exec_memberLost {r : Fin 16640} (hm : jstate s = jsManager) (hr : r.val ≠ 0) :
    (let e := memberEntry s r
     let p := entryIn s (plannedMembers s) r
     (entryState e = 1 ∨ entryState e = 2) → mapGet (fun _ => now s) (entryId e).toNat s.net.heard + hbLimit s ≤ now s →
     (entryState p = 1 ∨ entryState p = 2) → entryId p = entryId e →
     (let u := raise s 0x31 evMembershipMemberLost
      let q := replaceHolder u r (entryId e)
      (16384 ≤ r.val →
        exec (.memberLost r) s = .next (issueUpdate u q.1 (mapErase (entryId e).toNat u.net.reportsOf) none)) ∧
      (r.val < 16384 →
        (let l : LostRank := ⟨r.val, q.2, max (latestClutch u) (previousClutch u), false, groupStripes u⟩
         let v := abortRestore (abortClutch (setStore u { u.store with lost := u.store.lost.filter (fun x => x.rank != r.val) ++ [l] }) 1)
         let w := if groupStripes u = true ∧ q.2 = 0 then setFlag v 0xA stStore2WaitStandby true else v
         exec (.memberLost r) s = .next (issueUpdate w q.1 (mapErase (entryId e).toNat w.net.reportsOf) none))))) := by
  dsimp only
  intro he hdue hp hid
  have hlive {n : Nat} (h : n = 1 ∨ n = 2) : [1, 2].contains n = true := by
    obtain rfl | rfl := h <;> rfl
  change (_ → execMemberLost r s = _) ∧ (_ → execMemberLost r s = _)
  simp only [execMemberLost, hm, hr, hlive he, hlive hp, hid, Nat.not_lt.mpr hdue, ne_eq, not_true_eq_false, Bool.not_true, Bool.false_eq_true,
    or_self, if_false, beq_self_eq_true, Bool.and_self, if_true]
  refine ⟨fun hstandby => ?_, fun hworking => ?_⟩
  · rw [if_neg (Nat.not_lt.mpr hstandby)]
  · rw [if_pos hworking]

end Heartbeat

/-- Settles O44: the rows of joining, of the table and of the heartbeats. -/
theorem membershipCompletes : Obligations.MembershipCompletes := by
  refine ⟨⟨?retry, ?request, ?forward, ?answer⟩, ⟨?update, ?sync, ?apply⟩, ?heard, ?own, ?ownManager, ?lost, ?gmLost⟩
  case retry => exact fun s t hsent hstate hdue => exec_joinRetry hsent hstate hdue
  case request => exact exec_joinReq_roles
  case forward => exact fun s pk hkind hme hok => exec_joinReq_forward hkind hme hok
  case answer => exact fun s pk harrives hlen hctx haddr hres haux hstate => exec_joinResp harrives hlen hctx haddr hres haux hstate
  case update => exact fun s pk harrives hlen hctx hunit hmin hend => exec_memberUpdate harrives hlen hctx hunit hmin hend
  case sync => exact fun s pk harrives hlen hctx haddr haux hstate hrank => exec_memberSync harrives hlen hctx haddr haux hstate hrank
  case apply =>
    intro s x rest hupd hbell
    dsimp only
    change execEpochApply s = _
    rw [execEpochApply, hupd]
    dsimp only
    rw [if_neg (Nat.not_lt.mpr hbell)]
  case heard => exact fun s pk harrives hlen hctx haddr haux => exec_heartbeat harrives hlen hctx haddr haux
  case own => exact fun s hdue hmember => exec_heartbeatTx_member hdue hmember
  case ownManager => exact fun s hdue hm => exec_heartbeatTx_manager hdue hm
  case lost => exact fun s r hm hr => exec_memberLost hm hr
  case gmLost => exact fun s hmember hnot hdue => exec_gmLost hmember hnot hdue

end Sys2Proof.Machine
end

section
/-!
The ledger check and the phases of an update (R328, R347, R351, R353).
-/

namespace Sys2Proof.Machine

section Die
variable {s : State} {d : DieId} (hawake : dieAwake s d = true)
include hawake

theorem exec_ledgerCheckRun {l : Ledger} (hfind : (ledgersOf s d).find? (·.started) = some l) :
    exec (.ledgerCheckRun d) s = .next (runLedger s d l) := by
  change execLedgerCheckRun d s = _
  simp only [execLedgerCheckRun, hawake, hfind, Bool.not_true, Bool.false_eq_true, if_false]

theorem exec_updatePrepare_armed {a : UpdDesc} (hrun : (updOf s d).run = none) (henable : flag s (pgUpd d) fUpdateEnable = true)
    (hfind : (updOf s d).armed.find? (·.started) = some a) :
    (let x : UpdRun := ⟨a, .prepare, false, dieStep s d, 0, 0, [], [], [], 0, 0, 0, none, none, dieKey s d, none⟩
     exec (.updatePrepare d) s = .next (prepareUpd (setUpd s d { updOf s d with armed := (updOf s d).armed.erase a, run := some x }) d x)) := by
  change execUpdatePrepare d s = _
  simp only [execUpdatePrepare, hawake, hrun, henable, hfind, Bool.not_true, Bool.false_eq_true, if_false]

variable {x : UpdRun} (hrun : (updOf s d).run = some x)
include hrun

theorem exec_updatePrepare_running (hphase : x.phase = .prepare) (hheld : x.held = false) :
    exec (.updatePrepare d) s = .next (prepareUpd s d x) := by
  change execUpdatePrepare d s = _
  simp only [execUpdatePrepare, hawake, hrun, hphase, hheld, Bool.not_true, Bool.not_false, Bool.false_eq_true, and_self, if_false, if_true]

theorem exec_subshardCommit (hphase : x.phase ≠ .prepare) (hheld : x.held = false) (hwaiting : x.waiting = none) :
    exec (.subshardCommit d) s = .next (subshardRound s d x) := by
  change execSubshardCommit d s = _
  simp only [execSubshardCommit, hawake, hrun, hphase, hheld, hwaiting, Bool.not_true, Option.isSome_none, Bool.false_eq_true, or_self, if_false]

theorem exec_owedRecheck {t : Nat} (hwaiting : x.waiting = some t) (hdue : t + 10000 ≤ now s) :
    (let n := (now s - t) / 1024
     let r := memReadNat (bumpBy s (pgUpd d) fUpdateOwedWaitCount n) x.desc.state 256
     (∀ v, r.2 = some v → exec (.owedRecheck d) s = .next (setUpd r.1 d { updOf r.1 d with run := some { x with
       waiting := if (readStateRec v).streamed < (readStateRec v).owed then some (t + 1024 * n) else none } })) ∧
     (r.2 = none → exec (.owedRecheck d) s = .next (failUpd r.1 d x))) := by
  dsimp only
  change (∀ v, _ → execOwedRecheck d s = _) ∧ (_ → execOwedRecheck d s = _)
  simp only [execOwedRecheck, hrun, hwaiting, hawake, Nat.not_lt.mpr hdue, Bool.not_true, Bool.false_eq_true, or_self, if_false]
  refine ⟨fun v hv => ?_, fun hv => ?_⟩
  · rw [hv]
  · rw [hv]

end Die

/-- Settles O45: each row of an awake die, on what its unit holds. -/
theorem updateUnitsComplete : Obligations.UpdateUnitsComplete :=
  ⟨fun _ _ _ hawake hfind => exec_ledgerCheckRun hawake hfind,
    fun _ _ _ hawake hrun henable hfind => exec_updatePrepare_armed hawake hrun henable hfind,
    fun _ _ _ hawake hrun hphase hheld => exec_updatePrepare_running hawake hrun hphase hheld,
    fun _ _ _ hawake hrun hphase hheld hwaiting => exec_subshardCommit hawake hrun hphase hheld hwaiting,
    fun _ _ _ _ hawake hrun hwaiting hdue => exec_owedRecheck hawake hrun hwaiting hdue⟩

end Sys2Proof.Machine
end

section
/-!
The life of a clutch, restores and the rebuilding of units (R371 to R388).
-/

namespace Sys2Proof.Machine

/-- A checkpoint packet of the expected subtype that obeys the table is taken (R377, R378). -/
theorem ckReceive_arrives {s : State} {pk : Packet} {sub : Nat} {ok : Bool} (harrives : Arrives s pk kCheckpoint) (hsub : ckSub pk = sub)
    (hdefined : 1 ≤ sub ∧ sub < 13) (hok : ok = true) (f : State → State) : ckReceive s pk sub ok f = f (takeInbox s pk) := by
  rw [ckReceive, if_neg (by omega), if_pos hsub, receive_arrives harrives hok]

/-! ### Starting and capturing -/

section Capturing
variable {s : State} {pk : Packet}

theorem exec_clutchPeriodExpiry {t : Nat} (hbell : s.store.lastBell = some t) (hzero : holdsRankZero s = true)
    (hauto : flag s 9 fStore1AutoEn = true) (hnone : s.store.capture = none)
    (hdue : t + fld s 9 fStore1ClutchPeriod * 1000000000 ≤ now s) :
    exec .clutchPeriodExpiry s = .next (setStore s { s.store with due := true }) := by
  change execClutchPeriodExpiry s = _
  rw [execClutchPeriodExpiry, hbell]
  dsimp only
  rw [hzero, hauto, hnone, decide_eq_true hdue]
  exact congrArg Host.Outcome.next (if_pos rfl)

theorem exec_risk (harrives : Arrives s pk kCheckpoint) (hsub : ckSub pk = 8) (hlen : pk.len = 0) (haddr : pk.addr = 0) (hhi : ckHi pk < 2 ^ 8) :
    exec (.risk pk) s = .next (takeRisk (takeInbox s pk) (ckHi pk)) := by
  change execRisk pk s = _
  rw [execRisk, ckReceive_arrives harrives hsub (by decide) (by rw [decide_eq_true hlen, decide_eq_true haddr, decide_eq_true hhi]; rfl)]

theorem exec_clutchStart (harrives : Arrives s pk kCheckpoint) (hsub : ckSub pk = 1) (hlen : pk.len = 1) (haddr : pk.addr = 0)
    (hhi : ckHi pk = 0) (hres5 : payNat pk 5 1 = 0) (hres10 : payNat pk 10 2 = 0) :
    (let u := takeInbox s pk
     (payNat pk 12 4 = 0 → u.store.capture = none → exec (.clutchStart pk) s =
       .next (takeStart u (payNat pk 0 4) (payNat pk 4 1) (payNat pk 6 2) (BitVec.ofNat 16 (payNat pk 8 2)))) ∧
     (∀ c, payNat pk 12 4 ≠ 0 → u.store.capture = some c → c.num = payNat pk 0 4 →
       exec (.clutchStart pk) s = .next (takeU u (payNat pk 12 4)))) := by
  change (_ → _ → execClutchStart pk s = _) ∧ (∀ c, _ → _ → _ → execClutchStart pk s = _)
  rw [execClutchStart, ckReceive_arrives harrives hsub (by decide)
    (by rw [decide_eq_true hlen, decide_eq_true haddr, decide_eq_true hhi, decide_eq_true hres5, decide_eq_true hres10]; rfl)]
  refine ⟨fun hu hnone => ?_, fun c hu hcap hnum => ?_⟩
  · simp only [hu, hnone, Option.isNone_none, if_true]
  · simp only [hu, hcap, hnum, if_false, if_true]

/-- The capture bell of a module that captures nothing here, and of one that does. -/
theorem exec_captureBell {c : Capture} {t : Nat} (hcap : s.store.capture = some c) (hbell : c.bell = some t) (hdue : t ≤ now s)
    (hbegun : c.begun = false) :
    (let h := setHealth s { s.health with jobCores := serviceable s }
     let u := setClutch h c.num { clutchOf h c.num with bell := t, step := fld h (pgDie 0) fWorkerDieStep - 1 }
     let states := (catalogue u).map (·.state)
     let v := states.foldl (fun x a => if committing x a then x else (memWrite x (a + 0x84) (leBytes 4 c.num)).1) u
     let p := plainRecords v { c with begun := true, todo := List.range states.length, later := states.filter (committing v) }
     let own := unitsOf ((catalogue p.1).foldl (fun n e => n + shardLen p.1 e) p.2.len)
     let held := (myPos p.1).map (fun pos => ((List.range own).map (fun r => (parityOf c.n c.k c.g r pos).length)).sum)
     let noRoom := !(readOnly p.1) && decide (freeSlots p.1 < own + (if hasParity c.n then held.getD 0 else 0))
     (capturesHere u = false → exec .captureBell s = .next (setCapture u { c with begun := true })) ∧
     (capturesHere u = true → exec .captureBell s =
       .next (toGm (setFlag (setCapture p.1 p.2) 9 stStore1Streaming (decide (p.2.todo ≠ []))) c.num 4 own (if noRoom then 1 else 0)
         (fun x => takeCount x 0 own noRoom)))) := by
  have hready : ¬ (now s < t ∨ c.begun = true) :=
    fun h => h.elim (Nat.not_lt.mpr hdue) fun hb => Bool.false_ne_true (hbegun.symm.trans hb)
  change (_ → execCaptureBell s = _) ∧ (_ → execCaptureBell s = _)
  rw [execCaptureBell, hcap]
  dsimp only
  rw [hbell]
  dsimp only
  rw [if_neg hready]
  refine ⟨fun hnot => ?_, fun hcaptures => ?_⟩
  · rw [hnot]
    rfl
  · rw [hcaptures]
    rfl

theorem exec_shardStream {c : Capture} {i : Nat} {e : CatEntry} (hcap : s.store.capture = some c) (hbegun : c.begun = true)
    (hentry : (catalogue s)[i]? = some e) :
    (let due := c.todo.filter (fun i => !((catalogue s)[i]?.any (fun e => c.later.contains e.state)))
     let p := streamShard s c e
     let u := (memWrite (memWrite p.1 (e.state + 0x88) (leBytes 4 c.num)).1 (e.state + 0x8C) (leBytes 4 0)).1
     let todo := c.todo.filter (· != i)
     let v := setCapture u { p.2 with todo := todo }
     (due.find? (streamAsked s) = some i ∨ due.find? (streamAsked s) = none ∧ due.head? = some i) →
       exec .shardStream s = .next (trySend (if todo = [] then setFlag v 9 stStore1Streaming false else v))) := by
  dsimp only
  intro hfirst
  have hor : ((c.todo.filter fun i => !((catalogue s)[i]?.any fun e => c.later.contains e.state)).find? (streamAsked s)).or
      (c.todo.filter fun i => !((catalogue s)[i]?.any fun e => c.later.contains e.state)).head? = some i := by
    obtain hasked | ⟨hnone, hhead⟩ := hfirst
    · rw [hasked, Option.some_or]
    · rw [hnone, hhead, Option.none_or]
  change execShardStream s = _
  simp only [execShardStream, hcap, hbegun, Bool.not_true, Bool.false_eq_true, if_false, hor, hentry]

end Capturing

/-! ### Parity, counts and the end of a clutch -/

section Ending
variable {s : State} {pk : Packet} (harrives : Arrives s pk kCheckpoint)
include harrives

theorem exec_unitP (hok : contributionOk pk = true) (hsub : ckSub pk = 2) :
    exec (.unitP pk) s = .next (takeContribution (takeInbox s pk) pk false) :=
  congrArg Host.Outcome.next (ckReceive_arrives harrives hsub (by decide) hok _)

theorem exec_unitQ (hok : contributionOk pk = true) (hsub : ckSub pk = 3) :
    exec (.unitQ pk) s = .next (takeContribution (takeInbox s pk) pk true) :=
  congrArg Host.Outcome.next (ckReceive_arrives harrives hsub (by decide) hok _)

variable {c : Capture} (hlen : pk.len = 0) (hcap : captureOf (takeInbox s pk) pk.ctx = some c)
include hlen hcap

section Counts
variable {r : Nat} (hrank : rankOf (takeInbox s pk) pk.src = some r) (hzero : holdsRankZero (takeInbox s pk) = true)
include hrank hzero

theorem exec_unitCount (hsub : ckSub pk = 4) (hhi : ckHi pk < 2) :
    exec (.unitCount pk) s = .next (takeCount (takeInbox s pk) r pk.addr.toNat (decide (ckHi pk = 1))) := by
  change execUnitCount pk s = _
  rw [execUnitCount, ckReceive_arrives harrives hsub (by decide) (by rw [decide_eq_true hlen, decide_eq_true hhi]; rfl)]
  simp only [hcap, hrank, hzero, if_true]

theorem exec_secured (hsub : ckSub pk = 5) (hhi : ckHi pk = 0) :
    exec (.secured pk) s = .next (takeSecured (takeInbox s pk) r (bitsOf pk.addr.toNat 0 32) (bitsOf pk.addr.toNat 32 32)) := by
  change execSecured pk s = _
  rw [execSecured, ckReceive_arrives harrives hsub (by decide) (by rw [decide_eq_true hlen, decide_eq_true hhi]; rfl)]
  simp only [hcap, hrank, hzero, if_true]

end Counts

theorem exec_clutchCommit (haddr : pk.addr = 0) (hsub : ckSub pk = 6) (hhi : ckHi pk = 0) :
    exec (.clutchCommit pk) s = .next (commitHere (takeInbox s pk) c.num) := by
  change execClutchCommit pk s = _
  rw [execClutchCommit, ckReceive_arrives harrives hsub (by decide)
    (by rw [decide_eq_true hlen, decide_eq_true haddr, decide_eq_true hhi]; rfl)]
  simp only [hcap]

theorem exec_clutchAbort (haddr : pk.addr = 0) (hsub : ckSub pk = 7) (hhi : ckHi pk < 2 ^ 8) :
    exec (.clutchAbort pk) s = .next (failHere (takeInbox s pk) (ckHi pk)) := by
  change execClutchAbort pk s = _
  rw [execClutchAbort, ckReceive_arrives harrives hsub (by decide)
    (by rw [decide_eq_true hlen, decide_eq_true haddr, decide_eq_true hhi]; rfl)]
  simp only [hcap]

end Ending

section Written
variable {s : State} {lost : List (Nat × Nat)} {c : Capture} {pos : Nat} (hcap : s.store.capture = some c) (hpos : myPos s = some pos)
  (hready : readyToWrite s c = true)
include hcap hpos hready

theorem exec_unitWritten_readOnly (hro : readOnly s = true) :
    (let u := setCapture (setClutch s c.num { clutchOf s c.num with own := 0, parity := 0 }) { c with written := true }
     exec (.unitWritten lost) s = .next (toGm u c.num 5 0 0 (fun s => takeSecured s 0 0 0))) := by
  change execUnitWritten lost s = _
  simp only [execUnitWritten, hcap, hpos, hready, hro, Bool.not_true, Bool.false_eq_true, if_false, if_true, Nat.zero_mul, Nat.add_zero]

theorem exec_unitWritten (hro : readOnly s = false) :
    (let own := unitsOf c.len
     let parity := if hasParity c.n then (heldParity c (c.u.getD 0) pos).filter (fun a =>
       decide (a.zero.length < stripeData c.n c.k a.stripe)) else []
     let v := (List.range own).foldl (fun x r =>
       writeUnit x c.num 0 r 0 (unitOf c.stream r) (c.bad.contains r || lost.contains (0, r))) s
     let w := parity.foldl (fun x a => writeUnit x c.num (if a.q then 2 else 1) a.round a.stripe a.data
       (lost.contains ((if a.q then 2 else 1), a.round))) v
     let u := setCapture (setClutch w c.num { clutchOf w c.num with own := own, parity := parity.length }) { c with written := true }
     exec (.unitWritten lost) s =
       .next (toGm u c.num 5 (own + parity.length * 2 ^ 32) 0 (fun x => takeSecured x 0 own parity.length))) := by
  change execUnitWritten lost s = _
  simp only [execUnitWritten, hcap, hpos, hready, hro, Bool.not_true, Bool.false_eq_true, if_false]

end Written

/-- Settles O46: each row of a capture, on the packet or the state that it waits for. -/
theorem clutchesComplete : Obligations.ClutchesComplete := by
  refine ⟨⟨?period, ?risk, ?start, ?bell, ?stream⟩, ?contribution, ?counts, ?ends, ?readOnly, ?written⟩
  case period => exact fun s t hbell hzero hauto hnone hdue => exec_clutchPeriodExpiry hbell hzero hauto hnone hdue
  case risk => exact fun s pk harrives hsub hlen haddr hhi => exec_risk harrives hsub hlen haddr hhi
  case start => exact fun s pk harrives hsub hlen haddr hhi h5 h10 => exec_clutchStart harrives hsub hlen haddr hhi h5 h10
  case bell => exact fun s c t hcap hbell hdue hbegun => exec_captureBell hcap hbell hdue hbegun
  case stream => exact fun s c i e hcap hbegun hentry => exec_shardStream hcap hbegun hentry
  case contribution => exact fun s pk harrives hok => ⟨exec_unitP harrives hok, exec_unitQ harrives hok⟩
  case counts =>
    exact fun s pk c r harrives hlen hcap hrank hzero =>
      ⟨exec_unitCount harrives hlen hcap hrank hzero, exec_secured harrives hlen hcap hrank hzero⟩
  case ends =>
    exact fun s pk c harrives hlen haddr hcap => ⟨exec_clutchCommit harrives hlen hcap haddr, exec_clutchAbort harrives hlen hcap haddr⟩
  case readOnly => exact fun s lost c pos hcap hpos hready hro => exec_unitWritten_readOnly hcap hpos hready hro
  case written => exact fun s lost c pos hcap hpos hready hro => exec_unitWritten hcap hpos hready hro

end Sys2Proof.Machine
end

section
/-!
Restores, rebuilds of units, re-protection and the upkeep of the flash array (R366 to R388).
-/

namespace Sys2Proof.Machine

/-! ### Restores -/

section Restoring
variable {s : State} {pk : Packet}

theorem exec_restoreStart (harrives : Arrives s pk kCheckpoint) (hsub : ckSub pk = 9) (hlen : pk.len.toNat = 1 + (payNat pk 4 2 + 3) / 4)
    (haddr : pk.addr = 0) (hhi : ckHi pk < 2) (hres : payNat pk 6 2 = 0) :
    exec (.restoreStart pk) s = .next (takeRestore (takeInbox s pk) (payNat pk 0 4) (payNat pk 8 8) (ckHi pk)
      ((List.range (payNat pk 4 2)).map (fun i => (payNat pk (16 + 4 * i) 2, BitVec.ofNat 16 (payNat pk (18 + 4 * i) 2)))) false) :=
  congrArg Host.Outcome.next (ckReceive_arrives harrives hsub (by decide)
    (by rw [decide_eq_true hlen, decide_eq_true haddr, decide_eq_true hhi, decide_eq_true hres]; rfl) _)

theorem exec_restoreBell {r : Restore} (hrestore : s.store.restore = some r) (hbegun : r.begun = false) (hended : r.ended = false)
    (hdue : r.bell ≤ now s) :
    (let u := setStore (quiesce s) { (quiesce s).store with restore := some { r with begun := true } }
     (r.source = 0 → exec .restoreBell s = .next (readOwnUnits u)) ∧
     (r.source ≠ 0 → exec .restoreBell s = .next (finishImport u))) := by
  change (_ → execRestoreBell s = _) ∧ (_ → execRestoreBell s = _)
  simp only [execRestoreBell, hrestore, hbegun, hended, Nat.not_lt.mpr hdue, Bool.false_eq_true, or_self, if_false]
  exact ⟨fun hown => by rw [if_pos hown], fun himport => by rw [if_neg himport]⟩

theorem exec_restoreDone {r : Restore} {rank : Nat} (harrives : Arrives s pk kCheckpoint) (hsub : ckSub pk = 11) (hlen : pk.len = 0)
    (haddr : pk.addr = 0) (hhi : ckHi pk < 2 ^ 8) (hrestore : (takeInbox s pk).store.restore = some r)
    (hrank : rankOf (takeInbox s pk) pk.src = some rank) (hzero : holdsRankZero (takeInbox s pk) = true)
    (hclutch : BitVec.ofNat 16 r.clutch = pk.ctx) :
    exec (.restoreDone pk) s = .next (takeRestoreResult (takeInbox s pk) rank (ckHi pk)) := by
  change execRestoreDone pk s = _
  rw [execRestoreDone, ckReceive_arrives harrives hsub (by decide)
    (by rw [decide_eq_true hlen, decide_eq_true haddr, decide_eq_true hhi]; rfl)]
  simp only [hrestore, hrank, hzero, hclutch, beq_self_eq_true, Bool.and_self, if_true]

end Restoring

/-! ### Rebuilding -/

section Rebuilding
variable {s : State} {pk : Packet}

theorem exec_rebuildReq (harrives : Arrives s pk kCheckpoint) (hsub : ckSub pk = 12) (hhi : ckHi pk < 2 ^ 8)
    (hlen : pk.len.toNat = 1 + (ckHi pk + 3) / 4) (hoff : ckOff pk = 0) (haddr : pk.addr.toNat < 2 ^ 44) :
    (let u := takeInbox s pk
     let chain := (List.range (ckHi pk)).map (fun i => (payNat pk (16 + 4 * i) 2, payNat pk (18 + 4 * i) 1, payNat pk (19 + 4 * i) 1))
     let q : ChainReq := { holder := pk.src, clutch := pk.ctx, rank := payNat pk 0 2, round := ckRound pk, chain := chain }
     chain.all (fun e => decide (e.2.2 ≤ 2)) = true →
     (∀ m, chainPlace u q = some 0 → contributedUnit u q (chain.getD 0 (0, 0, 0)).2.2 = some m →
       exec (.rebuildReq pk) s = .next ((List.range unitPackets).foldl
         (fun s i => sendPart s q 0 i (scaleUnit (chain.getD 0 (0, 0, 0)).2.1 (unitPart m (4096 * i)))) u)) ∧
     (∀ k, chainPlace u q = some (k + 1) → exec (.rebuildReq pk) s = .next (u.store.early.foldl takePart
       (setStore u { u.store with requests := u.store.requests ++ [q], early := [] })))) := by
  dsimp only
  intro hkinds
  change (∀ m, _ → _ → execRebuildReq pk s = _) ∧ (∀ k, _ → execRebuildReq pk s = _)
  rw [execRebuildReq]
  dsimp only
  rw [ckReceive_arrives harrives hsub (by decide)
    (by rw [decide_eq_true hhi, decide_eq_true hlen, decide_eq_true hoff, decide_eq_true haddr, hkinds]; rfl)]
  refine ⟨fun m hplace hunit => ?_, fun k hplace => ?_⟩
  · simp only [hplace, hunit]
  · simp only [hplace]

theorem exec_rebuildPart (harrives : Arrives s pk kCheckpoint) (hsub : ckSub pk = 10) (hlen : pk.len = 256) (haddr : pk.addr.toNat < 2 ^ 44)
    (hoff : ckOff pk % 4096 = 0) (hhi : ckHi pk < 2 ^ 8) : exec (.rebuildPart pk) s = .next (takePart (takeInbox s pk) pk) :=
  congrArg Host.Outcome.next (ckReceive_arrives harrives hsub (by decide)
    (by rw [decide_eq_true hlen, decide_eq_true haddr, decide_eq_true hoff, decide_eq_true hhi]; rfl) _)

/-- Re-protection goes on with the first unit that is lacking: its rebuild begins, or it is left out. -/
theorem exec_reprotect {x : Nat × Nat × Nat × Nat × Nat} {rest : List (Nat × Nat × Nat × Nat × Nat)}
    (hon : flag s 0xA stStore2Reprotecting = true) (hidle : s.store.rebuild = none) (hnot : flag s 0xA stStore2Restoring = false)
    (hlist : s.store.reprotect = x :: rest) :
    exec .reprotect s = .next (
      if (startRebuild s x.1 x.2.1 x.2.2.1 x.2.2.2.1 x.2.2.2.2).2 then (startRebuild s x.1 x.2.1 x.2.2.1 x.2.2.2.1 x.2.2.2.2).1
      else setStore s { s.store with reprotect := rest }) := by
  change execReprotect s = _
  rw [execReprotect, hidle, hnot, hon, hlist]
  rfl

theorem exec_gmWaitExpiry {t : Nat} (hlost : s.net.gmLost = some t) (hdue : t + fld s 0xA fStore2GmWait * 1000000000 ≤ now s) :
    (let u := setFld (endJob s) 0x31 stMembershipJstate jsUnjoined
     exec .gmWaitExpiry s = .next (setNet u { u.net with gmLost := none })) := by
  change execGmWaitExpiry s = _
  rw [execGmWaitExpiry, hlost]
  exact congrArg Host.Outcome.next (if_pos hdue)

end Rebuilding

/-- Settles O47: each row of a restore, on the packet or the state that it waits for. -/
theorem restoreCompletes : Obligations.RestoreCompletes := by
  refine ⟨?start, ?bell, ?request, ?part, ?done, ?reprotect, ?wait⟩
  case start => exact fun s pk harrives hsub hlen haddr hhi hres => exec_restoreStart harrives hsub hlen haddr hhi hres
  case bell => exact fun s r hrestore hbegun hended hdue => exec_restoreBell hrestore hbegun hended hdue
  case request => exact fun s pk harrives hsub hhi hlen hoff haddr => exec_rebuildReq harrives hsub hhi hlen hoff haddr
  case part => exact fun s pk harrives hsub hlen haddr hoff hhi => exec_rebuildPart harrives hsub hlen haddr hoff hhi
  case done =>
    exact fun s pk r rank harrives hsub hlen haddr hhi hrestore hrank hzero hclutch =>
      exec_restoreDone harrives hsub hlen haddr hhi hrestore hrank hzero hclutch
  case reprotect =>
    intro s u x rest hon hidle hnot hlist
    rw [exec_reprotect hon hidle hnot hlist]
    refine ⟨fun hbegun => ?_, fun hrefused => ?_⟩
    · rw [hbegun]
      rfl
    · rw [hrefused]
      rfl
  case wait => exact fun s t hlost hdue => exec_gmWaitExpiry hlost hdue

/-! ### The flash array -/

section Flash
variable {s : State} {die : FlashDie}

/-- Whether a refresh is due, by age or by corrected bits (R367). -/
def RefreshDue (s : State) (why : RefreshCause) : Prop :=
  (∃ n, why = .age n ∧ fld s 8 fStore0RefreshDays < n) ∨ (∃ n, why = .corrected n ∧ 60 < n)

section Refresh
variable {b : Fin 9936} {why : RefreshCause} (hon : flag s 8 fStore0RefreshEn = true) (hsound : (flashOf s die).failed = false)
  (hdata : holdsData s die b = true) (hdue : RefreshDue s why)
include hon hsound hdata hdue

/-- A block of the system area is refreshed in place. -/
theorem exec_flashRefresh_system (hlo : 8944 ≤ b.val) (hhi : b.val < 9240) :
    exec (.flashRefresh die b why) s = .next (bump (setFlash (eraseBlock s die b) die { flashOf (eraseBlock s die b) die with
      programmed := mapPut b (now (eraseBlock s die b)) (flashOf (eraseBlock s die b) die).programmed }) 8 fStore0RefreshCount) := by
  change execFlashRefresh die b why s = _
  obtain ⟨n, rfl, hage⟩ | ⟨n, rfl, hbits⟩ := hdue
  · simp only [execFlashRefresh, hon, hsound, hdata, decide_eq_true hage, decide_eq_true hlo, decide_eq_true hhi, Bool.not_true, Bool.or_self,
      Bool.and_self, Bool.false_eq_true, if_false, if_true]
  · simp only [execFlashRefresh, hon, hsound, hdata, decide_eq_true hbits, decide_eq_true hlo, decide_eq_true hhi, Bool.not_true, Bool.or_self,
      Bool.and_self, Bool.false_eq_true, if_false, if_true]

/-- A block of the data area is moved to a fresh one. -/
theorem exec_flashRefresh_moved {c : Nat} (hplace : b.val < 8944 ∨ 9240 ≤ b.val) (hrw : readOnly s = false) (hnew : newBlock s die = some c) :
    exec (.flashRefresh die b why) s = .next (bump (moveBlock s die b c) 8 fStore0RefreshCount) := by
  have harea : (decide (8944 ≤ b.val) && decide (b.val < 9240)) = false := by
    rw [Bool.and_eq_false_iff, decide_eq_false_iff_not, decide_eq_false_iff_not]
    omega
  change execFlashRefresh die b why s = _
  obtain ⟨n, rfl, hage⟩ | ⟨n, rfl, hbits⟩ := hdue
  · simp only [execFlashRefresh, hon, hsound, hdata, decide_eq_true hage, harea, hrw, hnew, Bool.not_true, Bool.or_self, Bool.false_eq_true,
      if_false]
  · simp only [execFlashRefresh, hon, hsound, hdata, decide_eq_true hbits, harea, hrw, hnew, Bool.not_true, Bool.or_self, Bool.false_eq_true,
      if_false]

end Refresh

theorem exec_wearLevel {b c low : Nat} :
    (let f := flashOf s die
     let blocks := usableBlocks f
     let top := blocks.foldl (fun m b => max m (erasesOf f b)) 0
     leastBy (erasesOf f) (blocks.filter (fun b => !(blockUnits s die b).isEmpty)) = some b →
     leastBy (fun b => top - erasesOf f b) (freeBlocks s die) = some c → leastBy (erasesOf f) blocks = some low →
     f.failed = false → readOnly s = false → erasesOf f low + 1000 < top → exec (.wearLevel die) s = .next (moveBlock s die b c)) := by
  dsimp only
  intro hb hc hlow hsound hrw hspread
  change execWearLevel die s = _
  simp only [execWearLevel, hb, hc, hlow, hsound, hrw, decide_eq_false (Nat.not_le.mpr hspread), Bool.or_self, Bool.false_eq_true, if_false]

/-- A block whose reason stands is retired. -/
theorem exec_blockRetire {b : Fin 9936} {why : RetireCause} {ok worn : Bool} (hsound : (flashOf s die).failed = false)
    (hin : mapHas b.val (flashOf s die).retired = false)
    (hdue : why = .programOrErase ∧ worn = false ∨ (∃ n, why = .corrected n ∧ 90 < n) ∧ worn = false ∨
      (why = .eraseCount ∧ 40000 ≤ erasesOf (flashOf s die) b) ∧ worn = true) :
    exec (.blockRetire die b why ok) s = .next (retireBlock s die b ok worn) := by
  change execBlockRetire die b why ok s = _
  obtain ⟨rfl, rfl⟩ | ⟨⟨n, rfl, hbits⟩, rfl⟩ | ⟨⟨rfl, hworn⟩, rfl⟩ := hdue
  · rw [execBlockRetire, hsound, hin]
    rfl
  · rw [execBlockRetire, hsound, hin]
    refine congrArg Host.Outcome.next (if_neg ?_)
    rw [decide_eq_true hbits]
    exact Bool.false_ne_true
  · rw [execBlockRetire, hsound, hin]
    refine congrArg Host.Outcome.next (if_neg ?_)
    rw [decide_eq_true hworn]
    exact Bool.false_ne_true

theorem exec_flashDieFail (hsound : (flashOf s die).failed = false) : exec (.flashDieFail die) s = .next (failFlash s die) := by
  change execFlashDieFail die s = _
  rw [execFlashDieFail, hsound]
  rfl

end Flash

/-- Settles O48: each row of the array's upkeep, on a block or die that is due. -/
theorem flashMaintenanceCompletes : Obligations.FlashMaintenanceCompletes := by
  refine ⟨?refresh, fun _ _ _ _ _ => exec_wearLevel, ?retire, fun _ _ hsound => exec_flashDieFail hsound⟩
  case refresh =>
    exact fun s die b why hon hsound hdata hdue =>
      ⟨exec_flashRefresh_system hon hsound hdata hdue, fun c => exec_flashRefresh_moved hon hsound hdata hdue⟩
  case retire =>
    intro s die b why ok hsound hin
    exact ⟨fun hwhy => exec_blockRetire hsound hin (.inl ⟨hwhy, rfl⟩),
      fun n hwhy hbits => exec_blockRetire hsound hin (.inr (.inl ⟨⟨n, hwhy, hbits⟩, rfl⟩)),
      fun hwhy hworn => exec_blockRetire hsound hin (.inr (.inr ⟨⟨hwhy, hworn⟩, rfl⟩))⟩

end Sys2Proof.Machine
end

section
/-!
The clock domains: frequency steps, droop, margin windows, PLLs and margin re-plans (R398 to R409).
-/

namespace Sys2Proof.Machine

section Ward
variable {s : State} {w : WardId}

theorem exec_freqStep {p : FreqSet} (hpend : s.power.pend = some p) (hbell : p.bell ≤ now s) : exec .freqStep s = .next (stepFreq s p.code) := by
  change execFreqStep s = _
  simp only [execFreqStep, hpend, hbell, if_true]

theorem exec_droopTrip (hruns : wardRuns s w = true) :
    (let u := setFlag s (pgWard w) stWardStretching true
     (flag u (pgWard w) fWardStretchEn = true → exec (.droopTrip w) s =
       .next (bump (setWardClk u w { wardClk u w with trips := (wardClk u w).trips + 1 }) (pgWard w) fWardStretchCount)) ∧
     (flag u (pgWard w) fWardStretchEn = false → exec (.droopTrip w) s = .next (droopTaken u w))) := by
  change (_ → execDroopTrip w s = _) ∧ (_ → execDroopTrip w s = _)
  simp only [execDroopTrip, hruns, Bool.not_true, Bool.false_eq_true, if_false]
  refine ⟨fun hstretch => ?_, fun hstretch => ?_⟩
  · rw [if_pos hstretch]
  · rw [if_neg (by rw [hstretch]; exact Bool.false_ne_true)]

theorem exec_droopRequest (hruns : wardRuns s w = true) (htrips : 8 ≤ (wardClk s w).trips) :
    exec (.droopRequest w) s = .next (droopTaken s w) := by
  change execDroopRequest w s = _
  rw [execDroopRequest, hruns, decide_eq_true htrips]
  rfl

theorem exec_marginWindow {l : List (Option (BitVec 8))} (hawake : dieAwake s (w / 8) = true) :
    (let f := (List.range 8).foldl (fun f r =>
       if !((domFaulty s (.ward w)).getLsbD r) && pathBad l (domFaulty s (.ward w)) r then f ||| BitVec.ofNat 8 (2 ^ r) else f)
         (domFaulty s (.ward w))
     let u := if f = domFaulty s (.ward w) then s else raise (setFaulty s (.ward w) f) (pgWard w) evWardSensorFault
     ∀ g rest, goodReadings l f = g :: rest → bitCount f < 4 →
       (let best := rest.foldl (fun a b => if b.1 < a.1 then b else a) g
        let v := showMargin u w l f best
        exec (.marginWindow (.ward w) l) s =
          .next (if best.1 < fld v (pgWard w) fWardMarginAlarm then lowMargin v (.ward w) best.1 else v))) := by
  dsimp only
  intro g rest hgood hfew
  change execMarginWindow (.ward w) l s = _
  have hdie : domDie (.ward w) = w / 8 := rfl
  have hpage : domPage (.ward w) = pgWard w := rfl
  simp only [execMarginWindow, hdie, hpage, hawake, hgood, Bool.not_true, Bool.false_eq_true, if_false, hfew, true_or, if_true]

end Ward

/-! ### PLLs -/

section Pll
variable {s : State} {k : Fin 74}

theorem exec_pllLockLoss_ward (hk : k.val < 32) (hawake : dieAwake s (k.val / 8) = true) :
    exec (.pllLockLoss k) s = .next (failWardDomain (setWardClk s k { wardClk s k with stopped := true }) k) := by
  change execPllLockLoss k s = _
  rw [execPllLockLoss, if_pos hk, if_pos hawake]

theorem exec_pllLockLoss_fabric (hlo : 32 ≤ k.val) (hhi : k.val < 36) (hawake : dieAwake s (k.val - 32) = true) :
    exec (.pllLockLoss k) s = .next (raise (resetDie s (k.val - 32)) 6 evHealthDomainFailed) := by
  change execPllLockLoss k s = _
  rw [execPllLockLoss, if_neg (by omega), if_pos hhi, if_pos hawake]

theorem exec_pllLockLoss_port (hlo : 52 ≤ k.val) (hhi : k.val < 68) (hawake : dieAwake s ((k.val - 52) / 4) = true)
    (hon : portState s (k.val - 52) ≠ psOff) :
    exec (.pllLockLoss k) s = .next (raise (portDown s (k.val - 52)) 6 evHealthDomainFailed) := by
  change execPllLockLoss k s = _
  rw [execPllLockLoss, if_neg (by omega), if_neg (by omega), if_neg (by omega), if_pos hhi, hawake, decide_eq_true hon]
  rfl

end Pll

/-! ### Margin re-plans -/

section Replans
variable {s : State} {d : DieId}

theorem exec_replanTimer_start {t : Nat} (hstart : mapFind d.val s.clk.started = some t) (hdue : t + 10 * 1000000000 ≤ now s) :
    exec (.replanTimer d) s = .next (requestReplan (setClk s { s.clk with started := mapErase d.val s.clk.started }) d) := by
  change execReplanTimer d s = _
  simp only [execReplanTimer, hstart, if_neg (Nat.not_lt.mpr hdue)]

theorem exec_replanTimer_days (hstart : mapFind d.val s.clk.started = none) (hdays : fld s (pgDie d) fWorkerDieReplanDays ≠ 0)
    (hdue : mapGet (fun _ => 0) d.val s.clk.lastReplan + fld s (pgDie d) fWorkerDieReplanDays * dayTicks ≤ now s) :
    exec (.replanTimer d) s = .next (requestReplan s d) := by
  change execReplanTimer d s = _
  simp only [execReplanTimer, hstart, if_pos (And.intro hdays hdue)]

theorem exec_replanStepDone {x : Replan} {r : ReplanReading} (hrun : s.clk.run = some x) (hdie : x.die = d.val) (hawake : dieAwake s d = true) :
    exec (.replanStepDone d r) s = .next (stepReplan s x r) := by
  change execReplanStepDone d r s = _
  simp only [execReplanStepDone, hrun, if_pos (And.intro hdie hawake)]

end Replans

/-- Settles O49: each clock row, on a domain that runs. -/
theorem clocksComplete : Obligations.ClocksComplete := by
  refine ⟨⟨fun _ _ hpend hbell => exec_freqStep hpend hbell, fun _ _ hruns => exec_droopTrip hruns,
    fun _ _ hruns htrips => exec_droopRequest hruns htrips, fun _ _ => rfl, fun _ _ _ hawake => exec_marginWindow hawake, ?pll⟩,
    fun _ _ _ hstart hdue => exec_replanTimer_start hstart hdue, fun _ _ hstart hdays hdue => exec_replanTimer_days hstart hdays hdue,
    fun _ _ _ _ hrun hdie hawake => exec_replanStepDone hrun hdie hawake⟩
  case pll => exact fun s k => ⟨exec_pllLockLoss_ward, exec_pllLockLoss_fabric, exec_pllLockLoss_port⟩

end Sys2Proof.Machine
end

section
/-!
Power limits and caps, supply dips and the frequency of the group (R420 to R431).
-/

namespace Sys2Proof.Machine

/-! ### Power -/

section Power
variable {s : State}

theorem exec_pmbusPoll {r : Fin 38} {t : RailTelemetry} (hphase : t.phaseFault = false) (hrail : t.railFault = false) :
    exec (.pmbusPoll r t) s =
      .next (railCap (setRail s r { railOf s r with mv := t.millivolts, deciamps := t.deciamps, temp := t.deciCelsius }) r) := by
  change execPmbusPoll r t s = _
  simp only [execPmbusPoll, hphase, hrail, Bool.false_eq_true, if_false]

theorem exec_phaseBringIn {r : Nat} {l : List Nat} (hqueue : s.power.phaseQ = r :: l) (hspares : (railOf s r).spares ≠ 0) :
    (let u := setPower s { s.power with phaseQ := l }
     let x := railOf u r
     exec .phaseBringIn s = .next (raiseIf (decide (x.spares = 1))
       (spareIn (setRail u r { x with phases := x.phases + 1, spares := x.spares - 1 }) 8 r) 6 evHealthSpareExhausted)) := by
  have hkept : (railOf (setPower s { s.power with phaseQ := l }) r).spares ≠ 0 := hspares
  change execPhaseBringIn s = _
  simp only [execPhaseBringIn, hqueue, if_neg hkept]

theorem exec_capRaise {t : Nat} (hbelow : s.power.below = some t) (hcap : s.power.cap < 16) (hdue : t + 100000 ≤ now s) :
    exec .capRaise s = .next (setCap (setPower s { s.power with below := some (now s) }) (s.power.cap + 1)) := by
  change execCapRaise s = _
  simp only [execCapRaise, hbelow, if_pos (And.intro hcap hdue)]

theorem exec_powerLimitAssert (hreset : s.sys.resetLow = false) (hoff : flag s 4 stPowerPlAsserted = false) :
    (let u := raise (setFlag s 4 stPowerPlAsserted true) 4 evPowerCapLocal
     exec .powerLimitAssert s = .next (updateLimit (setPower u { u.power with fromCap := true }))) := by
  change execPowerLimitAssert s = _
  simp only [execPowerLimitAssert, hreset, hoff, Bool.or_self, Bool.false_eq_true, if_false]

theorem exec_powerLimitRelease (hon : flag s 4 stPowerPlAsserted = true) :
    exec .powerLimitRelease s = .next (updateLimit (setFlag s 4 stPowerPlAsserted false)) := by
  change execPowerLimitRelease s = _
  rw [execPowerLimitRelease, if_pos hon]

end Power

/-! ### The supply -/

section Supply
variable {s : State}

theorem exec_supplyDip {v : Nat} (hlow : v < 420) (hfirst : flag s 4 stPowerWarnActive = false) :
    (let u := setPower s { s.power with dipStart := some (now s), dipLow := v }
     exec (.supplyDip v) s = .next (noteInput (raise (bump (showDip (setFld (setFlag u 4 stPowerWarnActive true) 4 fPowerVIn v) (now u) v
       ((now u - now s) / 1000)) 4 fPowerSupplyWarnCount) 4 evPowerSupplyWarn) 9 1)) := by
  change execSupplyDip v s = _
  simp only [execSupplyDip, if_neg (Nat.not_le.mpr hlow), hfirst, Bool.false_eq_true, if_false]

theorem exec_supplyRecover (hwarn : flag s 4 stPowerWarnActive = true) :
    (let v := wideVal s 4 wLastDip
     let crossed := wideWord v 0 + 2 ^ 32 * wideWord v 1
     let w := showDip s crossed (wideWord v 2) ((now s - s.power.dipStart.getD crossed) / 1000)
     let u := raise (setFlag (setPower w { w.power with dipStart := none }) 4 stPowerWarnActive false) 4 evPowerSupplyOk
     crossed + 1000000 ≤ now s →
     (u.sys.supplyLow = false → exec .supplyRecover s = .next u) ∧
     (u.sys.supplyLow = true → u.sys.resetLow = false →
       exec .supplyRecover s = .next (startModule { u with sys := { u.sys with supplyLow := false } }
         (liveStraps { u with sys := { u.sys with supplyLow := false } })))) := by
  dsimp only
  intro hgood
  have hdue : ¬ ((!flag s 4 stPowerWarnActive) = true ∨
      now s < wideWord (wideVal s 4 wLastDip) 0 + 2 ^ 32 * wideWord (wideVal s 4 wLastDip) 1 + 1000000) := by
    rw [hwarn]
    exact fun h => h.elim Bool.false_ne_true (Nat.not_lt.mpr hgood)
  change (_ → execSupplyRecover s = _) ∧ (_ → _ → execSupplyRecover s = _)
  rw [execSupplyRecover]
  dsimp only
  rw [if_neg hdue]
  refine ⟨fun hsupply => ?_, fun hsupply hreset => ?_⟩
  · rw [hsupply]
    rfl
  · rw [hsupply, hreset]
    rfl

theorem exec_supplyHigh {v : Nat} (hhigh : 600 < v) :
    exec (.supplyHigh v) s = .next (raise (setFld s 4 fPowerVIn (min 1023 v)) 4 evPowerSupplyHigh) := by
  change execSupplyHigh v s = _
  rw [execSupplyHigh, if_neg (Nat.not_le.mpr hhigh)]

end Supply

/-! ### The frequency of the group -/

section Frequency
variable {s : State} {pk : Packet}

/-- A POWER packet of the expected subtype that obeys the table is taken (R428). -/
theorem powerReceive_arrives {sub : Nat} (harrives : Arrives s pk kPower) (hlen : pk.len = 0) (haux : pk.aux.toNat < 2 ^ 15)
    (hsub : pk.aux.toNat % 256 = sub) (hdefined : 1 ≤ sub ∧ sub ≤ 3) (f : State → State) : powerReceive s pk sub f = f (takeInbox s pk) := by
  rw [powerReceive, if_neg (by omega), if_pos hsub, receive_arrives harrives (by rw [decide_eq_true hlen, decide_eq_true haux]; rfl)]

theorem exec_freqSet (harrives : Arrives s pk kPower) (hlen : pk.len = 0) (haux : pk.aux.toNat < 2 ^ 15) (hsub : pk.aux.toNat % 256 = 3) :
    (let u := takeInbox s pk
     isMember u = true → pk.src = gmId u → freqNewer u pk.ctx = true →
       (let v := keepFreq u ⟨packetCode pk, pk.addr.toNat, pk.ctx⟩
        (now v ≤ pk.addr.toNat → exec (.freqSet pk) s = .next v) ∧
        (pk.addr.toNat < now v → exec (.freqSet pk) s = .next (raise (stepFreq v (packetCode pk)) 4 evPowerFreqLate)))) := by
  dsimp only
  intro hmember hsrc hnewer
  change (_ → execFreqSet pk s = _) ∧ (_ → execFreqSet pk s = _)
  rw [execFreqSet, powerReceive_arrives harrives hlen haux hsub (by decide)]
  simp only [hmember, hsrc, hnewer, bne_self_eq_false, Bool.not_true, Bool.or_self, Bool.false_eq_true, if_false]
  refine ⟨fun hahead => ?_, fun hlate => ?_⟩
  · rw [if_neg (Nat.not_lt.mpr hahead)]
  · rw [if_pos hlate]

theorem exec_freqRaiseHold {t : Nat} (hhold : s.power.holdSince = some t) (hzero : holdsRankZero s = true) (hset : s.power.set = true)
    (hbelow : freqTarget s < groupLeast s) (hdue : t + 10000000 * fld s 4 fPowerFreqHold ≤ now s) :
    exec .freqRaiseHold s = .next (setGroupFreq s (groupLeast s)) := by
  change execFreqRaiseHold s = _
  simp only [execFreqRaiseHold, hhold, hzero, hset, decide_eq_true hbelow, decide_eq_true hdue, Bool.and_self, if_true]

theorem exec_voltLate {d : DieId} {p : FreqSet} (hpend : s.power.pend = some p) (hslew : s.power.slewing.contains d.val = true)
    (hlate : s.power.late.contains d.val = false) (hbell : p.bell ≤ now s + 100000) :
    exec (.voltLate d) s = .next (raise (setPower s { s.power with late := s.power.late ++ [d.val] }) 4 evPowerVoltLate) := by
  change execVoltLate d s = _
  simp only [execVoltLate, hpend, hslew, hlate, decide_eq_true hbell, Bool.not_false, Bool.and_self, if_true]

theorem exec_railConfirmed {d : DieId} (hslew : s.power.slewing.contains d.val = true) :
    (let u := setPower s { s.power with
       slewing := s.power.slewing.filter (· != d.val), late := s.power.late.filter (· != d.val) }
     (s.power.late.contains d.val = false → exec (.railConfirmed d) s = .next u) ∧
     (s.power.late.contains d.val = true → s.power.pend = none →
       exec (.railConfirmed d) s = .next (setDiesFreq u (fld u 4 fPowerFGroup) [d.val]))) := by
  change (_ → execRailConfirmed d s = _) ∧ (_ → _ → execRailConfirmed d s = _)
  rw [execRailConfirmed, hslew]
  refine ⟨fun hlate => ?_, fun hlate hpend => ?_⟩
  · rw [hlate]
    rfl
  · have hpend' : (setPower s { s.power with
        slewing := s.power.slewing.filter (· != d.val), late := s.power.late.filter (· != d.val) }).power.pend = none := hpend
    simp only [hlate, hpend', Bool.not_true, Bool.false_eq_true, if_false, Option.isNone_none, Bool.and_self, if_true]

end Frequency

/-- Settles O50: each row, on the measurement or the state that it waits for. -/
theorem powerCompletes : Obligations.PowerCompletes := by
  refine ⟨⟨?poll, ?phase, fun _ _ => rfl, ?cap, ?limit, ?release⟩, ⟨?dip, fun _ => rfl, ?recover, ?high⟩, fun _ => rfl, ?packets, ?raise, ?late,
    ?confirmed⟩
  case poll => exact fun s r t hphase hrail => exec_pmbusPoll hphase hrail
  case phase => exact fun s r l hqueue hspares => exec_phaseBringIn hqueue hspares
  case cap => exact fun s t hbelow hcap hdue => exec_capRaise hbelow hcap hdue
  case limit => exact fun s hreset hoff => exec_powerLimitAssert hreset hoff
  case release => exact fun s hon => exec_powerLimitRelease hon
  case dip => exact fun s v hlow hfirst => exec_supplyDip hlow hfirst
  case recover => exact fun s hwarn => exec_supplyRecover hwarn
  case high => exact fun s v hhigh => exec_supplyHigh hhigh
  case packets =>
    exact fun s pk harrives hlen haux =>
      ⟨fun hsub => congrArg Host.Outcome.next (powerReceive_arrives harrives hlen haux hsub (by decide) _),
        fun hsub => congrArg Host.Outcome.next (powerReceive_arrives harrives hlen haux hsub (by decide) _),
        exec_freqSet harrives hlen haux⟩
  case raise => exact fun s t hhold hzero hset hbelow hdue => exec_freqRaiseHold hhold hzero hset hbelow hdue
  case late => exact fun s d p hpend hslew hlate hbell => exec_voltLate hpend hslew hlate hbell
  case confirmed => exact fun s d hslew => exec_railConfirmed hslew

end Sys2Proof.Machine
end

section
/-!
Coolant and junction temperatures (R432 to R439).
-/

namespace Sys2Proof.Machine

section Coolant
variable {s : State}

/-- Readings in their range clear every alarm of the thermistors. -/
theorem exec_thermistorRead {i o : Int} (hlow : 150 ≤ i) (hhigh : i ≤ 450) (hout : o ≤ 650) :
    (let u := setFld (setFld s 5 fThermalTIn (thermWord (some i))) 5 fThermalTOut (thermWord (some o))
     exec (.thermistorRead (.tenths i) (.tenths o)) s = .next (updateLimit (setTherm u { s.therm with
       inlet := some i, outlet := some o, inletHigh := false, inletLow := false, outletHigh := false, sensorFault := false,
       hotInlet := none }))) := by
  have hhigh' : decide (450 < i) = false := decide_eq_false (by omega)
  have hlow' : decide (i < 150) = false := decide_eq_false (by omega)
  have hhot : decide (550 ≤ i) = false := decide_eq_false (by omega)
  have hout' : decide (650 < o) = false := decide_eq_false (by omega)
  change execThermistorRead (.tenths i) (.tenths o) s = _
  simp only [execThermistorRead, thermValue, Option.any_some, Option.isNone_some, hhigh', hlow', hhot, hout', raiseIf, Bool.or_self, Bool.false_and,
    Bool.false_eq_true, if_false]

theorem exec_flow {m : Nat} (hmeter : pulsesPerLitre s ≠ 0) : exec (.flowAverage m) s = .next (takeFlow s (60 * m / pulsesPerLitre s)) ∧
    exec .flowPulseTimeout s = .next (takeFlow s 0) := by
  change execFlowAverage m s = _ ∧ execFlowPulseTimeout s = _
  rw [execFlowAverage, execFlowPulseTimeout, if_neg hmeter, if_neg hmeter]
  exact ⟨rfl, rfl⟩

theorem exec_flowLowTimeout {t : Nat} (hsince : s.therm.lowFlow = some t) (hdue : t + 5000000000 ≤ now s) (hnew : s.therm.flowLow = false) :
    exec .flowLowTimeout s = .next (raise (setTherm s { s.therm with flowLow := true }) 5 evThermalFlowLow) := by
  change execFlowLowTimeout s = _
  simp only [execFlowLowTimeout, hsince, hdue, hnew, Bool.not_false, and_self, if_true]

theorem exec_flowRestored {t : Nat} (hsince : s.therm.goodFlow = some t) (hlost : s.therm.flowLost = true) (hdue : t + 10000000000 ≤ now s) :
    exec .flowRestored s = .next (updateLimit (setTherm s { s.therm with flowLost := false })) := by
  change execFlowRestored s = _
  simp only [execFlowRestored, hsince, hdue, hlost, and_self, if_true]

theorem exec_inletHotTimeout {t : Nat} (hsince : s.therm.hotInlet = some t) (hdue : t + 10000000000 ≤ now s) :
    exec .inletHotTimeout s = .next (autoStandby s) := by
  change execInletHotTimeout s = _
  simp only [execInletHotTimeout, hsince, hdue, if_true]

theorem exec_managerDieTrip {c : Int} (hhot : 105 ≤ c) : exec (.managerDieTrip c) s = .next (autoStandby s) := by
  change execManagerDieTrip c s = _
  rw [execManagerDieTrip, if_pos hhot]

theorem exec_heatBalanceCheck {w : Nat} {i o : Int} (hin : s.therm.inlet = some i) (hout : s.therm.outlet = some o)
    (hon : flag s 5 fThermalHbEn = true) (hmeter : pulsesPerLitre s ≠ 0) (hflow : fld s 5 fThermalFlow ≠ 0xFFF) :
    (let q := (if flag s 5 fThermalCoolant then 398 else 418) * (fld s 5 fThermalFlow : Int) * (o - i)
     let u := setFld s 5 fThermalQCool (min 2047 (q / 60000).toNat)
     let off := 900000 * (w : Int) + 180000000 < ((100 * q - 5520000 * w).natAbs : Int)
     (¬ off → exec (.heatBalanceCheck w) s = .next (setTherm u { u.therm with imbalance := 0 })) ∧
     (off → u.therm.imbalance < 2 → exec (.heatBalanceCheck w) s = .next (setTherm u { u.therm with imbalance := u.therm.imbalance + 1 })) ∧
     (off → 2 ≤ u.therm.imbalance → exec (.heatBalanceCheck w) s =
       .next (noteInput (raise (bump (setTherm u { u.therm with imbalance := 0 }) 5 fThermalImbalanceCount) 5 evThermalHeatImbalance) 13 1))) := by
  change (_ → execHeatBalanceCheck w s = _) ∧ (_ → _ → execHeatBalanceCheck w s = _) ∧ (_ → _ → execHeatBalanceCheck w s = _)
  simp only [execHeatBalanceCheck, hin, hout, hon, decide_eq_false hmeter, decide_eq_false hflow, Bool.not_true, Bool.or_self, Bool.false_eq_true,
    if_false]
  refine ⟨fun hbalanced => ?_, fun hoff hfew => ?_, fun hoff hmany => ?_⟩
  · rw [if_neg hbalanced]
  · rw [if_pos hoff, if_pos hfew]
  · rw [if_pos hoff, if_neg (Nat.not_lt.mpr hmany)]

end Coolant

section Junction
variable {s : State} {w : WardId} {d : DieId} {t : Nat}

theorem exec_sensorPass {l : List Int} {t : Int} (hmax : hottest l = some t) (hawake : dieAwake s (w / 8) = true) :
    (let u := setTherm s { s.therm with temps := mapPut w t s.therm.temps }
     let v := if mapHas (w.val / 8) s.therm.tripAt then u else if rotationMode u then judgeRotation u w t else judgeNative u w t
     (105 ≤ t → exec (.sensorPass w l) s = .next (tripDie v (w / 8))) ∧
     (t < 105 → exec (.sensorPass w l) s = .next (noteDeep v))) := by
  change (_ → execSensorPass w l s = _) ∧ (_ → execSensorPass w l s = _)
  simp only [execSensorPass, hmax, hawake, Bool.not_true, Bool.false_eq_true, if_false]
  refine ⟨fun hhot => ?_, fun hcool => ?_⟩
  · rw [if_pos hhot]
    rfl
  · rw [if_neg (by omega)]
    rfl

theorem exec_thermalLower (hsince : mapFind w.val s.therm.hotSince = some t) (hdue : t + 100000 ≤ now s) (hnative : rotationMode s = false) :
    exec (.thermalLower w) s = .next (lowerReq (setTherm s { s.therm with hotSince := mapPut w (t + 100000) s.therm.hotSince }) w) := by
  change execThermalLower w s = _
  simp only [execThermalLower, hsince, hdue, hnative, Bool.not_false, and_self, if_true]

theorem exec_thermalRaise (hsince : mapFind w.val s.therm.coolSince = some t) (hdue : t + 1000000 ≤ now s)
    (htrip : mapHas (w.val / 8) s.therm.tripAt = false) :
    exec (.thermalRaise w) s = .next (raiseReq (setTherm s { s.therm with coolSince := mapPut w (t + 1000000) s.therm.coolSince }) w) := by
  change execThermalRaise w s = _
  simp only [execThermalRaise, hsince, decide_eq_true hdue, htrip, Bool.not_false, Bool.and_self, if_true]

theorem exec_tripSleep (htrip : mapHas d.val s.therm.tripAt = true) (hawake : dieAwake s d = true) :
    exec (.tripSleep d) s = .next (tripAsleep (sleepDie s d false) d) := by
  change execTripSleep d s = _
  rw [execTripSleep, htrip, hawake]
  rfl

theorem exec_tripWake {lost : List (Nat × Nat)} (hsince : mapFind d.val s.therm.sleptAt = some t) (hdue : t + 1000000000 ≤ now s)
    (hfree : s.therm.held.contains d.val = false) (hstate : modState s ≠ msStandby) :
    exec (.tripWake d lost) s = .next (tripWakes lost s d) := by
  change execTripWake d lost s = _
  simp only [execTripWake, hsince, decide_eq_true hdue, hfree, decide_eq_true hstate, Bool.not_false, Bool.and_self, if_true]

theorem exec_backstopCut (hawake : dieAwake s d = true) : exec (.backstopCut d true) s =
    .next (noteCores (tripAsleep (setPowerBits (abortReplan (clearDie (tripDie s d) d) d) d false true) d) false) := by
  change execBackstopCut d true s = _
  simp only [execBackstopCut, hawake, Bool.true_or, Bool.not_true, Bool.or_self, Bool.false_eq_true, if_false]

theorem exec_rotationAdvance {r : Rotation} (hrot : mapFind d.val s.therm.rot = some r)
    (hdue : r.since + 1000000 * fld s 5 fThermalRotPeriod ≤ now s) :
    exec (.rotationAdvance d) s = .next (changeReq s (fun t => { t with rot := match nextPeriod s r with
      | some r => mapPut d r t.rot
      | none => mapErase d t.rot })) := by
  change execRotationAdvance d s = _
  rw [execRotationAdvance, hrot]
  exact congrArg Host.Outcome.next (if_pos hdue)

theorem exec_thermalFLower (hsince : s.power.deepSince = some t) (hdue : t + 100000000 ≤ now s) :
    exec .thermalFLower s = .next (updateAllow (setPower s { s.power with
      deepSince := some (t + 100000000), lowered := s.power.lowered + (if fld s 4 fPowerFAllow = 0 then 0 else 1) })) := by
  change execThermalFLower s = _
  simp only [execThermalFLower, hsince, if_pos hdue]

theorem exec_thermalFReturn (hsince : s.power.clearSince = some t) (hdue : t + 1000000000 ≤ now s) (hlowered : 0 < s.power.lowered) :
    exec .thermalFReturn s = .next (updateAllow (setPower s { s.power with
      clearSince := some (t + 1000000000), lowered := s.power.lowered - 1 })) := by
  change execThermalFReturn s = _
  simp only [execThermalFReturn, hsince, if_pos (And.intro hdue hlowered)]

end Junction

/-- Settles O51: each row, on the reading or the time that it waits for. -/
theorem coolingCompletes : Obligations.CoolingCompletes := by
  refine ⟨⟨?thermistor, fun s m hmeter => exec_flow hmeter, ?low, ?restored, ?inlet, ?manager, ?balance⟩, ?pass, ?lower, ?raise, ?sleep, ?wake,
    ?backstop, ?rotate, ?fLower, ?fReturn⟩
  case thermistor => exact fun s i o hlow hhigh hout => exec_thermistorRead hlow hhigh hout
  case low => exact fun s t hsince hdue hnew => exec_flowLowTimeout hsince hdue hnew
  case restored => exact fun s t hsince hlost hdue => exec_flowRestored hsince hlost hdue
  case inlet => exact fun s t hsince hdue => exec_inletHotTimeout hsince hdue
  case manager => exact fun s c hhot => exec_managerDieTrip hhot
  case balance => exact fun s w i o hin hout hon hmeter hflow => exec_heatBalanceCheck hin hout hon hmeter hflow
  case pass => exact fun s w l t hmax hawake => exec_sensorPass hmax hawake
  case lower => exact fun s w t hsince hdue hnative => exec_thermalLower hsince hdue hnative
  case raise => exact fun s w t hsince hdue htrip => exec_thermalRaise hsince hdue htrip
  case sleep => exact fun s d htrip hawake => exec_tripSleep htrip hawake
  case wake => exact fun s d lost t hsince hdue hfree hstate => exec_tripWake hsince hdue hfree hstate
  case backstop => exact fun s d hawake => exec_backstopCut hawake
  case rotate => exact fun s d r hrot hdue => exec_rotationAdvance hrot hdue
  case fLower => exact fun s t hsince hdue => exec_thermalFLower hsince hdue
  case fReturn => exact fun s t hsince hdue hlowered => exec_thermalFReturn hsince hdue hlowered

end Sys2Proof.Machine
end

section
/-!
The health monitor: spare resources, hanging cores, the risk estimate and what is kept over a power loss (R449 to R464).
-/

namespace Sys2Proof.Machine

/-! ### Spare resources -/

section Spares
variable {s : State} {g : CoreId}

theorem exec_coreBringIn {r : CoreReq} {rest : List CoreReq} (hfree : s.health.coreRun = none) (hqueue : s.health.coreQ = r :: rest)
    (hreleased : coresReleased s (coreDie r.core) = true) :
    exec .coreBringIn s = .next (beginCore (setHealth s { s.health with coreQ := rest }) r) := by
  change execCoreBringIn s = _
  simp only [execCoreBringIn, hfree, hqueue, hreleased, if_true]

theorem exec_selfTestDone {r : CoreReq} (hrun : s.health.coreRun = some (r, g.val)) :
    (let u := setHealth s { s.health with coreRun := none }
     (r.back = false → exec (.selfTestDone g true) s = .next (noteCores (spareIn (setCoreState u g 0) 0 r.core) false)) ∧
     (r.back = true →
       (let v := setCoreState u g 1
        exec (.selfTestDone g true) s =
          .next (noteCores (setHealth v { v.health with coreCause := mapErase g.val v.health.coreCause }) false))) ∧
     (r.back = true → exec (.selfTestDone g false) s = .next (fenceCore u g 3)) ∧
     (r.back = false → exec (.selfTestDone g false) s = .next (beginCore (fenceCore u g 3) r))) := by
  change (_ → execSelfTestDone g true s = _) ∧ (_ → execSelfTestDone g true s = _) ∧ (_ → execSelfTestDone g false s = _) ∧
    (_ → execSelfTestDone g false s = _)
  simp only [execSelfTestDone, hrun, ne_eq, not_true_eq_false, Bool.false_eq_true, if_false, if_true]
  refine ⟨fun hback => ?_, fun hback => ?_, fun hback => ?_, fun hback => ?_⟩
  · simp only [hback, Bool.false_eq_true, if_false]
  · simp only [hback, if_true]
  · simp only [hback, if_true]
  · simp only [hback, Bool.false_eq_true, if_false]

/-- A row replaced while its spares last; with none left the core is fenced. `limit` and `cls` are those of the row's memory. -/
theorem exec_rowSpareReplace {r : RowReq} {limit cls : Nat} (hidle : (coreOf s g).tile = none) (hawake : dieAwake s (coreDie g) = true)
    (hcore : r.core = g.val)
    (hhead : r.oc = true ∧ limit = 4 ∧ cls = 2 ∧ s.health.rowQ.find? (fun r => r.oc == true) = some r ∨
      r.oc = false ∧ limit = 8 ∧ cls = 3 ∧ s.health.rowQ.find? (fun r => r.oc == true) = none ∧
        s.health.rowQ.find? (fun r => r.oc == false) = some r) :
    (let used := mapGet (fun _ => 0) (partUse r) s.health.rowUsed
     let t := if r.zero then s else meet s g.val (fun e => flipLives (coreOf s g.val) e && inRow r e)
     let u := setHealth t { t.health with rowQ := t.health.rowQ.erase r }
     (limit ≤ used → exec (.rowSpareReplace g) s = .next (fenceCore (logSpare u cls g 2) g 2)) ∧
     (used < limit →
       (let v := setHealth u { u.health with rowUsed := mapPut (partUse r) (used + 1) u.health.rowUsed }
        exec (.rowSpareReplace g) s = .next (spareIn (raiseIf (decide (used + 1 = limit)) (if r.zero then zeroRow v r else v) 6
          evHealthSpareExhausted) cls g)))) := by
  have hmine : (r.core == g.val) = true := beq_iff_eq.mpr hcore
  have hlimits : (if r.oc then 4 else 8) = limit ∧ (if r.oc then 2 else 3) = cls := by
    obtain ⟨hoc, rfl, rfl, -⟩ | ⟨hoc, rfl, rfl, -⟩ := hhead
    · rw [hoc]
      exact ⟨rfl, rfl⟩
    · rw [hoc]
      exact ⟨rfl, rfl⟩
  have hfirst : (((s.health.rowQ.find? fun r => r.oc == true).filter fun r => r.core == g.val).orElse fun _ =>
      (s.health.rowQ.find? fun r => r.oc == false).filter fun r => r.core == g.val) = some r := by
    obtain ⟨-, -, -, hcache⟩ | ⟨-, -, -, hnone, harray⟩ := hhead
    · rw [hcache, Option.filter_some, if_pos hmine]
      rfl
    · rw [hnone, harray, Option.filter_some, if_pos hmine]
      rfl
  obtain ⟨hlimit, hcls⟩ := hlimits
  change (_ → execRowSpareReplace g s = _) ∧ (_ → execRowSpareReplace g s = _)
  simp only [execRowSpareReplace, hidle, hawake, Option.isSome_none, Bool.not_true, Bool.false_eq_true, or_self, if_false, hfirst, hlimit, hcls,
    hcore]
  exact ⟨fun hspent => by rw [if_pos hspent], fun hleft => by rw [if_neg (Nat.not_le.mpr hleft)]⟩

theorem exec_mgrSpareStart {m k : Nat} {rest more : List Nat} (hqueue : s.health.mgrQ = m :: rest)
    (hfree : (List.range 18).filter (fun k => s.health.mgrSpare.getLsbD k && !(s.health.mgrFenced.getLsbD k)) = k :: more) :
    (let u := setHealth s { s.health with mgrQ := rest, mgrSpare := s.health.mgrSpare &&& ~~~(BitVec.ofNat 18 (2 ^ k)) }
     exec .mgrSpareStart s = .next (noteMgr (spareIn (raiseIf more.isEmpty u 6 evHealthSpareExhausted) 1 m))) := by
  change execMgrSpareStart s = _
  simp only [execMgrSpareStart, hqueue, hfree]

theorem exec_coreHang {t : Nat} (hsince : (coreOf s g).abandonedAt = some t) (hidle : (coreOf s g).tile = none)
    (hbusy : (coreOf s g).asyncs.any (fun a => !a.suspended) = true ∨ (coreOf s g).passes.any (fun p => !p.suspended) = true)
    (hdue : t + 1000000 ≤ now s) : exec (.coreHang g) s = .next (fenceCore s g 5) := by
  have hbusy : ((coreOf s g).asyncs.any (fun a => !a.suspended) || (coreOf s g).passes.any (fun p => !p.suspended)) = true :=
    Bool.or_eq_true_iff.mpr hbusy
  change execCoreHang g s = _
  simp only [execCoreHang, hsince, hidle, hbusy, decide_eq_true hdue, Option.isNone_none, Bool.and_self, if_true]

end Spares

/-! ### The risk of a second -/

/-- What the estimate of a second does, once shown: RISK_HIGH follows the level, and a rise past it is reported once. -/
def judgeRisk (u : State) (risk : Nat) : State :=
  let level := fld u 9 fStore1RiskLevel
  let v := if level ≤ risk then setFlag u 6 stHealthRiskHigh true
    else if risk + 32 < level then setFlag u 6 stHealthRiskHigh false else u
  let armed := v.health.riskArmed || decide (risk + 32 < level)
  if armed && decide (level ≤ risk) then reportRisk (setHealth v { v.health with riskArmed := false }) risk
  else setHealth v { v.health with riskArmed := armed }

/-- The estimate of a second as it is shown with its peak (R458, R459). -/
def shownRisk (s : State) (risk : Nat) (scores : SMap Nat) : State :=
  let v := setFld (setHealth s { s.health with scores := scores, lastSecond := s.health.cur, cur := [] }) 6 fHealthRisk risk
  setFld v 6 fHealthRiskPeak (max risk (fld v 6 fHealthRiskPeak))

section Risk
variable {u : State} {risk : Nat}

theorem judgeRisk_still (hhigh : fld u 9 fStore1RiskLevel ≤ risk) (harmed : u.health.riskArmed = false) :
    judgeRisk u risk = setHealth (setFlag u 6 stHealthRiskHigh true) { (setFlag u 6 stHealthRiskHigh true).health with riskArmed := false } := by
  have hkept : (setFlag u 6 stHealthRiskHigh true).health.riskArmed = false := harmed
  have hlow : ¬ risk + 32 < fld u 9 fStore1RiskLevel := by omega
  simp only [judgeRisk, if_pos hhigh, hkept, decide_eq_false hlow, Bool.or_self, Bool.false_and, Bool.false_eq_true, if_false]

theorem judgeRisk_low (hlow : risk + 32 < fld u 9 fStore1RiskLevel) :
    judgeRisk u risk = setHealth (setFlag u 6 stHealthRiskHigh false) { (setFlag u 6 stHealthRiskHigh false).health with riskArmed := true } := by
  have hhigh : ¬ fld u 9 fStore1RiskLevel ≤ risk := by omega
  simp only [judgeRisk, if_neg hhigh, if_pos hlow, decide_eq_true hlow, decide_eq_false hhigh, Bool.or_true, Bool.and_false, Bool.false_eq_true,
    if_false]

theorem judgeRisk_rises (hhigh : fld u 9 fStore1RiskLevel ≤ risk) (harmed : u.health.riskArmed = true) :
    judgeRisk u risk = reportRisk (setHealth (setFlag u 6 stHealthRiskHigh true)
      { (setFlag u 6 stHealthRiskHigh true).health with riskArmed := false }) risk := by
  have hkept : (setFlag u 6 stHealthRiskHigh true).health.riskArmed = true := harmed
  simp only [judgeRisk, if_pos hhigh, hkept, decide_eq_true hhigh, Bool.true_or, Bool.and_self, if_true]

theorem judgeRisk_between (hbelow : risk < fld u 9 fStore1RiskLevel) (hnear : fld u 9 fStore1RiskLevel ≤ risk + 32) :
    judgeRisk u risk = setHealth u { u.health with riskArmed := u.health.riskArmed } := by
  have hhigh : ¬ fld u 9 fStore1RiskLevel ≤ risk := by omega
  have hlow : ¬ risk + 32 < fld u 9 fStore1RiskLevel := by omega
  simp only [judgeRisk, if_neg hhigh, if_neg hlow, decide_eq_false hhigh, decide_eq_false hlow, Bool.or_false, Bool.and_false, Bool.false_eq_true,
    if_false]

end Risk

/-- The peak is not a bit of the estimate itself. -/
theorem setPeak_eq (v : State) (risk : Nat) : setFld (setFld v 6 fHealthRisk risk) 6 fHealthRiskPeak (max risk (fld v 6 fHealthRiskPeak)) =
    setFld (setFld v 6 fHealthRisk risk) 6 fHealthRiskPeak (max risk (fld (setFld v 6 fHealthRisk risk) 6 fHealthRiskPeak)) := by
  rw [fld_setFld_disjoint (f := fHealthRisk) (g := fHealthRiskPeak) (by decide) rfl (by decide)]

theorem exec_healthTick (s : State) :
    (let l := (List.range 17).map (nextScore s)
     let risk := min 255 (l.foldl (· + ·) 0 / 256)
     let scores : SMap Nat := (l.zipIdx.map (fun e => (e.2, e.1))).filter (fun e => decide (e.2 ≠ 0))
     exec .healthTick s = .next (pumpSession (judgeRisk (shownRisk s risk scores) risk))) := by
  dsimp only
  change execHealthTick s = _
  rw [execHealthTick]
  dsimp only
  rw [setPeak_eq]
  rfl

/-- Settles O52: each row, on the resource or the second that it is about. -/
theorem healthCompletes : Obligations.HealthCompletes := by
  refine ⟨⟨?bringIn, ?selfTest, ?row, fun _ _ => ⟨rfl, rfl⟩, ?mgr, ?hang⟩, ?risk, ?downtime, ?area⟩
  case bringIn => exact fun s r rest hfree hqueue hreleased => exec_coreBringIn hfree hqueue hreleased
  case selfTest => exact fun s g r hrun => exec_selfTestDone hrun
  case row => exact fun s g r limit cls hidle hawake hcore hhead => exec_rowSpareReplace hidle hawake hcore hhead
  case mgr => exact fun s m k rest more hqueue hfree => exec_mgrSpareStart hqueue hfree
  case hang => exact fun s g t hsince hidle hbusy hdue => exec_coreHang hsince hidle hbusy hdue
  case risk =>
    intro s
    have htick := exec_healthTick s
    dsimp only at htick ⊢
    rw [htick]
    exact ⟨fun hhigh harmed => congrArg (fun x => Host.Outcome.next (pumpSession x)) (judgeRisk_still hhigh harmed),
      fun hlow => congrArg (fun x => Host.Outcome.next (pumpSession x)) (judgeRisk_low hlow),
      fun hhigh harmed => congrArg (fun x => Host.Outcome.next (pumpSession x)) (judgeRisk_rises hhigh harmed),
      fun hbelow hnear => congrArg (fun x => Host.Outcome.next (pumpSession x)) (judgeRisk_between hbelow hnear)⟩
  case downtime =>
    refine fun s => ⟨_, rfl, rfl, rfl, rfl, rfl, fun hup => ?_⟩
    change (if s.health.downExcl then _ else _) = _
    rw [hup]
    exact ite_self _
  case area => exact fun s => ⟨_, rfl, rfl, rfl, rfl, rfl, rfl, rfl⟩

end Sys2Proof.Machine
end

section
/-!
The management session: its messages and its timers (R472 to R485).
-/

namespace Sys2Proof.Machine

/-! ### Messages -/

section Messages
variable {s : State}

theorem exec_openSession {o : OpenMsg} (haccept : acceptsPeer s o.peer = true) (hchan : o.chan = 0) (hlen : o.len = 8) :
    (let u := countFrame s
     (u.mgmt.session = none → exec (.openSession o) s = .next (bindSession u o.peer o.firstEvent.toNat)) ∧
     (∀ x, u.mgmt.session = some x → x.peer = o.peer → exec (.openSession o) s = .next (bindSession u o.peer o.firstEvent.toNat)) ∧
     (∀ x, u.mgmt.session = some x → x.peer ≠ o.peer →
       exec (.openSession o) s = .next (raise (sendOpenResp u o.peer 0 true) 0x11 evMgmtSessionSessionRefused))) := by
  change (_ → execOpenSession o s = _) ∧ (∀ x, _ → _ → execOpenSession o s = _) ∧ (∀ x, _ → _ → execOpenSession o s = _)
  simp only [execOpenSession, haccept, hchan, hlen, Bool.not_true, Bool.false_eq_true, ne_eq, not_true_eq_false, or_self, if_false]
  refine ⟨fun hnone => ?_, fun x hx hpeer => ?_, fun x hx hpeer => ?_⟩
  · simp only [hnone]
  · simp only [hx, if_pos hpeer]
  · simp only [hx, if_neg hpeer]

/-- A message outside the sequence, of the bound peer and on channel 0, is heard. -/
theorem takePlain_session {h : MsgHdr} {x : Session} (haccept : acceptsPeer s h.peer = true) (hchan : h.chan = 0)
    (hsession : sessionFor (countFrame s) h = some x) (act : State → State) : takePlain s h act = act (hearPeer (countFrame s) h) := by
  simp only [takePlain, haccept, hchan, hsession, Bool.not_true, Bool.false_eq_true, ne_eq, not_true_eq_false, if_false]

theorem exec_closeSession {h : MsgHdr} {payload : List Byte} {x : Session} (haccept : acceptsPeer s h.peer = true) (hchan : h.chan = 0)
    (hsession : sessionFor (countFrame s) h = some x) (hlen : payload.length = 4) :
    exec (.closeSession h payload) s = .next (endSession (hearPeer (countFrame s) h)) :=
  congrArg Host.Outcome.next ((takePlain_session haccept hchan hsession _).trans (if_pos hlen))

theorem exec_dataMsg {h : MsgHdr} {payload : List Byte} {u : State} (hd : Delivered s h u) (hchan : h.chan = 1 ∨ h.chan = 2 ∨ h.chan = 4)
    (hroom : ingestWaits s h payload = false) : exec (.dataMsg h payload) s = .next (takeData u h.chan.toNat payload) := by
  change execDataMsg h payload s = _
  rw [execDataMsg, hroom, decide_eq_true hchan, takeSequenced_delivered hd]
  rfl

/-- A datagram that is malformed is counted as such, a bad checksum on the link's own counter. -/
theorem exec_datagramBad {b : BadDatagram} (hport : portServes s = true) (hfcs : b ≠ .fcs) (hseq : ∀ h, b ≠ .channelSequenced h) :
    exec (.datagramBad b) s = .next (msgBad (countFrame s)) := by
  have hnot : ¬ (!portServes s) = true := by
    rw [hport]
    exact Bool.false_ne_true
  cases b with
  | fcs => exact absurd rfl hfcs
  | channelSequenced h => exact absurd rfl (hseq h)
  | udp | header | badType | moduleType | openLength | channelUnsequenced => exact congrArg Host.Outcome.next (if_neg hnot)

theorem exec_datagramBad_fcs (hport : portServes s = true) : exec (.datagramBad .fcs) s = .next (bump s 0x10 fMgmtLinkFcsErrCount) := by
  change execDatagramBad .fcs s = _
  rw [execDatagramBad, hport]
  rfl

theorem portServes_of_acceptsPeer {p : Peer} (h : acceptsPeer s p = true) : portServes s = true := (Bool.and_eq_true_iff.mp h).1

theorem exec_datagramBad_channel {h : MsgHdr} {u : State} (hd : Delivered s h u) :
    exec (.datagramBad (.channelSequenced h)) s = .next (msgBad u) := by
  change execDatagramBad (.channelSequenced h) s = _
  rw [execDatagramBad, portServes_of_acceptsPeer hd.1]
  exact congrArg Host.Outcome.next (takeSequenced_channel hd _)

theorem exec_commandUnknown {c : CmdMsg} {op : BitVec 16} {u : State} (hd : Delivered s c.hdr u) (hchan : c.hdr.chan = 0) :
    exec (.commandUnknown c op) s = .next (answerCmd u (op.toNat % 2 ^ (8 * min 2 c.payloadLen)) (cmdTag c) rcUnknown []) := by
  change execCommandUnknown c op s = _
  rw [execCommandUnknown, decide_eq_true hchan, takeSequenced_delivered hd]

end Messages

/-! ### Timers -/

section Timers
variable {s : State} {x : Session} (hsession : s.mgmt.session = some x)
include hsession

theorem exec_ackKeepalive {t : Nat} (howed : x.ackOwed = some t) (hdue : t + 10000000 ≤ now s) : exec .ackKeepalive s = .next (sendKeepalive s) := by
  change execAckKeepalive s = _
  simp only [execAckKeepalive, hsession, howed, if_pos hdue]

theorem exec_keepaliveTx (hdue : x.sentAt + 1000000000 ≤ now s) : exec .keepaliveTx s = .next (sendKeepalive s) := by
  change execKeepaliveTx s = _
  simp only [execKeepaliveTx, hsession, if_pos hdue]

theorem exec_sessionIdleTimeout (hdue : x.heard + fld s 0x11 fMgmtSessionSessionIdle * 1000000000 ≤ now s) :
    exec .sessionIdleTimeout s = .next (closeSession s 1) := by
  change execSessionIdleTimeout s = _
  simp only [execSessionIdleTimeout, hsession, if_pos hdue]

/-- A message resent 20 times in vain ends the session. -/
theorem exec_sessionResend_vain {y : Unacked} (hy : y ∈ x.unacked) (hdue : y.last + 50000000 ≤ now s) (hmany : 20 ≤ y.resends) :
    exec .sessionResend s = .next (closeSession s 2) := by
  have hany : (x.unacked.any fun u => decide (u.last + 50000000 ≤ now s)) = true := List.any_eq_true.mpr ⟨y, hy, decide_eq_true hdue⟩
  have hvain : (x.unacked.any fun u => decide (u.last + 50000000 ≤ now s) && decide (20 ≤ u.resends)) = true :=
    List.any_eq_true.mpr ⟨y, hy, by rw [decide_eq_true hdue, decide_eq_true hmany]; rfl⟩
  change execSessionResend s = _
  simp only [execSessionResend, hsession, hany, hvain, Bool.not_true, Bool.false_eq_true, if_false, if_true]

/-- The one message without acknowledgement is sent again. -/
theorem exec_sessionResend_one {y : Unacked} (hone : x.unacked = [y]) (hdue : y.last + 50000000 ≤ now s) (hfew : y.resends < 20) :
    (let r := resendOne s x y
     exec .sessionResend s = .next (setSession r.1 (some { x with unacked := [r.2], ackOwed := none, sentAt := now s }))) := by
  change execSessionResend s = _
  simp only [execSessionResend, hsession, hone, List.any_cons, List.any_nil, List.foldl_cons, List.foldl_nil, decide_eq_true hdue,
    decide_eq_false (Nat.not_le.mpr hfew), Bool.or_false, Bool.and_false, Bool.not_true, Bool.false_eq_true, if_false, if_true, List.nil_append]

theorem exec_telemetryTx (hon : s.mgmt.telemetry ≠ 0) (hdue : s.mgmt.telemetryAt + s.mgmt.telemetry * 1000000 ≤ now s) :
    (let u := sendOut s 0x30 6 (telemetryBytes s)
     exec .telemetryTx s = .next (setMgmt u { u.mgmt with telemetryAt := now u })) := by
  change execTelemetryTx s = _
  simp only [execTelemetryTx, hsession, hon, Nat.not_lt.mpr hdue, Option.isNone_some, Bool.false_eq_true, or_self, if_false]

end Timers

/-- Settles O53: each message as it is delivered, each timer as it is due. -/
theorem sessionCompletes : Obligations.SessionCompletes := by
  refine ⟨⟨?opening, ?plain, ?data, ?fcs, ?bad, ?channel, ?unknown⟩, ?ack, ?alive, ?idle, ?resend, ?telemetry⟩
  case opening => exact fun s o haccept hchan hlen => exec_openSession haccept hchan hlen
  case plain =>
    exact fun s h payload x haccept hchan hsession => ⟨exec_closeSession haccept hchan hsession,
      congrArg Host.Outcome.next (takePlain_session haccept hchan hsession fun u => u)⟩
  case data => exact fun s u h payload hd hchan hroom => exec_dataMsg hd hchan hroom
  case fcs => exact fun s hport => exec_datagramBad_fcs hport
  case bad => exact fun s b hport hfcs hseq => exec_datagramBad hport hfcs hseq
  case channel => exact fun s u h hd => exec_datagramBad_channel hd
  case unknown => exact fun s u c op hd hchan => exec_commandUnknown hd hchan
  case ack => exact fun s x t hsession howed hdue => exec_ackKeepalive hsession howed hdue
  case alive => exact fun s x hsession hdue => exec_keepaliveTx hsession hdue
  case idle => exact fun s x hsession hdue => exec_sessionIdleTimeout hsession hdue
  case resend => exact fun s x y hsession => ⟨exec_sessionResend_vain hsession, exec_sessionResend_one hsession⟩
  case telemetry => exact fun s x hsession hon hdue => exec_telemetryTx hsession hon hdue

end Sys2Proof.Machine
end

section
/-!
The session's COMMAND rows that read and write registers and mailbox values (R470, R478, R532).
-/

namespace Sys2Proof.Machine

/-! ### One served command -/

/-- A served command whose run is done answers OK with its results. -/
theorem serveCmd_ok {s u v : State} {c : CmdMsg} {op n : Nat} {results : List Byte} {run : State → CmdResult} (h : Served s c op n u)
    (hrun : run u = { s := v, status := rcOk, results := results }) : serveCmd s c op n run = answersOk v c op results := by
  rw [serveCmd_served h, hrun]
  rfl

/-- A served command whose run leaves something to do after its answer. -/
theorem serveCmd_ok_after {s u v : State} {c : CmdMsg} {op n : Nat} {results : List Byte} {run : State → CmdResult} {after : State → State}
    (h : Served s c op n u) (hrun : run u = { s := v, status := rcOk, results := results, after := some after }) :
    serveCmd s c op n run = after (answersOk v c op results) := by
  rw [serveCmd_served h, hrun]
  rfl

/-- A guarded command on a page that is not the host's own, the window open where it must be, runs. -/
theorem guardedCmd_runs {u : State} {c : CmdMsg} {presence : Bool} (hhost : hostOnlyPage (argNat c 0 2) = false)
    (hwindow : presence = false ∨ presenceOpen u = true) (run : CmdMsg → State → CmdResult) : guardedCmd u c presence run = run c u := by
  have hopen : (presence && !(presenceOpen u)) = false := by
    obtain h | h := hwindow
    · rw [h, Bool.false_and]
    · rw [h, Bool.not_true, Bool.and_false]
  rw [guardedCmd, hhost, hopen]
  rfl

/-! ### Registers -/

section Registers
variable {u v : State} {m : Master} {c : CmdMsg}

theorem cmdRegRead_done {w : Nat} (hargs : regArgsOk c = true) (hget : regGet u m (argNat c 0 2) (argNat c 2 2) = (v, some w)) :
    cmdRegRead m c u = { s := v, status := rcOk, results := leBytes 4 w } := by
  simp only [cmdRegRead, hargs, hget, Bool.not_true, Bool.false_eq_true, if_false]

theorem cmdRegWrite_done (hargs : regArgsOk c = true) (hput : regPut u m (argNat c 0 2) (argNat c 2 2) (argNat c 4 4) = (v, true)) :
    cmdRegWrite m c u = { s := v, status := rcOk, results := [] } := by
  simp only [cmdRegWrite, hargs, hput, Bool.not_true, Bool.false_eq_true, if_false, if_true]

end Registers

/-! ### Mailbox values -/

section Mailboxes
variable {u : State} {m : Master} {c : CmdMsg} {b : Block}

/-- The host's classes reach every page, so a served page answers. -/
theorem busFails_served {page : Nat} (hb : pageBlock page = some b) (hreach : reaches m page = true) (hserved : pageServed u page = true) :
    busFails u m page = false := by
  rw [busFails, hb, hreach, hserved]
  rfl

variable (hb : pageBlock (argNat c 0 2) = some b) (hreach : reaches m (argNat c 0 2) = true) (hserved : pageServed u (argNat c 0 2) = true)
include hb hreach hserved

theorem cmdMbxRead_err (herr : flag (mailboxOp u m b (argNat c 0 2) (argNat c 2 2) false false) (argNat c 0 2) fCommonErr = true) :
    cmdMbxRead m c u =
      { s := mailboxOp u m b (argNat c 0 2) (argNat c 2 2) false false, status := rcOk
        results := leBytes 4 (mbxStat (mailboxOp u m b (argNat c 0 2) (argNat c 2 2) false false) b (argNat c 0 2)) } := by
  simp only [cmdMbxRead, hb, busFails_served hb hreach hserved, herr, Bool.false_eq_true, if_false, if_true]

theorem cmdMbxRead_short (herr : flag (mailboxOp u m b (argNat c 0 2) (argNat c 2 2) false false) (argNat c 0 2) fCommonErr = false)
    (hwords : fld (mailboxOp u m b (argNat c 0 2) (argNat c 2 2) false false) (argNat c 0 2) fCommonWords ≤ 6) :
    cmdMbxRead m c u =
      { s := mailboxOp u m b (argNat c 0 2) (argNat c 2 2) false false, status := rcOk
        results := leBytes 4 (mbxStat (mailboxOp u m b (argNat c 0 2) (argNat c 2 2) false false) b (argNat c 0 2)) ++
        ((List.range (min 6 (fld (mailboxOp u m b (argNat c 0 2) (argNat c 2 2) false false) (argNat c 0 2) fCommonWords))).map
          (fun i => leBytes 4 (mbxWord (mailboxOp u m b (argNat c 0 2) (argNat c 2 2) false false) (argNat c 0 2) i))).flatten } := by
  simp only [cmdMbxRead, hb, busFails_served hb hreach hserved, herr, hwords, Bool.false_eq_true, if_false, if_true]

theorem cmdMbxWrite_done : cmdMbxWrite m c u =
    { s := mailboxPut u m b (argNat c 0 2) (argNat c 2 2) ((List.range 8).map (fun i => argNat c (4 + 4 * i) 4)), status := rcOk,
      results := leBytes 4 (mbxStat (mailboxPut u m b (argNat c 0 2) (argNat c 2 2) ((List.range 8).map (fun i => argNat c (4 + 4 * i) 4))) b
        (argNat c 0 2)) } := by
  simp only [cmdMbxWrite, hb, busFails_served hb hreach hserved, Bool.false_eq_true, if_false]

end Mailboxes

/-- Settles O54: each command is one access, in class X or K, whose outcome is its answer. -/
theorem accessCommandsComplete : Obligations.AccessCommandsComplete := by
  refine ⟨fun s u c h => congrArg Host.Outcome.next (serveCmd_ok h rfl), ?registers, ?mailboxes⟩
  case registers =>
    intro s u v c w hargs
    refine ⟨fun h hget => ?_, fun h hput => ?_, fun h hhost hget => ?_, fun h hhost hwindow hput => ?_⟩
    · exact congrArg Host.Outcome.next (serveCmd_ok h (cmdRegRead_done hargs hget))
    · exact congrArg Host.Outcome.next (serveCmd_ok h (cmdRegWrite_done hargs hput))
    · exact congrArg Host.Outcome.next (serveCmd_ok h ((guardedCmd_runs hhost (.inl rfl) _).trans (cmdRegRead_done hargs hget)))
    · exact congrArg Host.Outcome.next (serveCmd_ok h ((guardedCmd_runs hhost hwindow _).trans (cmdRegWrite_done hargs hput)))
  case mailboxes =>
    intro s u c b hb hserved
    refine ⟨fun h herr => ?_, fun h herr hwords => ?_, fun h => ?_, fun h hhost herr hwords => ?_, fun h hhost hwindow => ?_⟩
    · exact congrArg Host.Outcome.next (serveCmd_ok h (cmdMbxRead_err (m := .x) hb rfl hserved herr))
    · exact congrArg Host.Outcome.next (serveCmd_ok h (cmdMbxRead_short (m := .x) hb rfl hserved herr hwords))
    · exact congrArg Host.Outcome.next (serveCmd_ok h (cmdMbxWrite_done (m := .x) hb rfl hserved))
    · exact congrArg Host.Outcome.next (serveCmd_ok h ((guardedCmd_runs hhost (.inl rfl) _).trans
        (cmdMbxRead_short (m := .k 0) hb rfl hserved herr hwords)))
    · exact congrArg Host.Outcome.next (serveCmd_ok h ((guardedCmd_runs hhost hwindow _).trans (cmdMbxWrite_done (m := .k 0) hb rfl hserved)))

end Sys2Proof.Machine
end

section
/-!
The session's COMMAND rows of jobs, services and the module's state (R478 to R492).
-/

namespace Sys2Proof.Machine

/-! ### Jobs -/

section Jobs
variable {s u : State} {c : CmdMsg}

theorem exec_jobLoad (h : Served s c 0x10 12 u) (hjob : jobRuns u = false) (hnone : u.mgmt.upload = none) (hstate : modState u ≠ msStandby) :
    exec (.jobLoad c) s = .next (setMgmt u { u.mgmt with
      upload := some (Upload.mk none (argNat c 0 8) (BitVec.ofNat 32 (argNat c 8 4)) [] (BitVec.ofNat 32 (cmdTag c))) }) := by
  obtain ⟨hd, hchan, hform, hgate⟩ := h
  change execJobLoad c s = _
  rw [execJobLoad, decide_eq_true hchan, takeSequenced_delivered hd]
  simp only [hform, hgate, hjob, hnone, hstate, Bool.not_true, Bool.false_eq_true, Option.isSome_none, or_self, if_false]

/-- A whole upload of a bundle is judged, and a sound one copied and loaded. -/
theorem exec_bundleComplete {x : Upload} (hupload : s.mgmt.upload = some x) (hjob : x.slot = none) (hwhole : x.len ≤ x.data.length) :
    (let u := setMgmt s { s.mgmt with upload := none }
     (bundleOk u x.data x.len x.crc = true → (copyBundle u x.data).2 = true →
       exec .bundleComplete s = .next (answerCmd (loadBundle (copyBundle u x.data).1 x.data x.len) 0x10 x.tag.toNat rcOk [])) ∧
     (bundleOk u x.data x.len x.crc = false →
       exec .bundleComplete s = .next (answerCmd u 0x10 x.tag.toNat rcBadArg []))) := by
  change (_ → _ → execBundleComplete s = _) ∧ (_ → execBundleComplete s = _)
  simp only [execBundleComplete, hupload, hjob, Nat.not_lt.mpr hwhole, Option.isSome_none, Bool.false_eq_true, or_self, if_false]
  refine ⟨fun hsound hcopied => ?_, fun hbad => ?_⟩
  · simp only [hsound, hcopied, Bool.not_true, Bool.false_eq_true, if_false, if_true]
  · simp only [hbad, Bool.not_false, if_true]

theorem exec_jobStart (h : Served s c 0x11 4 u) (hflags : argNat c 0 4 ≤ 1) (hjob : u.job ≠ none) (hready : modState u = msReady)
    (hawake : ∀ d < 4, dieAwake u d = true) (hregs : (putJobRegs u).2 = true) :
    exec (.jobStart c) s = .next (answersOk (startJob (putJobRegs u).1 (decide (argNat c 0 4 = 1))) c 0x11 []) := by
  have hloaded : u.job.isNone = false := Option.isNone_eq_false_iff.mpr (Option.isSome_iff_ne_none.mpr hjob)
  have hall : (List.range 4).all (dieAwake u) = true := List.all_eq_true.mpr fun d hd => hawake d (List.mem_range.mp hd)
  refine congrArg Host.Outcome.next (serveCmd_ok h ?_)
  simp only [if_neg (Nat.not_lt.mpr hflags), hloaded, hready, hall, hregs, Bool.false_eq_true, if_false, ne_eq, not_true_eq_false, Bool.not_true,
    or_self, if_true]

theorem exec_jobStop (h : Served s c 0x12 0 u) (hjob : u.job ≠ none) : exec (.jobStop c) s = .next (answersOk (endJob u) c 0x12 []) := by
  have hloaded : u.job.isNone = false := Option.isNone_eq_false_iff.mpr (Option.isSome_iff_ne_none.mpr hjob)
  refine congrArg Host.Outcome.next (serveCmd_ok h ?_)
  simp only [hloaded, Bool.false_eq_true, if_false]

/-- A step of the plan that has been reached begins, or ends the plan. -/
theorem exec_planStep {n : Nat} {j : Job} {p : Plan} (hnext : s.planNext = some n) (hjob : s.job = some j) (hplan : j.plan = some p)
    (hruns : jobRuns s = true) (hreached : stepReached s p n = true) :
    (p.steps ≠ 0 → p.first + p.steps ≤ n → exec .planStep s = .next (endPlan s)) ∧
    ((p.steps = 0 ∨ n < p.first + p.steps) → exec .planStep s = .next (planStep s p n)) := by
  change (_ → _ → execPlanStep s = _) ∧ (_ → execPlanStep s = _)
  simp only [execPlanStep, hnext, hjob, hplan, Option.bind_some, hruns, hreached, Bool.not_true, Bool.or_self, Bool.false_eq_true, if_false]
  refine ⟨fun hsteps hend => ?_, fun hgoes => ?_⟩
  · rw [if_pos ⟨hsteps, hend⟩]
  · rw [if_neg (by omega)]

end Jobs

/-! ### Services -/

section Services
variable {s u : State} {c : CmdMsg}

theorem exec_netConfig (h : Served s c 0x13 12 u) (hargs : netArgsOk c = true) :
    exec (.netConfig c) s = .next (netConfig (answersOk u c 0x13 []) c) :=
  congrArg Host.Outcome.next (serveCmd_ok_after (after := fun x => netConfig x c) h (if_pos hargs))

theorem exec_telemetrySet (h : Served s c 0x14 4 u) (hms : argNat c 0 4 = 0 ∨ (100 ≤ argNat c 0 4 ∧ argNat c 0 4 ≤ 60000)) :
    exec (.telemetrySet c) s =
      .next (answersOk (setMgmt u { u.mgmt with telemetry := argNat c 0 4, telemetryAt := now u }) c 0x14 []) :=
  congrArg Host.Outcome.next (serveCmd_ok h (if_pos hms))

theorem exec_ingestOpen (h : Served s c 0x15 36 u) (hjob : u.job ≠ none) (hsize : argNat c 8 8 ≠ 0) (hpages : argNat c 8 8 % 4096 = 0)
    (hrecord : argNat c 16 4 ≠ 0) (hwhole : argNat c 8 8 % argNat c 16 4 = 0) (hend : argNat c 0 8 + argNat c 8 8 ≤ bulkEnd)
    (hprod : ctrOk (argNat c 20 8) = true) (hcons : ctrOk (argNat c 28 8) = true) :
    exec (.ingestOpen c) s = .next (answersOk { u with
      ingest := some ⟨argNat c 0 8, argNat c 8 8, argNat c 16 4, argNat c 20 8, argNat c 28 8, 0⟩ } c 0x15 []) := by
  have hloaded : u.job.isNone = false := Option.isNone_eq_false_iff.mpr (Option.isSome_iff_ne_none.mpr hjob)
  refine congrArg Host.Outcome.next (serveCmd_ok h ?_)
  simp only [hloaded, hsize, hpages, hrecord, hwhole, Nat.not_lt.mpr hend, hprod, hcons, Bool.false_eq_true, if_false, ne_eq, not_true_eq_false,
    Bool.not_true, or_self]

theorem exec_eventsFrom {x : Session} (h : Served s c 0x16 8 u) (hsession : u.mgmt.session = some x) :
    exec (.eventsFrom c) s = .next (pumpSession (answersOk (setSession u (some { x with nextEvent := firstEvent u (argNat c 0 8) })) c 0x16 [])) := by
  refine congrArg Host.Outcome.next (serveCmd_ok_after h ?_)
  simp only [hsession]

end Services

/-- Settles O55: each command where it is served, with a job or an upload as it needs. -/
theorem jobAndServiceCommandsComplete : Obligations.JobAndServiceCommandsComplete := by
  refine ⟨⟨?load, ?bundle, ?start, ?stop, ?plan⟩, ?net, ?telemetry, ?ingest, ?events⟩
  case load => exact fun s u c h hjob hnone hstate => exec_jobLoad h hjob hnone hstate
  case bundle => exact fun s x hupload hjob hwhole => exec_bundleComplete hupload hjob hwhole
  case start => exact fun s u c h hflags hjob hready hawake hregs => exec_jobStart h hflags hjob hready hawake hregs
  case stop => exact fun s u c h hjob => exec_jobStop h hjob
  case plan => exact fun s n j p hnext hjob hplan hruns hreached => exec_planStep hnext hjob hplan hruns hreached
  case net => exact fun s u c h hargs => exec_netConfig h hargs
  case telemetry => exact fun s u c h hms => exec_telemetrySet h hms
  case ingest =>
    exact fun s u c h hjob hsize hpages hrecord hwhole hend hprod hcons => exec_ingestOpen h hjob hsize hpages hrecord hwhole hend hprod hcons
  case events => exact fun s u c x h hsession => exec_eventsFrom h hsession

/-! ### The module's state -/

section States
variable {s u : State} {c : CmdMsg}

theorem exec_dieSleepCmd (h : Served s c 0x20 4 u) (hmask : argNat c 0 4 ≤ 15) (hwork : atWork u = true) (hjob : jobRuns u = false) :
    exec (.dieSleepCmd c) s = .next (answersOk ((maskDies (argNat c 0 4)).foldl sleepAction u) c 0x20 []) := by
  refine congrArg Host.Outcome.next (serveCmd_ok h ?_)
  simp only [if_neg (Nat.not_lt.mpr hmask), hjob, hwork, Bool.not_true, Bool.false_eq_true, if_false]

theorem exec_dieWakeCmd {lost : List (Nat × Nat)} (h : Served s c 0x21 4 u) (hmask : argNat c 0 4 ≤ 15) (hwork : atWork u = true) :
    exec (.dieWakeCmd c lost) s = .next (answersOk ((maskDies (argNat c 0 4)).foldl (fun s d => wakeAction s d lost) u) c 0x21 []) := by
  refine congrArg Host.Outcome.next (serveCmd_ok h ?_)
  simp only [if_neg (Nat.not_lt.mpr hmask), hwork, Bool.not_true, Bool.false_eq_true, if_false]

theorem exec_standbyCmd (h : Served s c 0x22 0 u) (hjob : jobRuns u = false) :
    exec (.standbyCmd c) s = .next (answersOk (enterStandby u true) c 0x22 []) := by
  refine congrArg Host.Outcome.next (serveCmd_ok h ?_)
  simp only [hjob, Bool.false_eq_true, if_false]

theorem exec_wakeCmd {lost : List (Nat × Nat)} (h : Served s c 0x23 0 u) :
    exec (.wakeCmd c lost) s = .next (answersOk (leaveStandby u lost) c 0x23 []) :=
  congrArg Host.Outcome.next (serveCmd_ok h rfl)

theorem exec_reset_warm (h : Served s c 0x24 4 u) (hkind : argNat c 0 4 = 0) :
    exec (.reset c) s = .next (warmReset (answersOk u c 0x24 [])) := by
  refine congrArg Host.Outcome.next (serveCmd_ok_after h ?_)
  simp only [hkind]

theorem exec_reset_module (h : Served s c 0x24 4 u) (hkind : argNat c 0 4 = 1) :
    exec (.reset c) s = .next (moduleReset (answersOk u c 0x24 []) (liveStraps (answersOk u c 0x24 [])) 4) := by
  refine congrArg Host.Outcome.next (serveCmd_ok_after (after := fun x => moduleReset x (liveStraps x) 4) h ?_)
  simp only [hkind]

section Transfers
variable (hrank : argNat c 4 2 < 2 ^ 15) (hidle : u.store.xfer = none)
include hrank hidle

theorem exec_exportCmd (h : Served s c 0x30 6 u) :
    exec (.exportCmd c) s = .next (startExport (answersOk (selectXfer u c) c 0x30 []) (argNat c 0 4) (argNat c 4 2)) := by
  refine congrArg Host.Outcome.next (serveCmd_ok_after (after := fun x => startExport x (argNat c 0 4) (argNat c 4 2)) h ?_)
  simp only [if_neg (Nat.not_le.mpr hrank), hidle, Option.isSome_none, Bool.false_eq_true, if_false]

theorem exec_importCmd (h : Served s c 0x31 6 u) (hjob : jobRuns u = false) :
    exec (.importCmd c) s = .next (answersOk (startImport (selectXfer u c) (argNat c 0 4) (argNat c 4 2)) c 0x31 []) := by
  refine congrArg Host.Outcome.next (serveCmd_ok h ?_)
  simp only [if_neg (Nat.not_le.mpr hrank), hidle, hjob, Option.isSome_none, Bool.false_eq_true, if_false]

end Transfers

theorem exec_clutch (h : Served s c 0x32 4 u) (haction : argNat c 0 4 ≤ 3) (hzero : holdsRankZero u = true) :
    exec (.clutch c) s = .next (answersOk (clutchAction u (argNat c 0 4)) c 0x32 []) := by
  refine congrArg Host.Outcome.next (serveCmd_ok h ?_)
  simp only [if_neg (Nat.not_lt.mpr haction), hzero, Bool.not_true, Bool.false_eq_true, if_false]

end States

/-- Settles O56: each command where it is served and not refused. -/
theorem stateCommandsComplete : Obligations.StateCommandsComplete := by
  refine ⟨?dies, ?standby, ?wake, ?reset, ?transfers, ?clutch⟩
  case dies => exact fun s u c lost hmask hwork => ⟨fun h => exec_dieSleepCmd h hmask hwork, fun h => exec_dieWakeCmd h hmask hwork⟩
  case standby => exact fun s u c h hjob => exec_standbyCmd h hjob
  case wake => exact fun s u c lost h => exec_wakeCmd h
  case reset => exact fun s u c h => ⟨exec_reset_warm h, exec_reset_module h⟩
  case transfers => exact fun s u c hrank hidle => ⟨exec_exportCmd hrank hidle, exec_importCmd hrank hidle⟩
  case clutch => exact fun s u c h haction hzero => exec_clutch h haction hzero

end Sys2Proof.Machine
end

section
/-!
The session's COMMAND rows of identity, images and debug (R500 to R510).
-/

namespace Sys2Proof.Machine

/-- A served command whose run ends OK, and leaves nothing to do after its answer, answers with the run's results. -/
theorem serveCmd_of_run {s u : State} {c : CmdMsg} {op n : Nat} {r : CmdResult} {run : State → CmdResult} (h : Served s c op n u)
    (hrun : run u = r) (hok : r.status = rcOk) (hafter : r.after = none) : serveCmd s c op n run = answersOk r.s c op r.results := by
  rw [serveCmd_served h, hrun, hok, hafter]
  rfl

/-! ### Attestation -/

section Attestation
variable {s u : State} {c : CmdMsg}

theorem exec_attest (h : Served s c 0x40 32 u) (hleft : otsLeft u ≠ 0) :
    (let i := (otsUse u).1
     let v := (otsUse u).2
     exec (.attest c) s = .next (answersOk (setSec v { v.sec with
       quote := [], building := some (quoteBody v c.args i, i) }) c 0x40 (leBytes 4 5332))) :=
  congrArg Host.Outcome.next (serveCmd_ok h (if_neg hleft))

theorem exec_quoteReady {body : List Byte} {i : Nat} (hbuilding : s.sec.building = some (body, i)) :
    exec .quoteReady s = .next (setSec s { s.sec with
      building := none, quote := body ++ (List.range 5076).map (Config.signatureByte i body) }) := by
  change execQuoteReady s = _
  simp only [execQuoteReady, hbuilding]

theorem exec_quoteRead (h : Served s c 0x41 4 u) (hpiece : argNat c 0 4 % 1024 = 0) (hlen : argNat c 0 4 < u.sec.quote.length) :
    exec (.quoteRead c) s = .next (answersOk u c 0x41 ((u.sec.quote.drop (argNat c 0 4)).take 1024)) :=
  congrArg Host.Outcome.next (serveCmd_ok h (if_neg fun hbad => hbad.elim (· hpiece) (Nat.not_le.mpr hlen)))

theorem exec_certRead (h : Served s c 0x42 8 u) (hindex : argNat c 0 4 ≤ 1) (hoff : argNat c 4 4 < 3220) :
    exec (.certRead c) s = .next (answersOk u c 0x42 ((List.range (min 1024 (3220 - argNat c 4 4))).map
      (fun k => certAt u (argNat c 0 4) (argNat c 4 4 + k)))) :=
  congrArg Host.Outcome.next (serveCmd_ok h (if_neg fun hbad => hbad.elim (Nat.not_lt.mpr hindex) (Nat.not_le.mpr hoff)))

end Attestation

/-! ### Images -/

section Images
variable {s u : State} {c : CmdMsg}

theorem exec_imageBegin (h : Served s c 0x43 8 u) (hslot : argNat c 0 4 ≤ 1) (hmin : imageFront < argNat c 4 4)
    (hmax : argNat c 4 4 ≤ imageFront + 8388608) (hopen : presenceOpen u = true) (hserved : slotServed u (argNat c 0 4) = true)
    (hidle : slotRuns u (argNat c 0 4) = false) (hcapture : flag u 9 stStore1Capturing = false) (hnone : u.mgmt.upload = none) :
    exec (.imageBegin c) s = .next (answersOk (beginImage u (argNat c 0 4) (argNat c 4 4)) c 0x43 []) := by
  have hargs : ¬ (2 < argNat c 0 4 ∨ argNat c 4 4 ≤ imageFront ∨ imageFront + 8388608 < argNat c 4 4) := by omega
  refine congrArg Host.Outcome.next (serveCmd_ok h ?_)
  simp only [if_neg hargs, hopen, hserved, hidle, hcapture, hnone, Bool.not_true, Bool.false_eq_true, Option.isSome_none, and_false, or_self,
    if_false]

theorem exec_imageCommit {x : Upload} (h : Served s c 0x44 8 u) (hupload : uploadOf u (argNat c 0 4) = some x)
    (hopen : argNat c 0 4 < 2 → presenceOpen u = true) (hwhole : x.len ≤ x.data.length)
    (hcrc : (crc32 (sparseBytes x.data 0 x.len)).toNat = argNat c 4 4) :
    (let r := closeImage u (argNat c 0 4) ⟨x.data, x.len⟩ (verifyImage u (some ⟨x.data, x.len⟩))
     r.status = rcOk → r.after = none → exec (.imageCommit c) s = .next (answersOk r.s c 0x44 r.results)) := by
  dsimp only
  intro hok hafter
  have hwindow : ¬ (argNat c 0 4 < 2 ∧ (!presenceOpen u) = true) := by
    rintro ⟨hslot, hclosed⟩
    rw [hopen hslot] at hclosed
    exact Bool.false_ne_true hclosed
  refine congrArg Host.Outcome.next (serveCmd_of_run h ?_ hok hafter)
  simp only [hupload, if_neg hwindow, Nat.not_lt.mpr hwhole, hcrc, ne_eq, not_true_eq_false, or_self, if_false]

theorem exec_imageErase (h : Served s c 0x45 4 u) (hslot : argNat c 0 4 ≤ 1) (hopen : presenceOpen u = true)
    (hserved : slotServed u (argNat c 0 4) = true) (hidle : slotRuns u (argNat c 0 4) = false)
    (hcapture : flag u 9 stStore1Capturing = false) (hnone : uploadOf u (argNat c 0 4) = none) :
    exec (.imageErase c) s = .next (answersOk (eraseSlot u (argNat c 0 4)) c 0x45 []) := by
  refine congrArg Host.Outcome.next (serveCmd_ok h ?_)
  simp only [Nat.not_lt.mpr hslot, hopen, hserved, hidle, hcapture, hnone, Bool.not_true, Bool.false_eq_true, Option.isSome_none, or_self,
    if_false]

theorem exec_svnCommitCmd (h : Served s c 0x46 0 u) (hopen : presenceOpen u = true) (hdue : svnRefused u = false) :
    exec (.svnCommitCmd c) s = .next (answersOk (svnCommitEffect u) c 0x46 []) := by
  refine congrArg Host.Outcome.next (serveCmd_ok h ?_)
  simp only [hopen, hdue, Bool.not_true, Bool.false_eq_true, if_false]

end Images

/-! ### Debug -/

section Debug
variable {s u : State} {c : CmdMsg} (h : Served s c 0x48 24 u) (hcore : argNat c 0 4 ≤ 17) (hopen : presenceOpen u = true)
  (hdebug : flag u 2 stSecurityDebugEn = true)
include h hcore hopen hdebug

theorem exec_debugAccess_halt (hop : argNat c 4 4 = 0) :
    exec (.debugAccess c) s = .next (answersOk (setSec u { u.sec with
      halted := u.sec.halted.filter (· != argNat c 0 4) ++ [argNat c 0 4] }) c 0x48 []) := by
  have hargs : ¬ (17 < argNat c 0 4 ∨ 3 < argNat c 4 4) := by omega
  refine congrArg Host.Outcome.next (serveCmd_ok h ?_)
  simp only [if_neg hargs, hopen, hdebug, Bool.not_true, Bool.false_eq_true, if_false]
  rw [hop, debugOp]

theorem exec_debugAccess_resume (hop : argNat c 4 4 = 1) :
    exec (.debugAccess c) s = .next (answersOk (setSec u { u.sec with
      halted := u.sec.halted.filter (· != argNat c 0 4) }) c 0x48 []) := by
  have hargs : ¬ (17 < argNat c 0 4 ∨ 3 < argNat c 4 4) := by omega
  refine congrArg Host.Outcome.next (serveCmd_ok h ?_)
  simp only [if_neg hargs, hopen, hdebug, Bool.not_true, Bool.false_eq_true, if_false]
  rw [hop, debugOp]

end Debug

/-- Settles O57: each command where it is served, with the window open where it must be. -/
theorem securityCommandsComplete : Obligations.SecurityCommandsComplete := by
  refine ⟨⟨?attest, ?ready, ?quote, ?cert⟩, ?begin, ?commit, ?erase, ?svn, ?status, ?debug⟩
  case attest => exact fun s u c h hleft => exec_attest h hleft
  case ready => exact fun s body i hbuilding => exec_quoteReady hbuilding
  case quote => exact fun s u c h hpiece hlen => exec_quoteRead h hpiece hlen
  case cert => exact fun s u c h hindex hoff => exec_certRead h hindex hoff
  case begin =>
    exact fun s u c h hslot hmin hmax hopen hserved hidle hcapture hnone => exec_imageBegin h hslot hmin hmax hopen hserved hidle hcapture hnone
  case commit => exact fun s u c x h hupload hopen hwhole hcrc => exec_imageCommit h hupload hopen hwhole hcrc
  case erase => exact fun s u c h hslot hopen hserved hidle hcapture hnone => exec_imageErase h hslot hopen hserved hidle hcapture hnone
  case svn => exact fun s u c h hopen hdue => exec_svnCommitCmd h hopen hdue
  case status => exact fun s u c h => congrArg Host.Outcome.next (serveCmd_ok h rfl)
  case debug =>
    exact fun s u c h hcore hopen hdebug => ⟨exec_debugAccess_halt h hcore hopen hdebug, exec_debugAccess_resume h hcore hopen hdebug⟩

end Sys2Proof.Machine
end

section
/-!
Presence, seal and pins, the side services, ward nap, and the resets (R472 to R492, R508, R509).
-/

namespace Sys2Proof.Machine

/-! ### Presence and seal -/

section Presence
variable {s : State}

theorem exec_presencePress (hreset : s.sys.resetLow = false) : exec .presencePress s =
    .next (notePresence (setSec s { s.sec with pressUntil := some (now s + 300 * 1000000000) })) := by
  change execPresencePress s = _
  rw [execPresencePress, hreset]
  rfl

theorem exec_presenceExpiry {t : Nat} (hpress : s.sec.pressUntil = some t) (hdue : t ≤ now s) :
    exec .presenceExpiry s = .next (notePresence (setSec s { s.sec with pressUntil := none })) := by
  change execPresenceExpiry s = _
  simp only [execPresenceExpiry, hpress, if_pos hdue]

/-- The live pins as registers, before the seal and the jumper are judged. -/
def pinsShown (s : State) (p : PinLevels) : State :=
  let u := setFlag (setFlag (setFlag s 1 fStrapsPlLow p.powerLimitLow) 1 fStrapsBtnLow p.btnLow) 1 fStrapsLosHigh p.losHigh
  setFld (setFlag (setFlag u 1 fStrapsTxdisHigh u.mgmt.txDisabled) 1 fStrapsAlertLow (alertLow u)) 1 fStrapsStrapsLive p.straps.toNat

theorem exec_pinSample (p : PinLevels) : exec (.pinSample p) s =
    .next (notePresence (setFlag (sampleSeal (pinsShown s p) p.sealOhms) 2 stSecurityJumper p.jumper)) := rfl

theorem regsOnly_setFld (s : State) (page : Nat) (f : FieldDef) (v : Nat) : RegsOnly s (setFld s page f v) := rfl

theorem regsOnly_setFlag (s : State) (page : Nat) (f : FieldDef) (b : Bool) : RegsOnly s (setFlag s page f b) := rfl

theorem regsOnly_pinsShown (p : PinLevels) : RegsOnly s (pinsShown s p) :=
  ((((regsOnly_setFlag s _ _ _).trans (regsOnly_setFlag _ _ _ _)).trans (regsOnly_setFlag _ _ _ _)).trans
    ((regsOnly_setFlag _ _ _ _).trans (regsOnly_setFlag _ _ _ _))).trans (regsOnly_setFld _ _ _ _)

theorem strapsLive_pinsShown (p : PinLevels) : fld (pinsShown s p) 1 fStrapsStrapsLive = p.straps.toNat :=
  (fld_setFld_same (by decide) _ 1 p.straps.toNat).trans (Nat.mod_eq_of_lt p.straps.isLt)

theorem exec_sealBreak {t : Nat} (hsince : s.sec.sealOpenSince = some t) (hwhole : flag s 2 stSecuritySealBroken = false)
    (hdue : t + 10000000 ≤ now s ∨ s.sec.sealAtPower = true) :
    exec .sealBreak s = .next (raise (fuseFld (fuseFld s 2 stSecuritySealBroken 1) 2 stSecurityDebugEn 1) 2 evSecuritySealOpened) := by
  have hbreaks : ¬ (flag s 2 stSecuritySealBroken = true ∨ (now s < t + 10000000 ∧ (!s.sec.sealAtPower) = true)) := by
    rintro (hbroken | ⟨hearly, hlater⟩)
    · exact Bool.false_ne_true (hwhole.symm.trans hbroken)
    · obtain hlate | hpower := hdue
      · omega
      · rw [hpower] at hlater
        exact Bool.false_ne_true hlater
  change execSealBreak s = _
  simp only [execSealBreak, hsince, if_neg hbreaks]

end Presence

/-! ### The side services -/

section Services
variable {s : State}

theorem exec_smbusRead {code : BitVec 8} {n : Nat} {block : Bool} (hsize : smbusSize code.toNat = some (n, block)) :
    (let body := (if block then [BitVec.ofNat 8 n] else []) ++ leBytes n (mapGet (fun _ => 0) code.toNat s.mgmt.smbus)
     exec (.smbusRead code false false) s = .next (setMgmt s { s.mgmt with smbusReply := some body })) := by
  change execSmbusRead code false false s = _
  simp only [execSmbusRead, hsize, Bool.false_eq_true, if_false, List.append_nil]

theorem exec_pcsBlockLock (hdown : flag s 0x10 stMgmtLinkLinkUp = false) : exec (.pcsBlockLock true) s =
    .next (raise (setFlag (setFlag s 0x10 stMgmtLinkLinkUp true) 0x10 stMgmtLinkFecOn
      (flag s 0x10 fMgmtLinkFecEn && !(flag s 1 fStrapsMgmtMode))) 0x10 evMgmtLinkLinkUp) := by
  change execPcsBlockLock true s = _
  rw [execPcsBlockLock, hdown]
  rfl

theorem exec_icmpEcho {q : EchoReq} {b : List Byte} (hport : portServes s = true) (hanswer : echoAnswer (countFrame s) q = some b) :
    exec (.icmpEcho q) s = .next (bump (setMgmt (countFrame s)
      { (countFrame s).mgmt with replies := (countFrame s).mgmt.replies ++ [b] }) 0x10 fMgmtLinkTxFrames) := by
  change execIcmpEcho q s = _
  simp only [execIcmpEcho, hport, hanswer, Bool.not_true, Bool.false_eq_true, if_false]

theorem exec_dhcpv4 {l : BitVec 32} {n : BitVec 6} (hport : portServes s = true) (hon : flag (countFrame s) 0x11 fMgmtSessionIp4Dhcp = true) :
    exec (.dhcpv4 l n) s = .next (setMgmt (countFrame s) { (countFrame s).mgmt with lease := some (l, n) }) := by
  change execDhcpv4 l n s = _
  simp only [execDhcpv4, hport, hon, Bool.not_true, Bool.false_eq_true, if_false, if_true]

end Services

/-! ### Ward nap -/

section Nap
variable {s : State} {w : WardId}

/-- What WARD_NAP waits for. -/
def mayNap (s : State) (w : Nat) : Bool :=
  dieAwake s (w / 8) && !(flag s (pgWard w) stWardNap) && wardIdle s w && !(wardWanted s w) && coresReleased s (w / 8)

/-- A ward that may nap does; another one stays as it was. -/
theorem exec_wardNap : exec (.wardNap w) s = .next (if mayNap s w then replanNap (setFlag s (pgWard w.val) stWardNap true) w.val else s) := by
  change execWardNap w s = _
  rw [execWardNap, mayNap]
  cases dieAwake s (w.val / 8) with
  | false => rfl
  | true =>
    cases flag s (pgWard w.val) stWardNap with
    | true => rfl
    | false =>
      cases wardIdle s w.val with
      | false => rfl
      | true =>
        cases wardWanted s w.val with
        | true => rfl
        | false => cases coresReleased s (w.val / 8) with
          | true => rfl
          | false => rfl

/-- No core of an idle ward runs or holds a tile, or has a pass. -/
theorem idle_of_wardIdle (h : wardIdle s w = true) {g : Nat} (hg : g ∈ wardCores w) :
    (coreOf s g).passes = [] ∧ (coreOf s g).tile = none ∧ (coreOf s g).shadow = none := by
  have hcore := List.all_eq_true.mp h g hg
  rw [Bool.and_eq_true, Bool.and_eq_true] at hcore
  obtain ⟨⟨htile, hshadow⟩, hpasses⟩ := hcore
  exact ⟨List.isEmpty_iff.mp hpasses, Option.isNone_iff_eq_none.mp htile, Option.isNone_iff_eq_none.mp hshadow⟩

theorem wardIdle_of_napping {t : State} (hexec : exec (.wardNap w) s = .next t) (hwas : flag s (pgWard w) stWardNap = false)
    (hnow : flag t (pgWard w) stWardNap = true) : wardIdle s w = true := by
  rw [exec_wardNap] at hexec
  cases hmay : mayNap s w with
  | true =>
    simp only [mayNap, Bool.and_eq_true] at hmay
    exact hmay.1.1.2
  | false =>
    rw [hmay] at hexec
    have hsame : s = t := Host.Outcome.next.inj hexec
    rw [← hsame, hwas] at hnow
    exact absurd hnow Bool.false_ne_true

end Nap

/-- Settles O58: presence, the seal, the pins and the side services as they answer, and a nap of an idle ward alone. -/
theorem presenceAndSideServicesComplete : Obligations.PresenceAndSideServicesComplete := by
  refine ⟨⟨fun _ hreset => exec_presencePress hreset, fun _ _ hpress hdue => exec_presenceExpiry hpress hdue, ?pins,
    fun _ _ hsince hwhole hdue => exec_sealBreak hsince hwhole hdue⟩,
    ⟨fun _ => rfl, fun _ _ _ _ hsize => exec_smbusRead hsize, fun _ _ _ => rfl, fun _ hdown => exec_pcsBlockLock hdown, fun _ => ⟨rfl, rfl⟩,
      fun _ _ _ hport hanswer => exec_icmpEcho hport hanswer, fun _ _ _ hport hon => exec_dhcpv4 hport hon⟩, ?nap⟩
  case pins =>
    exact fun s p => ⟨pinsShown s p, sampleSeal (pinsShown s p) p.sealOhms, exec_pinSample p, rfl, regsOnly_pinsShown p, strapsLive_pinsShown p⟩
  case nap => exact fun s t w hexec hwas hnow g hg => idle_of_wardIdle (wardIdle_of_napping hexec hwas hnow) hg

/-! ### Resets -/

section Resets
variable {s : State}

theorem exec_resetLLow {ns : Nat} : (1000 ≤ ns → exec (.resetLLow ns) s =
      .next (moduleReset { s with sys := { s.sys with resetLow := true } } (liveStraps s) 2)) ∧
    (ns < 100 → exec (.resetLLow ns) s = .next s) := by
  change (_ → execResetLLow ns s = _) ∧ (_ → execResetLLow ns s = _)
  rw [execResetLLow]
  refine ⟨fun hlong => ?_, fun hshort => ?_⟩
  · rw [if_pos hlong]
  · rw [if_neg (by omega), if_pos hshort]

theorem exec_resetLRelease {straps : BitVec 12} (hlow : s.sys.resetLow = true) (hsupply : s.sys.supplyLow = false) :
    exec (.resetLRelease straps) s = .next (startModule { s with sys := { s.sys with resetLow := false } } straps) := by
  change execResetLRelease straps s = _
  simp only [execResetLRelease, hlow, hsupply, Bool.not_true, Bool.false_eq_true, if_false]

theorem exec_coreRelease {failed : List (Fin 1216)} (hboot : modState s = msBooting) (hup : channelsUp s = true) (hfilled : s.mem.filled = true) :
    (let u := startRole (setFlag (failed.foldl (fun s g => releaseCore s g) s) 3 stTimeBaseLocked true)
     let v := if u.sys.warm then (List.range 4).foldl journalRestart u else u
     let w := { v with sys := { v.sys with warm := false } }
     exec (.coreRelease failed) s = .next (noteCores (setFld w 0 stManagerModuleState (workState v)) true)) := by
  change execCoreRelease failed s = _
  simp only [execCoreRelease, hboot, hup, hfilled, ne_eq, not_true_eq_false, Bool.not_true, Bool.false_eq_true, or_self, if_false]

theorem exec_wardNap_naps {w : WardId} (hawake : dieAwake s (w.val / 8) = true) (hwas : flag s (pgWard w.val) stWardNap = false)
    (hidle : wardIdle s w.val = true) (hwanted : wardWanted s w.val = false) (hreleased : coresReleased s (w.val / 8) = true) :
    exec (.wardNap w) s = .next (replanNap (setFlag s (pgWard w.val) stWardNap true) w.val) := by
  have hmay : mayNap s w = true := by
    rw [mayNap, hawake, hwas, hidle, hwanted, hreleased]
    rfl
  rw [exec_wardNap, if_pos hmay]

theorem exec_wardWake {w : WardId} (hnap : flag s (pgWard w.val) stWardNap = true) (hwanted : wardWanted s w.val = true) :
    exec (.wardWake w) s = .next (setFlag s (pgWard w.val) stWardNap false) := by
  change execWardWake w s = _
  rw [execWardWake, hnap, hwanted]
  rfl

end Resets

/-- Settles O59: each reset event and each nap, on the state that it waits for. -/
theorem resetEventsComplete : Obligations.ResetEventsComplete :=
  ⟨fun _ _ => rfl, fun _ _ => exec_resetLLow, fun _ _ hlow hsupply => exec_resetLRelease hlow hsupply,
    fun _ _ hboot hup hfilled => exec_coreRelease hboot hup hfilled,
    fun _ _ hawake hwas hidle hwanted hreleased => exec_wardNap_naps hawake hwas hidle hwanted hreleased,
    fun _ _ hnap hwanted => exec_wardWake hnap hwanted⟩

end Sys2Proof.Machine
end
